-- ==== Sys2Proof/Word.lean ====
section
/-! DEFINITION. The word types of the device: bytes, 32-bit registers (R6), 64-bit payload and
descriptor words (R36, R122), and the numbered units (R11, R12). -/

namespace Sys2Proof

/-- One byte of memory. -/
abbrev Byte := BitVec 8
/-- One register (R6). -/
abbrev Word := BitVec 32
/-- One payload, descriptor or counter word. -/
abbrev Quad := BitVec 64

/-- Mailboxes 0 to 63 (R25). -/
abbrev MbId := Fin 64
/-- Logical cores `d * 512 + g * 64 + k` (R15). -/
abbrev CoreId := Fin 2048
/-- Column groups `8 * d + g` (R11). -/
abbrev GroupId := Fin 32
/-- Dies 0 to 3. -/
abbrev DieId := Fin 4
/-- Ports P0 to P7. -/
abbrev PortId := Fin 8
/-- Sub-ports `2 * p + s` (R321). -/
abbrev SubId := Fin 16
/-- Memory channels 0 to 191 (R262). -/
abbrev ChanId := Fin 192
/-- Loop services 0 to 63 (R240). -/
abbrev SvcId := Fin 64
/-- Check-value channels 0 to 15 (R438). -/
abbrev CvId := Fin 16
/-- Bridges in the order 0-1, 1-3, 3-2, 2-0 (R409). -/
abbrev BridgeId := Fin 4
/-- Laser bays 0 to 3 (R2). -/
abbrev BayId := Fin 4
/-- Partitions 0 to 7. -/
abbrev PartId := Fin 8

end Sys2Proof
end

