-- ==== Sys2Proof/Machine/Inputs.lean ====
section
/-! DEFINITION. What a command brings from outside the block: how a transfer on the host link ended,
a frame as it arrives from a fibre, a transport packet, a sensor reading, a diagnosis of a bring-up
test. The commands of Syntax carry these as operands, because the manual does not decide them. -/

namespace Sys2Proof

/-- How a transfer over the host link or to the weight store ended (R282, R307). -/
inductive LinkOutcome where
  | ok
  /-- a completion timeout on the host link -/
  | timeout
  /-- Unsupported Request or Completer Abort -/
  | rejected
  /-- an access that stays uncorrectable (R271) -/
  | uncorrectable
deriving DecidableEq, Repr

/-- A transport packet: the 56-byte header of R342 and the payload in clear. -/
structure Packet where
  /-- bits 7:4 of TYPE -/
  version : Nat
  /-- bits 3:0 of TYPE (R343) -/
  typ : Nat
  retx : Bool
  rctrEn : Bool
  path : Nat
  epoch : Nat
  dstQpn : Nat
  srcQpn : Nat
  psn : Nat
  msn : Nat
  msgPsn0 : Nat
  msgPkts : Nat
  rinc : Nat
  taddr : Nat
  rkey : Nat
  rctr : Nat
  txc : Nat
  payload : List Byte
deriving DecidableEq, Repr

/-- A frame as it arrives at a sub-port (R322, R323, R327). -/
structure Frame where
  /-- length from destination address through FCS, tag included -/
  len : Nat
  fcsOk : Bool
  /-- 802.1Q tag, if present: VID and PCP -/
  tag : Option (Nat × Nat)
  /-- 0 unicast, 1 multicast, 2 broadcast destination -/
  cast : Nat
  /-- the destination address is the sub-port's MAC_ADDR -/
  toMe : Bool
  /-- PFC frame (R323): enable vector and the eight quanta -/
  pfc : Option (BitVec 8 × List Nat)
  /-- EtherType 0x0800 or 0x86DD, unfragmented, UDP, the transport's port (R323) -/
  isTransport : Bool
  ipv6 : Bool
  ip4CsumOk : Bool
  /-- the UDP checksum field is 0x0000 -/
  udpCsumZero : Bool
  udpCsumOk : Bool
  dscp : BitVec 6
  /-- the ECN field is CE, 0b11 (R333) -/
  ce : Bool
  /-- the transport packet inside, when the frame is a transport frame -/
  packet : Option Packet
  /-- the packet's AES-256-GCM tag verifies under its connection's key (R348) -/
  authentic : Bool
deriving DecidableEq, Repr

/-- A collective message (R231): header fields and data. -/
structure CollMsg where
  epoch : Nat
  step : Nat
  layerId : Nat
  op : Nat
  ovf : Bool
  skip : Bool
  counts : Bool
  last : Bool
  version : Nat
  collId : Nat
  sender : Nat
  chunkNo : Nat
  /-- an empty LAYER_GATHER response (R216) -/
  empty : Bool
  payload : List Byte
deriving DecidableEq, Repr

/-- Junction temperatures in units of 0.125 degrees: 4 sensors for each of 32 groups in the order
`4 * group + sensor`, and 12 memory devices (R383). -/
structure TempReading where
  die : List Nat
  mem : List Nat
deriving DecidableEq, Repr

/-- What one 100 us interval brings Constantan (R371, R376, R378): the measured input power in W, and
for each group the number of cores that ran tasks of each of the seven phases on average. -/
structure IntervalInput where
  watts : Nat
  phaseCores : List (List Nat)
deriving DecidableEq, Repr

/-- Energy of one 10 us sample in micro-joules (R376, R386): the whole input, and shares already
measured by domain: (group, uJ), (job, uJ), (service, uJ), (qpn, uJ), (partition, uJ); and the power of
each die's switched domains averaged over 2 ms in W (R390). -/
structure EnergyInput where
  watts : Nat
  device : Nat
  byGroup : List (Nat × Nat)
  byJob : List (Nat × Nat)
  byService : List (Nat × Nat)
  byQpn : List (Nat × Nat)
  byPart : List (Nat × Nat)
  dieWatts : List Nat
deriving DecidableEq, Repr

/-- One Solder lane: bridge, module, lane 0 to 67 (R455, R459). -/
structure LaneLoc where
  bridge : Nat
  module : Nat
  lane : Nat
deriving DecidableEq, Repr

/-- A failing memory row found by TEST_MEMORY (R457). -/
structure RowLoc where
  channel : Nat
  bank : Nat
  row : Nat
deriving DecidableEq, Repr

/-- A host access that reaches the device through CXL.mem or BAR4: address (DPA, or window offset),
length for a read, data for a write, and the requester (R293). -/
structure HostAccess where
  isWrite : Bool
  addr : Nat
  len : Nat
  data : List Byte
  requester : Nat
deriving DecidableEq, Repr

/-- The operand fields of one vector instruction (R119); the opcode is the command's own. -/
structure VecFields where
  zd : Fin 32
  za : Fin 32
  zb : Fin 32
  zc : Fin 32
  typ : Fin 4
  imm : Word
deriving DecidableEq, Repr

/-- The operand fields of one update instruction (R183); the opcode is the command's own. -/
structure UpdFields where
  d : Fin 64
  a : Fin 64
  b : Fin 64
  c : Fin 64
  imm : Word
deriving DecidableEq, Repr

end Sys2Proof
end

