-- ==== Sys2Proof/Syntax.lean ====
section
/-! DEFINITION. The commands of the block: one constructor for each row of the table of operations and
events, in the table's order, with the operands a command brings. A mailbox command names its mailbox;
its request stands in that mailbox's command ring (R28, R36). -/

namespace Sys2Proof

/-- A command or event of the device. -/
inductive Instr where
  /-- MB_DOORBELL (R30). A write of a new command producer index to a mailbox doorbell submits requests, or puts the mailbox in ERROR if the index is out of range. -/
  | mbDoorbell (mb : MbId) (v : Word)
  /-- MB_DOORBELL_F (R34). A fenced doorbell write makes earlier CXL.mem writes visible before the firmware reads requests up to the new producer index. -/
  | mbDoorbellF (mb : MbId) (v : Word)
  /-- MAILBOX_ENABLE (R29). Setting MB_CTRL.ENABLE resets the ring indices to 0 and sets STATE to IDLE. -/
  | mailboxEnable (mb : MbId) (v : Word)
  /-- MAILBOX_DISABLE (R29). Clearing MB_CTRL.ENABLE lets the executing command finish and respond, then sets STATE to DISABLED. -/
  | mailboxDisable (mb : MbId) (v : Word)
  /-- MB_RSP_CONS (R32). A write of the response consumer index frees ring space and releases a held response. -/
  | mbRspCons (mb : MbId) (v : Word)
  /-- REGISTER_WRITE (R47). A direct write to a register that has no row of its own is applied under the field-class rules and reported in the page's WSTAT and ERRCNT. -/
  | registerWrite (bar off : Nat) (v : Word)
  /-- COMPAT_WRITE (R56). A write to COMPAT is accepted only when the mailboxes are idle, and each bit then takes effect at the point that R57 gives. -/
  | compatWrite (v : Word)
  /-- SVC_DOORBELL (R247). A service doorbell write starts a DOORBELL-mode period, adds IN_INC to IN_CTR in TIMER mode, or is ignored and counted. -/
  | svcDoorbell (mb : MbId) (svc : SvcId) (v : Word)
  /-- CFG_WRITE (R45). Writes up to three fields, or up to 4,096 from an argument block, atomically under the static, boundary and live class rules. -/
  | cfgWrite (mb : MbId)
  /-- CFG_READ (R46). Returns the active value, the pending value, the pending mask and the target boundary of one register. -/
  | cfgRead (mb : MbId)
  /-- ATTACH (R315). Verifies the session id and credential and ends the DETACHED state. -/
  | attach (mb : MbId)
  /-- SESSION_CRED (R315). Stores the SHAKE256 digest of the attach credential. -/
  | sessionCred (mb : MbId)
  /-- PEWTER_START (R309). Verifies and starts a Pewter program on a hart and binds its mailbox to the partition. -/
  | pewterStart (mb : MbId)
  /-- PEWTER_STOP (R309). Halts a Pewter program, stops and unloads its jobs, deregisters its services and unbinds its mailbox. -/
  | pewterStop (mb : MbId)
  /-- PART_CREATE (R428). Creates a partition with its groups, sets, memory key, layout and weights, and prepares its cores. -/
  | partCreate (mb : MbId)
  /-- PART_DESTROY (R428). Destroys a partition's regions, grants, key and queue, and powers off its groups. -/
  | partDestroy (mb : MbId)
  /-- PART_RECONFIGURE (R430). Checks the pending partition values and applies them at one instant, the partition boundary. -/
  | partReconfigure (mb : MbId)
  /-- PART_MAILBOX (R428). Assigns a disabled mailbox 1 to 55 to a partition, or unassigns it. -/
  | partMailbox (mb : MbId)
  /-- EVQ_SET (R432). Sets an event queue's ring, size, vector and interrupt enable, and resets its indices. -/
  | evqSet (mb : MbId)
  /-- SEC_IDENTITY (R417). Writes the 256-B identity certificate to the given address. -/
  | secIdentity (mb : MbId)
  /-- SEC_ATTEST (R418). Writes an attestation report for the requester's scope, signed with the identity key. -/
  | secAttest (mb : MbId)
  /-- SEC_KEY_ENROLL (R416). Enrols an operator key after checking the signature and sequence number. -/
  | secKeyEnroll (mb : MbId)
  /-- SEC_KEY_REMOVE (R416). Removes an enrolled operator key after checking the signature and sequence number. -/
  | secKeyRemove (mb : MbId)
  /-- SEC_JOB_SHARE (R424). Makes a fresh X448 key pair for a new job epoch and writes a signed key share. -/
  | secJobShare (mb : MbId)
  /-- SEC_JOB_AGREE (R425). Verifies the members' shares, derives the pairwise keys and installs the new job epoch. -/
  | secJobAgree (mb : MbId)
  /-- BIAS_SET (R300). Flips a range of pages to device or host bias. -/
  | biasSet (mb : MbId)
  /-- BIAS_QUERY (R301). Returns the bias code of one page. -/
  | biasQuery (mb : MbId)
  /-- REGION_CREATE (R275). Creates a retained region with its own key slot. -/
  | regionCreate (mb : MbId)
  /-- REGION_DESTROY (R275). Erases a retained region's key slot and releases the region. -/
  | regionDestroy (mb : MbId)
  /-- REGION_SEAL (R275). Scans a retained region, records its CRC-32C and sets SEALED. -/
  | regionSeal (mb : MbId)
  /-- REGION_ASSIGN (R277). Assigns an orphan region to a partition whose sets and layout match. -/
  | regionAssign (mb : MbId)
  /-- REGION_QUERY (R275). Returns a region's DPA, length, owner, flags and sealed CRC. -/
  | regionQuery (mb : MbId)
  /-- MEM_LAYOUT (R267). Sets a partition's memory layout mode and its count of private sets. -/
  | memLayout (mb : MbId)
  /-- HOST_DMA (R307). Accepts an asynchronous bounce-buffer copy between host memory and device memory. -/
  | hostDma (mb : MbId)
  /-- HOST_DMA_COMPLETE (R307). A host DMA command ends, writes its completion record and signals on success. -/
  | hostDmaComplete (cmd : Nat) (o : LinkOutcome)
  /-- JOB_LOAD_GRAPH (R146). Checks and loads a task graph image, allocates counters and a job id. -/
  | jobLoadGraph (mb : MbId)
  /-- JOB_START (R146). Starts a loaded job that has never been started. -/
  | jobStart (mb : MbId)
  /-- JOB_STOP (R146). Stops releasing tasks, empties the job's deque entries and responds when running tasks complete. -/
  | jobStop (mb : MbId)
  /-- JOB_UNLOAD (R146). Unloads a job that is not running and releases its counters. -/
  | jobUnload (mb : MbId)
  /-- JOB_RESTART (R477). Restarts a fenced job under a newer epoch, as JOB_START does on a freshly loaded job. -/
  | jobRestart (mb : MbId)
  /-- JOB_FENCE (R477). Fences a running job with cause OPERATOR. -/
  | jobFence (mb : MbId)
  /-- JOB_FAULT_INFO (R477). Returns the cause, origin, epoch, step and failed-task details of a fenced job. -/
  | jobFaultInfo (mb : MbId)
  /-- SYNC_READ (R146). Returns the value of a sync counter. -/
  | syncRead (mb : MbId)
  /-- SYNC_ADD (R146). Atomically adds an amount to a sync counter. -/
  | syncAdd (mb : MbId)
  /-- SYNC_SET (R146). Sets a sync counter whose owning job is not running. -/
  | syncSet (mb : MbId)
  /-- GROUP_STATS (R146). Returns the task, steal and restart counts of a column group. -/
  | groupStats (mb : MbId)
  /-- JOB_LAYER_TABLE (R164). Sets the job's trainable-layer table with its buffers and commit counters. -/
  | jobLayerTable (mb : MbId)
  /-- JOB_SCALE_TABLE (R171). Sets the loss-scale word and the per-tensor scale entries with their patch lists. -/
  | jobScaleTable (mb : MbId)
  /-- JOB_RSEG_TABLE (R164). Sets the checkpoint byte count of each recompute segment. -/
  | jobRsegTable (mb : MbId)
  /-- JOB_LAYER_STATUS (R164). Returns a layer's committed version, placed version, REF, flags and counts. -/
  | jobLayerStatus (mb : MbId)
  /-- JOB_MAP (R235). Checks and sets the job's member, stage, node, hollow-slot and ownership map. -/
  | jobMap (mb : MbId)
  /-- JOB_GATHER_TABLE (R234). Sets the HELD, GATHERED or GATHERED_DROP mode and source of each layer. -/
  | jobGatherTable (mb : MbId)
  /-- JOB_MAP_STATUS (R234). Returns owned bytes, imbalance, stage and hollow slots. -/
  | jobMapStatus (mb : MbId)
  /-- JOB_GATHER_STATUS (R234). Returns a gathered layer's recorded version and CRC and its gather counts. -/
  | jobGatherStatus (mb : MbId)
  /-- UPD_STEP_PARAMS (R196). Writes the step size as a boundary-class write of UPD_STEP_SIZE. -/
  | updStepParams (mb : MbId)
  /-- SVC_REGISTER (R240). Checks a loop-service contract, reserves cores, runs admission and the proving run, and registers the service. -/
  | svcRegister (mb : MbId)
  /-- PROVING_RUN_COMPLETE (R243). One run of the proving run ends and its cycle count is compared with WC_CYCLES. -/
  | provingRunComplete (svc : SvcId) (cycles : Nat)
  /-- SVC_DEREGISTER (R254). Lets the running period end, then releases the service's reservation, counters and regions. -/
  | svcDeregister (mb : MbId)
  /-- SVC_ARM (R245). Numbers periods from 0, zeroes IN_CTR and DONE_CTR, and arms the timer or the doorbell start. -/
  | svcArm (mb : MbId)
  /-- PUBLISH (R256). Accepts a retained region for verification as new service weights. -/
  | publish (mb : MbId)
  /-- PUBLISH_VERIFIED (R257). Verification of a published region ends, and the region becomes pending or PUBLISH_FAILED is recorded. -/
  | publishVerified (svc : SvcId)
  /-- SVC_RESUME (R252). Repeats the proving run of a suspended service and returns it to REGISTERED on success. -/
  | svcResume (mb : MbId)
  /-- PW_CAP_SET (R381). Sets the module power cap and responds once it has taken effect. -/
  | pwCapSet (mb : MbId)
  /-- PW_ACCT_OWN (R387). Sets the owner of an energy account. -/
  | pwAcctOwn (mb : MbId)
  /-- PW_ACCT_ASSIGN (R387). Sets the kind and target of an energy account. -/
  | pwAcctAssign (mb : MbId)
  /-- PW_ACCT_READ (R387). Returns an energy account's value, kind and owner. -/
  | pwAcctRead (mb : MbId)
  /-- PW_ACCT_CLEAR (R387). Returns an energy account's value and clears it. -/
  | pwAcctClear (mb : MbId)
  /-- PW_PREF_SET (R388). Sets a partition's preferred operating point for each phase. -/
  | pwPrefSet (mb : MbId)
  /-- PW_TENANT_STATUS (R388). Returns the external-throttle bit and the coarse die temperatures. -/
  | pwTenantStatus (mb : MbId)
  /-- PW_GROUP_READ (R388). Returns a group's power state, stretch count and switch counts. -/
  | pwGroupRead (mb : MbId)
  /-- XP_ADDR_SET (R340). Sets a sub-port's IP address and next-hop MAC address. -/
  | xpAddrSet (mb : MbId)
  /-- XP_QP_CREATE (R367). Creates a queue pair in INIT for a job and peer member. -/
  | xpQpCreate (mb : MbId)
  /-- XP_QP_CONNECT (R348). Connects a queue pair to its peer, derives its keys and puts it in RTS. -/
  | xpQpConnect (mb : MbId)
  /-- XP_QP_DESTROY (R367). Destroys a queue pair once its packets are acknowledged or flushed. -/
  | xpQpDestroy (mb : MbId)
  /-- XP_QP_QUERY (R367). Returns a queue pair's state, cause, rate, SRTT and path count. -/
  | xpQpQuery (mb : MbId)
  /-- XP_POST (R352). Advances a queue pair's send-queue producer index so that its WQEs become ready. -/
  | xpPost (mb : MbId)
  /-- XP_TRIG_POST (R362). Copies WQEs into the trigger table and arms each one on its counter. -/
  | xpTrigPost (mb : MbId)
  /-- XP_TRIG_CANCEL (R364). Frees the named triggers. -/
  | xpTrigCancel (mb : MbId)
  /-- XP_REG (R360). Registers a memory region and returns its remote key. -/
  | xpReg (mb : MbId)
  /-- XP_REVOKE (R361). Moves a region to REVOKING so that later packets fail their check. -/
  | xpRevoke (mb : MbId)
  /-- REVOKE_DRAINED (R361). The accesses that passed their check before a revocation have drained, the index is freed and XP_REVOKE responds. -/
  | revokeDrained (region : Nat)
  /-- CV_ASSIGN (R439). Assigns a software check-value channel to a partition or to the operator. -/
  | cvAssign (mb : MbId)
  /-- SNAPSHOT (R175). Accepts an asynchronous snapshot of the owned layers at the end of a given step. -/
  | snapshot (mb : MbId)
  /-- SNAPSHOT_COPY (R176). Once the snapshot step's versions have committed, the layers are copied, checked and shipped. -/
  | snapshotCopy (job : Nat)
  /-- SNAPSHOT_COMPLETE (R176). A snapshot writes its completion record. -/
  | snapshotComplete (job : Nat)
  /-- SNAPSHOT_SHIP_TIMEOUT (R176). Shipping has not finished 10 s after the copy, so the snapshot completes with TIMEOUT. -/
  | snapshotShipTimeout (job : Nat)
  /-- WS_INSTALL (R281). Starts installing a signed base image into a weight-store slot. -/
  | wsInstall (mb : MbId)
  /-- WS_INSTALL_COMPLETE (R281). An installation ends after its signature and CRC checks and writes its record. -/
  | wsInstallComplete (o : LinkOutcome)
  /-- WS_REMOVE (R280). Frees a weight-store slot. -/
  | wsRemove (mb : MbId)
  /-- WS_GRANT (R280). Grants a partition read access to a base, or revokes that access. -/
  | wsGrant (mb : MbId)
  /-- WS_LOAD (R283). Starts copying consecutive layers of a base into device memory with CRC checks. -/
  | wsLoad (mb : MbId)
  /-- WS_LOAD_COMPLETE (R283). A weight-store load ends and writes its completion record. -/
  | wsLoadComplete (load : Nat) (o : LinkOutcome)
  /-- WS_STATUS (R280). Returns a slot's base id, state, extents, aperture offset and grants. -/
  | wsStatus (mb : MbId)
  /-- DL_READ (R463). Writes the defect list with its header and the overflow CORE entries. -/
  | dlRead (mb : MbId)
  /-- DL_REMOVE (R464). Removes a signed, non-CORE, non-factory entry from the defect list. -/
  | dlRemove (mb : MbId)
  /-- DIAG_CORE_MAP (R463). Returns the physical core id behind a logical core id. -/
  | diagCoreMap (mb : MbId)
  /-- POWER_HUB (R448). Bring-up step that releases the hub, checks the identity and reads the defect list. -/
  | powerHub (identityOk copy0Bad copy1Bad : Bool)
  /-- LOAD_FW (R454). Bring-up step that copies and verifies the firmware and the Pewter runtime. -/
  | loadFw (o : LinkOutcome)
  /-- POWER_DIES (R448). Bring-up step that powers the fabric, memory PHY and group domains. -/
  | powerDies (fabFail : BitVec 4)
  /-- LOCK_CLOCKS (R448). Bring-up step that locks FCLK, MCLK, ECLK and the group PLLs at OPP7. -/
  | lockClocks (groupFail : BitVec 32) (dieFail : BitVec 4)
  /-- TRAIN_SOLDER (R455). Bring-up step that trains every bridge lane and sets each bridge to full width, half width or out. -/
  | trainSolder (failed : List LaneLoc) (halfFail : BitVec 4)
  /-- TRAIN_MEMORY (R456). Bring-up step that trains the channels, excludes weak ones and creates the device memory key. -/
  | trainMemory (margins : List Nat)
  /-- TEST_MEMORY (R457). Bring-up step that tests memory in mode FULL, QUICK or RETAIN and lists failing rows. -/
  | testMemory (mode : BitVec 4) (rows : List RowLoc)
  /-- TEST_CORES (R460). Bring-up step that tests every physical core at OPP0 and OPP7 and lists failing cores. -/
  | testCores (fails : List (Nat × Nat))
  /-- APPLY_DEFECTS (R16). Bring-up step that builds the core remap and retires the listed memory granules. -/
  | applyDefects
  /-- START_OPTICS (R461). Bring-up step that powers and loopback-tests the optical engines and zeroes the counters. -/
  | startOptics (engineFail : BitVec 8)
  /-- START_CP (R448). Bring-up step that starts the control processor, the mailboxes, Constantan and Invar, and sets the session. -/
  | startCp (ready : Bool)
  /-- ATTEST (R448). Bring-up step that writes an operator-scope attestation report to the host. -/
  | attest (o : LinkOutcome)
  /-- BRINGUP_STEP_END (R449). A running bring-up step ends DONE, DEGRADED or FAILED, and NEXT advances. -/
  | bringupStepEnd
  /-- BRINGUP_TIMEOUT (R448). A bring-up step runs past its bound and ends FAILED with cause TIMEOUT. -/
  | bringupTimeout
  /-- CV_START (R442). CV_CTRL.START starts a scan from CV_ADDR for CV_LEN bytes. -/
  | cvStart (ch : CvId) (v : Word)
  /-- CV_STOP (R443). CV_CTRL.STOP stops a scan at the next 64-B multiple and leaves it STOPPED. -/
  | cvStop (ch : CvId) (v : Word)
  /-- CV_SCAN_END (R442). A scan completes, writes CV_RESULT or ERR, and raises its vector. -/
  | cvScanEnd (ch : CvId)
  /-- TASK_FETCH (R132). A graph walker fetches the next descriptor of a job's list while it holds fewer than 1,024 tasks. -/
  | taskFetch (job : Nat) (die : DieId)
  /-- TASK_RELEASE (R132). A fetched task whose waits are satisfied is released to the tail of its HOME deque, or held if that deque is full. -/
  | taskRelease (job : Nat) (die : DieId)
  /-- TASK_POP (R135). An owner core takes the entry nearest the head whose phase is not W and starts it. -/
  | taskPop (core : CoreId)
  /-- TASK_STEAL (R136). An idle core steals a takeable entry from a victim deque in scope order. -/
  | taskSteal (core : CoreId)
  /-- GEMM (R94). Task that multiplies streamed vectors by a resident tile in the normal dataflow, with any segment passes. -/
  | taskGemm (core : CoreId)
  /-- GEMM_T (R96). Task that computes input gradients on a resident tile in the transposed dataflow. -/
  | taskGemmT (core : CoreId)
  /-- GEMM_WG (R99). Task that computes weight gradients with a stationary activation tile. -/
  | taskGemmWg (core : CoreId)
  /-- VEC (R127). Task that runs a vector program for ITER iterations. -/
  | taskVec (core : CoreId)
  /-- LOAD (R128). Task that copies device memory into the local store. -/
  | taskLoad (core : CoreId)
  /-- STORE (R128). Task that copies the local store into device memory. -/
  | taskStore (core : CoreId)
  /-- GATHER (R128). Task that gathers indexed table rows into the local store. -/
  | taskGather (core : CoreId)
  /-- COLL (R124). Task that hands a collective descriptor to the die's collective engine. -/
  | taskColl (core : CoreId)
  /-- UPD (R192). Task that checks step agreement, step-size freshness and the skip decision, then runs the layer's update program. -/
  | taskUpd (core : CoreId)
  /-- SVC (R237). Task that runs one step of a service image on a reserved core. -/
  | taskSvc (core : CoreId)
  /-- TASK_COMPLETE (R144). A task completes, writes its completion record, signals its counter and lowers REF. -/
  | taskComplete (core : CoreId)
  /-- HANG (R145). A task runs for more than 1 s, so its core is reset, CORE_HANG is raised and the job is fenced. -/
  | hang (core : CoreId)
  /-- GRAPH_STALL (R133). A job with unreleased tasks makes no progress for its stall time and is fenced. -/
  | graphStall (job : Nat)
  /-- STEP_BOUNDARY (R134). The last task of a step completes, so pending values apply, range control runs and the lists restart. -/
  | stepBoundary (job : Nat)
  /-- VEC_NOP (R120). Vector instruction that does nothing. -/
  | vecNop (core : CoreId) (f : VecFields)
  /-- VEC_LD (R120). Vector instruction that loads 1 to 64 words into a register. -/
  | vecLd (core : CoreId) (f : VecFields)
  /-- VEC_ST (R120). Vector instruction that stores 1 to 64 words of a register. -/
  | vecSt (core : CoreId) (f : VecFields)
  /-- LDACC (R120). Vector instruction that loads 64 accumulator entries into a register. -/
  | vecLdacc (core : CoreId) (f : VecFields)
  /-- BCAST (R120). Vector instruction that broadcasts one memory word to every lane. -/
  | vecBcast (core : CoreId) (f : VecFields)
  /-- MOVI (R120). Vector instruction that moves the immediate to every lane. -/
  | vecMovi (core : CoreId) (f : VecFields)
  /-- VEC_ADD (R120). Vector instruction that adds two registers lane by lane. -/
  | vecAdd (core : CoreId) (f : VecFields)
  /-- VEC_SUB (R120). Vector instruction that subtracts lane by lane. -/
  | vecSub (core : CoreId) (f : VecFields)
  /-- VEC_MUL (R120). Vector instruction that multiplies lane by lane. -/
  | vecMul (core : CoreId) (f : VecFields)
  /-- VEC_FMA (R120). Vector instruction that forms a fused multiply-add with one rounding. -/
  | vecFma (core : CoreId) (f : VecFields)
  /-- VEC_DIV (R120). Vector instruction that divides, correctly rounded. -/
  | vecDiv (core : CoreId) (f : VecFields)
  /-- VEC_MAX (R120). Vector instruction that takes the lane maximum. -/
  | vecMax (core : CoreId) (f : VecFields)
  /-- VEC_MIN (R120). Vector instruction that takes the lane minimum. -/
  | vecMin (core : CoreId) (f : VecFields)
  /-- VEC_ABS (R120). Vector instruction that takes the absolute value. -/
  | vecAbs (core : CoreId) (f : VecFields)
  /-- VEC_SQRT (R120). Vector instruction that takes the square root, correctly rounded. -/
  | vecSqrt (core : CoreId) (f : VecFields)
  /-- VEC_RSQRT (R120). Vector instruction that takes the reciprocal square root within 1 ULP. -/
  | vecRsqrt (core : CoreId) (f : VecFields)
  /-- VEC_EXP (R120). Vector instruction that takes the exponential within 2 ULP. -/
  | vecExp (core : CoreId) (f : VecFields)
  /-- VEC_LOG (R120). Vector instruction that takes the logarithm within 2 ULP. -/
  | vecLog (core : CoreId) (f : VecFields)
  /-- TANH (R120). Vector instruction that takes tanh within 2 ULP. -/
  | vecTanh (core : CoreId) (f : VecFields)
  /-- SIGMOID (R120). Vector instruction that takes the sigmoid within 2 ULP. -/
  | vecSigmoid (core : CoreId) (f : VecFields)
  /-- ERF (R120). Vector instruction that takes erf within 2 ULP. -/
  | vecErf (core : CoreId) (f : VecFields)
  /-- CMPLT (R120). Vector instruction that sets the lane mask from a less-than comparison. -/
  | vecCmplt (core : CoreId) (f : VecFields)
  /-- VEC_SEL (R120). Vector instruction that selects by the lane mask. -/
  | vecSel (core : CoreId) (f : VecFields)
  /-- RSUM (R120). Vector instruction that sums the 64 lanes in a fixed pairwise tree. -/
  | vecRsum (core : CoreId) (f : VecFields)
  /-- RMAX (R120). Vector instruction that takes the maximum of the 64 lanes. -/
  | vecRmax (core : CoreId) (f : VecFields)
  /-- VEC_CVT (R120). Vector instruction that converts each lane to a format under R76. -/
  | vecCvt (core : CoreId) (f : VecFields)
  /-- QMX (R120). Vector instruction that quantises two 32-lane blocks to an MX format and stores elements and scales. -/
  | vecQmx (core : CoreId) (f : VecFields)
  /-- AMAX (R120). Vector instruction that merges the largest finite lane magnitude into an amax slot. -/
  | vecAmax (core : CoreId) (f : VecFields)
  /-- VEC_END (R119). Vector instruction that ends an iteration of the program. -/
  | vecEnd (core : CoreId) (f : VecFields)
  /-- SECTION_TASK (R187). An internal Bronze task runs the update program's sweeps over one section. -/
  | sectionTask (core : CoreId)
  /-- UPD_RESUME (R192). A stalled update resumes once the alternate buffer, REF or snapshot condition clears. -/
  | updResume (job layer : Nat)
  /-- UPD_COMPLETE (R201). Every section has stored plane C, so Bronze writes the record fields, marks the version placed, hands off the broadcast and completes the UPD task. -/
  | updComplete (job layer : Nat)
  /-- UPD_NOP (R184). Update instruction that does nothing. -/
  | updNop (core : CoreId) (f : UpdFields)
  /-- UPD_LD (R184). Update instruction that loads a block of a plane into a register. -/
  | updLd (core : CoreId) (f : UpdFields)
  /-- UPD_ST (R200). Update instruction that stores a register block to a plane, converting it when the plane is C. -/
  | updSt (core : CoreId) (f : UpdFields)
  /-- UPD_ADD (R184). Update instruction that adds. -/
  | updAdd (core : CoreId) (f : UpdFields)
  /-- UPD_SUB (R184). Update instruction that subtracts. -/
  | updSub (core : CoreId) (f : UpdFields)
  /-- UPD_MUL (R184). Update instruction that multiplies. -/
  | updMul (core : CoreId) (f : UpdFields)
  /-- UPD_FMA (R184). Update instruction that forms a fused multiply-add. -/
  | updFma (core : CoreId) (f : UpdFields)
  /-- UPD_DIV (R184). Update instruction that divides, correctly rounded. -/
  | updDiv (core : CoreId) (f : UpdFields)
  /-- UPD_SQRT (R184). Update instruction that takes the square root. -/
  | updSqrt (core : CoreId) (f : UpdFields)
  /-- UPD_RSQRT (R184). Update instruction that takes the reciprocal square root. -/
  | updRsqrt (core : CoreId) (f : UpdFields)
  /-- UPD_ABS (R184). Update instruction that takes the absolute value. -/
  | updAbs (core : CoreId) (f : UpdFields)
  /-- SIGN (R184). Update instruction that takes the sign. -/
  | updSign (core : CoreId) (f : UpdFields)
  /-- UPD_MAX (R184). Update instruction that takes the larger of two values. -/
  | updMax (core : CoreId) (f : UpdFields)
  /-- UPD_MIN (R184). Update instruction that takes the smaller of two values. -/
  | updMin (core : CoreId) (f : UpdFields)
  /-- CLAMP (R184). Update instruction that clamps between two bounds. -/
  | updClamp (core : CoreId) (f : UpdFields)
  /-- UPD_SEL (R184). Update instruction that selects by the sign of A. -/
  | updSel (core : CoreId) (f : UpdFields)
  /-- UPD_EXP (R184). Update instruction that takes the exponential. -/
  | updExp (core : CoreId) (f : UpdFields)
  /-- UPD_LOG (R184). Update instruction that takes the natural logarithm. -/
  | updLog (core : CoreId) (f : UpdFields)
  /-- UPD_CVT (R184). Update instruction that converts to a format and back to FP32. -/
  | updCvt (core : CoreId) (f : UpdFields)
  /-- SUMSQ (R190). Update instruction that reduces the sum of squares over the section into a slot. -/
  | updSumsq (core : CoreId) (f : UpdFields)
  /-- NORM2 (R190). Update instruction that reduces the Euclidean norm over the section into a slot. -/
  | updNorm2 (core : CoreId) (f : UpdFields)
  /-- MSTEP_GRAM (R203). Matrix step that forms a Gram matrix into a K plane. -/
  | mstepGram (core : CoreId) (f : UpdFields)
  /-- MSTEP_ORTH (R204). Matrix step that orthogonalises a plane by Newton-Schulz iteration. -/
  | mstepOrth (core : CoreId) (f : UpdFields)
  /-- MSTEP_INV (R205). Matrix step that inverts a damped K plane by Cholesky factorisation. -/
  | mstepInv (core : CoreId) (f : UpdFields)
  /-- MSTEP_IROOT (R206). Matrix step that forms an inverse p-th root by coupled Newton iteration. -/
  | mstepIroot (core : CoreId) (f : UpdFields)
  /-- UPD_END (R184). Update instruction that ends the program. -/
  | updEnd (core : CoreId) (f : UpdFields)
  /-- LAYER_COMMIT (R159). A placed version commits once REF reaches zero, and COMMIT_CTR advances. -/
  | layerCommit (job layer : Nat)
  /-- REDUCE_TO_OWNER (R225). Collective that sums every member's contribution at the root. -/
  | reduceToOwner (job coll : Nat)
  /-- BCAST_FROM_OWNER (R225). Collective that places the root's data, or a new layer version, on every other member. -/
  | bcastFromOwner (job coll : Nat)
  /-- ALL_GATHER (R225). Collective that places every member's part on every member. -/
  | allGather (job coll : Nat)
  /-- REDUCE_SCATTER (R225). Collective that sums each part at its member. -/
  | reduceScatter (job coll : Nat)
  /-- ALL_TO_ALL (R227). Collective that exchanges per-destination parts after count messages. -/
  | allToAll (job coll : Nat)
  /-- RING_SHIFT (R224). Collective that sends each member's data to the next member. -/
  | ringShift (job coll : Nat)
  /-- LAYER_GATHER (R217). Collective that pulls a layer's committed version from a node source, or regathers and compares it. -/
  | layerGather (job coll : Nat)
  /-- COLL_MESSAGE_RECEIVE (R232). A collective message arrives, and its header is checked before it is placed or combined. -/
  | collMessageReceive (job : Nat) (m : CollMsg)
  /-- GATHER_REQUEST_SERVE (R216). A source serves a held LAYER_GATHER request once it has made s commits of the layer. -/
  | gatherRequestServe (job layer : Nat)
  /-- COLL_COMPLETE (R233). A member's completion condition holds, so its engine adds SIG_INC to SIG_ID. -/
  | collComplete (job coll : Nat)
  /-- PERIOD_START (R248). A service period starts by timer or doorbell: pending fields apply, the reserved cores are cleaned and any publication takes effect. -/
  | periodStart (svc : SvcId)
  /-- CLEAN_DONE (R248). The clean start of a period finishes. -/
  | cleanDone (svc : SvcId)
  /-- RUN_START (R248). Input is complete and the clean start is done, so the period's tasks are released. -/
  | runStart (svc : SvcId)
  /-- INPUT_CUTOFF (R248). The input cutoff passes without complete input, and the period is MISSED with INPUT_LATE. -/
  | inputCutoff (svc : SvcId)
  /-- DEADLINE (R250). The deadline passes with work still running, and the period is abandoned with OVERRUN. -/
  | deadline (svc : SvcId)
  /-- WRITEBACK_DONE (R255). The completion record is written, DONE_CTR is incremented and the service returns to IDLE. -/
  | writebackDone (svc : SvcId)
  /-- SVC_MISSED (R261). The rate-limited SVC_MISSED event is raised with the number of misses since the last one. -/
  | svcMissed (svc : SvcId)
  /-- CONTROL_INTERVAL (R378). Every 100 µs Constantan forms requested points, predicts power and lowers or raises its controls. -/
  | controlInterval (x : IntervalInput)
  /-- PLL_LOCK (R372). A group's standby PLL locks at its target frequency. -/
  | pllLock (group : GroupId)
  /-- MUX_SWITCH (R372). The clock multiplexer switches a group to the new PLL once the rail, the lock and the notice lead allow. -/
  | muxSwitch (group : GroupId)
  /-- RAIL_SETTLE (R372). A group's rail reaches its final voltage after a change. -/
  | railSettle (group : GroupId)
  /-- SWITCH_ABANDON (R374). A voluntary switch that has waited 2 µs on a stretch is abandoned and counted. -/
  | switchAbandon (group : GroupId)
  /-- SWITCH_RETRY (R374). Constantan retries an abandoned switch 50 µs later. -/
  | switchRetry (group : GroupId)
  /-- DROOP_DETECT (R373). A droop detector fires and the group's next ACLK edge is stretched. -/
  | droopDetect (group : GroupId) (detector : Fin 16)
  /-- STRETCH_END (R373). A stretch ends after 64 cycles in which no detector fires. -/
  | stretchEnd (group : GroupId)
  /-- DUTY_FRAME (R375). A 64-period frame boundary is reached, and a changed duty takes effect. -/
  | dutyFrame (group : GroupId)
  /-- POWER_SAMPLE (R376). Input power is sampled every 10 µs and energy is attributed to accounts. -/
  | powerSample (e : EnergyInput)
  /-- PWRBRK_ASSERT (R382). PWRBRK_N is asserted, so every group goes to duty 1 and then to OPP7. -/
  | pwrbrkAssert
  /-- PWRBRK_RELEASE (R382). PWRBRK_N is released, and Constantan returns toward the requested points. -/
  | pwrbrkRelease
  /-- THERMAL_SAMPLE (R383). The junction and memory sensors are read and compared with the warning, throttle and trip points. -/
  | thermalSample (t : TempReading)
  /-- TRIP_POWER_OFF (R384). The switched domains and the hub lose power after a trip, and the trip is recorded. -/
  | tripPowerOff
  /-- EXTERNAL_THROTTLE (R388). At the end of each 1 s window the external-throttle bit is updated and the event raised on a rise. -/
  | externalThrottle (part : PartId)
  /-- MEM_EYE_MEASURE (R393). Every 100 µs Invar measures each channel's eye and may step its sampler. -/
  | memEyeMeasure (ch : ChanId) (centre margin : Int)
  /-- MEM_RETRAIN (R395). A channel with low margin is retrained in a refresh slot. -/
  | memRetrain (ch : ChanId) (margin : Nat)
  /-- RETRAIN_WAIT_EXPIRE (R396). No idle-service refresh slot has come within 10 ms, so the retrain takes the next allowed slot. -/
  | retrainWaitExpire (ch : ChanId)
  /-- FREEZE_END (R407). A freeze ends TAIL_US after its switch or rail settling, and held moves are made. -/
  | freezeEnd (die : DieId)
  /-- RING_LOCK_LOSS (R399). A transmit ring loses lock and Invar searches for its resonance. -/
  | ringLockLoss (port : PortId) (lane : Fin 8)
  /-- RING_RELOCK (R399). A ring relocks and the relock is counted. -/
  | ringRelock (port : PortId) (lane : Fin 8)
  /-- LASER_TRIM (R400). Invar trims a laser output's bias, at most once per 1 ms. -/
  | laserTrim (bay : BayId) (out : Fin 16) (step : Int)
  /-- SLEW_BUDGET_UPDATE (R405). The die's slew budget is halved or restored from ring headroom. -/
  | slewBudgetUpdate (die : DieId) (headroom : List Nat)
  /-- LANE_RECAL (R401). Invar swaps the shadow lane in and recalibrates a Solder lane. -/
  | laneRecal (bridge : BridgeId) (module : Fin 12)
  /-- LANE_RECAL_DONE (R401). A lane recalibration ends and the lane is swapped back, or it is retired. -/
  | laneRecalDone (bridge : BridgeId) (module : Fin 12) (ok : Bool)
  /-- LANE_FAIL (R403). A lane fails in a module without spares, so the bridge goes to half width or out of service. -/
  | laneFail (bridge : BridgeId) (module : Fin 12) (lane : Fin 68)
  /-- DROOP_RECAL (R404). Every 10 ms a group's droop thresholds are recalibrated. -/
  | droopRecal (group : GroupId) (failed : Nat)
  /-- PORT_ENABLE (R324). Setting a sub-port's ENABLE begins PCS alignment. -/
  | portEnable (sub : SubId) (v : Word)
  /-- PORT_DISABLE (R324). Clearing ENABLE finishes the frame in transmission, stops the sub-port and raises PORT_DOWN. -/
  | portDisable (sub : SubId) (v : Word)
  /-- PORT_UP (R324). The PCS aligns and the FEC locks, so LINK becomes 1 and PORT_UP is raised. -/
  | portUp (sub : SubId)
  /-- LINK_FAULT (R324). A local or remote fault lasts 1 ms, so the sub-port goes down and retrains. -/
  | linkFault (sub : SubId)
  /-- LANE_LOCK_LOSS (R324). A lane stays out of lock for 1 ms, so the sub-port goes down with cause LANE. -/
  | laneLockLoss (sub : SubId) (lane : Fin 8)
  /-- PORT_DEGRADED (R325). An interval of 1 s with FEC trouble raises PORT_DEGRADED. -/
  | portDegraded (sub : SubId)
  /-- LASER_LATCH_RELEASE (R319). A laser module's latch is released, so the bay's ports go down and the module goes dark. -/
  | laserLatchRelease (bay : BayId)
  /-- LASER_LATCH (R319). A laser module is inserted and latched, so its identity is read and the bay is powered. -/
  | laserLatch (bay : BayId) (genuine : Bool)
  /-- LASER_FAULT (R320). A laser output leaves its window or the module overheats, so it is taken out of service. -/
  | laserFault (bay : BayId)
  /-- FRAME_RECEIVE (R327). A received frame is checked in order and passed on, or discarded and counted. -/
  | frameReceive (sub : SubId) (f : Frame)
  /-- PFC_FRAME_RECEIVE (R330). A received PFC frame holds or releases the honoured priorities. -/
  | pfcFrameReceive (sub : SubId) (f : Frame)
  /-- PFC_PAUSE_EXPIRE (R330). A priority's pause time runs out and the priority is released. -/
  | pfcPauseExpire (sub : SubId) (prio : Fin 8)
  /-- PFC_REPEAT (R331). Half of QUANTA elapses with the buffer at or above XON, so the PFC frame is repeated. -/
  | pfcRepeat (sub : SubId) (prio : Fin 8)
  /-- TX_FRAME_START (R334). A frame starts once THRESH bytes, or the whole frame, are buffered. -/
  | txFrameStart (sub : SubId) (buffered : Nat)
  /-- TX_UNDERRUN (R334). The transmit buffer runs dry, so the frame ends with an inverted FCS and is counted. -/
  | txUnderrun (sub : SubId)
  /-- TX_FRAME_END (R334). A transmit frame boundary is reached, so THRESH is raised after an underrun and pending values apply. -/
  | txFrameEnd (sub : SubId)
  /-- MAC_IDLE_BOUNDARY (R48). With the direction idle, pending MAC values apply within 1 µs of acceptance. -/
  | macIdleBoundary (sub : SubId) (tx : Bool)
  /-- WR_START (R352). A ready work request begins on its queue pair. -/
  | wrStart (qpn : Nat)
  /-- DATA_PACKET_SEND (R345). A paced data packet is sent on the next path that is UP. -/
  | dataPacketSend (qpn : Nat)
  /-- WRITE (R353). An arriving WRITE packet is checked and placed at its target, and the counter advances at message completion. -/
  | xpWrite (sub : SubId)
  /-- READ_REQ (R354). An arriving READ request is checked and answered with READ_RESP packets. -/
  | xpReadReq (sub : SubId)
  /-- READ_RESP (R354). A READ response packet is placed, and the READ completes when every one has arrived. -/
  | xpReadResp (sub : SubId)
  /-- ADD (R353). An arriving ADD packet increments RCTR in MSN order. -/
  | xpAdd (sub : SubId)
  /-- ACK (R355). An arriving ACK marks packets placed, triggers retransmission, updates the rate and completes WRs. -/
  | xpAck (sub : SubId)
  /-- NAK (R358). An arriving NAK puts the queue pair in ERROR with REMOTE_ACCESS. -/
  | xpNak (sub : SubId)
  /-- PROBE (R346). An arriving PROBE is answered at once with a PROBE_REPLY. -/
  | xpProbe (sub : SubId)
  /-- PROBE_REPLY (R346). A probe reply brings a DOWN path UP and gives an RTT sample. -/
  | xpProbeReply (sub : SubId)
  /-- CTRL (R473). An arriving keepalive or fence notice marks the peer heard, or fences the job. -/
  | xpCtrl (sub : SubId)
  /-- ACK_TIMER (R355). 1 µs passes after the first unacknowledged arrival, so an ACK is sent. -/
  | ackTimer (qpn : Nat)
  /-- RTO_EXPIRE (R357). A packet's RTO expires, so it is retransmitted or the queue pair fails. -/
  | rtoExpire (qpn : Nat)
  /-- PATH_PROBE (R346). Every 100 µs a PROBE is sent on each DOWN path, or on UP paths while data is unacknowledged. -/
  | pathProbe (qpn path : Nat)
  /-- CONTEXT_FETCH (R350). A missing QP context arrives in the cache and the buffered packets are processed. -/
  | contextFetch (qpn : Nat)
  /-- TRIGGER_FIRE (R362). A satisfied trigger fires, its WQE becomes ready and it re-arms or is freed. -/
  | triggerFire (trig : Nat)
  /-- KEEPALIVE (R471). No packet has gone to a peer on a rail for 10 ms, so a keepalive is sent. -/
  | keepalive (job peer rail : Nat)
  /-- PEER_LOST (R472). A monitored peer stays unheard for the peer-loss time, so the job is fenced. -/
  | peerLost (job peer : Nat)
  /-- GRANULE_RETIRE (R273). The firmware copies a failing granule to a spare, remaps it, lists the defect, raises the event and releases held accesses. -/
  | granuleRetire (granule : Nat)
  /-- HOST_LINK_LOSS (R312). The host link is lost, so host-driven jobs are fenced, mailboxes disabled, pages reset and the device DETACHED. -/
  | hostLinkLoss
  /-- PERST_ASSERT (R313). PERST_N is asserted, resetting only the host link or causing a warm reset. -/
  | perstAssert
  /-- PERST_RELEASE (R483). PERST_N is released, the straps are sampled if a reset ends, and the link trains. -/
  | perstRelease (slotId : Fin 8) (g1ModeN : Bool)
  /-- HOST_CONFIG_WRITE (R293). The first configuration write after link-up records the host's Requester ID. -/
  | hostConfigWrite (requester : Nat)
  /-- CXL_MEM_ACCESS (R299). A host CXL.mem access reaches device memory, flipping a device-bias page to host bias. -/
  | cxlMemAccess (a : HostAccess)
  /-- BAR4_ACCESS (R294). A host access through the BAR4 window reaches device memory without regard to bias. -/
  | bar4Access (a : HostAccess)
  /-- POWER_ON (R489). 48 V rises to 42 V or above for 10 ms, so the converter and the always-on domain start. -/
  | powerOn (mv10 : Nat)
  /-- POWER_LOSS (R489). 48 V stays below 40 V for more than 50 µs, which is loss of 48 V. -/
  | powerLoss
  /-- OVERVOLTAGE (R489). 48 V stays above 60 V for more than 1 ms, so the converter turns off. -/
  | overvoltage
  /-- IDENT (R486). SMBus block read of the part number and serial. -/
  | smbIdent
  /-- STATUS (R486). SMBus read of the module status byte. -/
  | smbStatus
  /-- VIN (R486). SMBus read of the input voltage. -/
  | smbVin
  /-- PIN (R486). SMBus read of the input power. -/
  | smbPin
  /-- TJ_MAX (R486). SMBus read of the hottest junction temperature. -/
  | smbTjMax
  /-- INLET (R486). SMBus read of the inlet air temperature. -/
  | smbInlet
  /-- ALERT_CAUSE (R486). SMBus read of the alert causes, which then clear. -/
  | smbAlertCause
  /-- ALERT_RESPONSE (R487). An Alert Response Address read is answered and ALERT_N is released. -/
  | smbAlertResponse
  /-- SMB_WRITE (R486). An SMBus write or a reserved command is NACKed. -/
  | smbWrite (cmd : Byte)
  /-- REGISTER_READ (R8). A direct host read of a BAR0 or BAR2 register returns the pending value where one exists, clears its RC fields, and latches the high word of a wide counter when the low word is read. -/
  | registerRead (bar off : Nat)
  /-- HOST_LINK_UP (R293). Host link training completes and the link reaches L0, so MEM_HOST_LINK records width and rate and the device waits for the first Configuration Write to learn the host's Requester ID. -/
  | hostLinkUp (width rate : Nat) (cxl : Bool)
  /-- LANE_RETIRE (R402). A Solder lane whose link-level retries exceed 16 in 1 ms is retired, so its shadow lane takes its traffic, a spare is consumed and SOLDER_DEGRADED is raised. -/
  | laneRetire (bridge : BridgeId) (module : Fin 12) (lane : Fin 68)
  /-- PCS_FAULT_CLEAR (R324). A local or remote fault, or a loss of alignment, that clears within 1 ms raises no event and is counted in RX_PCS_ERR. -/
  | pcsFaultClear (sub : SubId)
  /-- INLET_ABOVE_35_C (R494). The inlet air at the faceplate rises above 35 °C, so ALERT_CAUSE bit 2 is set and ALERT_N is asserted. -/
  | inletAbove35C (temp : Nat)
deriving DecidableEq, Repr

end Sys2Proof
end

