-- ==== Sys2Proof/Decode.lean ====
section
/-! DEFINITION. Words of the table of operations: the table gives no row any bits (commands reach the
block as register accesses, mailbox requests and events), so no word spells a command. -/

namespace Sys2Proof

/-- The command a table word spells: none, for every word. -/
def decodeTableWord (_nbits _w : Nat) : Option Instr := none

end Sys2Proof
end

