-- ==== Sys2Proof/Machine/Bits.lean ====
section
/-! DEFINITION. Bit fields, byte order and small arithmetic the rules use throughout (R6, R122). -/

namespace Sys2Proof.Machine

/-- Bits hi:lo of a number. -/
def bitsOf (x hi lo : Nat) : Nat := (x >>> lo) % 2 ^ (hi + 1 - lo)
/-- Bit i of a number. -/
def bitOf (x i : Nat) : Bool := x.testBit i
/-- Bits hi:lo of a register. -/
def fld {n : Nat} (x : BitVec n) (hi lo : Nat) : Nat := bitsOf x.toNat hi lo
/-- Bit i of a register. -/
def flag {n : Nat} (x : BitVec n) (i : Nat) : Bool := x.getLsbD i
/-- A flag at bit i. -/
def flagAt (b : Bool) (i : Nat) : Nat := if b then 2 ^ i else 0
/-- A value in a field of `w` bits at bit `lo`. -/
def fieldAt (v w lo : Nat) : Nat := (v % 2 ^ w) * 2 ^ lo

/-- Little-endian number of a list of bytes. -/
def leNat : List Byte → Nat
  | [] => 0
  | b :: bs => b.toNat + 256 * leNat bs

/-- The low `n` bytes of a number, little-endian. -/
def natLE : Nat → Nat → List Byte
  | 0, _ => []
  | n + 1, v => BitVec.ofNat 8 v :: natLE n (v / 256)

/-- Bytes lo to lo + n - 1 of a block, as a little-endian number. -/
def leAt (bs : List Byte) (lo n : Nat) : Nat := leNat ((bs.drop lo).take n)

/-- Write bytes into a block at an offset. -/
def putAt (bs : List Byte) (lo : Nat) (v : List Byte) : List Byte :=
  bs.take lo ++ v ++ bs.drop (lo + v.length)

/-- `n` zero bytes. -/
def zeros (n : Nat) : List Byte := List.replicate n 0

/-- Add with saturation at `top`. -/
def satAdd (top x n : Nat) : Nat := min top (x + n)

/-- Division rounding up. -/
def ceilDiv (a b : Nat) : Nat := (a + b - 1) / b

/-- Round up to a multiple. -/
def roundUp (a b : Nat) : Nat := ceilDiv a b * b

/-- The comparison of R141: the low 32 bits of the counter are at or above the threshold, modulo 2^32. -/
def reached (counter threshold : Nat) : Bool :=
  (counter % 2 ^ 32 + 2 ^ 32 - threshold % 2 ^ 32) % 2 ^ 32 < 2 ^ 31

/-- Number of bits that are 1. -/
def popcount (x : Nat) : Nat → Nat
  | 0 => 0
  | n + 1 => (if x.testBit n then 1 else 0) + popcount x n

/-- The numbers below n. -/
def upTo (n : Nat) : List Nat := List.range n

end Sys2Proof.Machine
end

