-- ==== Sys2Proof/Machine/Crc.lean ====
section
/-! DEFINITION. The three algorithms of the check-value unit (R441). -/

namespace Sys2Proof.Machine

/-- One reflected bit step. -/
def crcBitR (poly x : Nat) : Nat := if x.testBit 0 then (x >>> 1) ^^^ poly else x >>> 1
/-- One bit step, most significant bit first, over 64 bits. -/
def crcBitL (x : Nat) : Nat :=
  if x.testBit 63 then ((x <<< 1) % 2 ^ 64) ^^^ 0x42F0E1EBA9EA3693 else (x <<< 1) % 2 ^ 64
/-- n steps of a function. -/
def iter {α : Type} (f : α → α) : Nat → α → α
  | 0, x => x
  | n + 1, x => iter f n (f x)
/-- Reflected polynomials of CRC-32C and CRC-32. -/
def crcPoly (alg : Nat) : Nat := if alg = 1 then 0xEDB88320 else 0x82F63B78
/-- One byte into the running value. -/
def crcByte (alg : Nat) (x : Nat) (b : Byte) : Nat :=
  if alg = 2 then iter crcBitL 8 (x ^^^ (b.toNat <<< 56))
  else iter (crcBitR (crcPoly alg)) 8 (x ^^^ b.toNat)
/-- INIT. -/
def crcInit (alg : Nat) : Nat := if alg = 2 then 0 else 0xFFFFFFFF
/-- The result of a running value: XOR with XOROUT. -/
def crcOut (alg x : Nat) : Nat := if alg = 2 then x else x ^^^ 0xFFFFFFFF
/-- A run over bytes. -/
def crcRun (alg x : Nat) (bs : List Byte) : Nat := bs.foldl (crcByte alg) x
/-- CRC-32C of bytes. -/
def crc32c (bs : List Byte) : Nat := crcOut 0 (crcRun 0 (crcInit 0) bs)
/-- CRC-64 of bytes. -/
def crc64 (bs : List Byte) : Nat := crcOut 2 (crcRun 2 (crcInit 2) bs)

end Sys2Proof.Machine
end

