-- ==== Sys2Proof/Config.lean ====
section
/-! DEFINITION. What an implementation fixes and the manual leaves open: free values without a body,
which no proof can see. Each is named in the assumption log. -/

namespace Sys2Proof.Config

/-- A free number for the n-th value the manual leaves undefined in a run (log entry 4). -/
opaque freeNat : Nat → Nat
/-- A free byte of a range whose contents the manual calls undefined: generation and address (log 5). -/
opaque freeByte : Nat → Nat → Byte
/-- A free register value, for fields whose reset the manual shows as undefined (log 4). -/
opaque freeWord : Nat → Word

/-- SHAKE256 of the bytes, with the given output length (RFC/FIPS function the manual names; log 6). -/
opaque shake256 : List Byte → Nat → List Byte
/-- Ed448 verification of a signature over a digest under a public key (R412; log 6). -/
opaque ed448Verify : List Byte → List Byte → List Byte → Bool
/-- Ed448 signature by the identity key over a digest (R412; log 6). -/
opaque ed448Sign : List Byte → List Byte
/-- X448 public value of the n-th ephemeral private key (R424; log 6). -/
opaque x448Public : Nat → List Byte
/-- X448 shared secret of the n-th ephemeral private key and a public value (R425; log 6). -/
opaque x448Shared : Nat → List Byte → List Byte
/-- The Tamorist public key of a key id, held in Electrum's read-only memory (R412; log 6). -/
opaque vendorKey : Nat → List Byte

/-- Module serial number, 16 ASCII characters (R411; log 7). -/
opaque serial : Nat → Byte
/-- The 256-byte identity certificate, byte by byte (R411; log 7). -/
opaque idCert : Nat → Byte
/-- Factory-assigned station address of a sub-port (R322, MAC_ADDR; log 7). -/
opaque factoryMac : Nat → BitVec 48

/-- FP32 functions the manual bounds within 2 ULP without fixing the bits (R76, R120, R184): the
function code and the operand (log 8). -/
opaque approx : Nat → Word → Word
/-- How far a reciprocal square root lies from the correctly rounded one, 0 to 2 for -1, 0, +1 ULP
(R120, R184; log 8). -/
opaque rsqrtErr : Word → Fin 3
/-- Softmax of an entry given the row (R76: within 2 ULP; log 8). -/
opaque softmax : List Word → Nat → Word
/-- An element of a product of a matrix step, of which the manual fixes only an error bound (R203):
plane values and element index (log 9). -/
opaque matProd : List Word → List Word → Nat → Word

/-- Learned power coefficient (R378): predicted power in mW of one core of a phase, by 32 * interval +
group, operating point, duty and phase (log entry 10). -/
opaque groupPower : Nat → Nat → Nat → Nat → Nat
/-- Predicted power in mW of a die's memory or link traffic: interval, control (die for memory, 4 + die for
links) and duty in eighths (R378; log 10). -/
opaque trafficPower : Nat → Nat → Nat → Nat
/-- Measured use of a die's memory or links: interval and control (R379; log 10). -/
opaque trafficUse : Nat → Nat → Nat
/-- Predicted power in mW of everything that no control of a domain acts on: interval and domain (R378,
R389; log 10). -/
opaque basePower : Nat → Nat → Nat

/-- The bank and row that a channel address of R268 names, internal to the device (R274; log 11). -/
opaque rowOf : Nat → Nat → Nat × Nat

end Sys2Proof.Config
end

