-- ==== Sys2Proof/Machine/Tab.lean ====
section
/-! DEFINITION. Sparse tables and byte memories as plain data. A table lists the entries that differ
from its default; a memory lists bytes in one canonical form (log entries 2 and 5). -/

namespace Sys2Proof.Machine

/-- A table by number: entries that were set; every other number holds the table's default. -/
abbrev Tab (α : Type) := List (Nat × α)

/-- The entry of number `i`, or the default. -/
def tabGet {α : Type} (d : α) : Tab α → Nat → α
  | [], _ => d
  | (k, v) :: t, i => if k = i then v else tabGet d t i

/-- The entry of number `i`, if it was set. -/
def tabFind {α : Type} : Tab α → Nat → Option α
  | [], _ => none
  | (k, v) :: t, i => if k = i then some v else tabFind t i

/-- Set the entry of number `i`, keeping the order of numbers. -/
def tabSet {α : Type} : Tab α → Nat → α → Tab α
  | [], i, v => [(i, v)]
  | (k, w) :: t, i, v =>
    if i < k then (i, v) :: (k, w) :: t
    else if k = i then (i, v) :: t
    else (k, w) :: tabSet t i v

/-- Remove every entry of number `i`: it holds the default again. -/
def tabDel {α : Type} (t : Tab α) (i : Nat) : Tab α := t.filter (fun e => e.1 ≠ i)

/-- Change every entry that was set. -/
def tabMap {α : Type} (f : Nat → α → α) (t : Tab α) : Tab α := t.map (fun e => (e.1, f e.1 e.2))

/-- The lowest number below `n` that was not set. -/
def tabFree {α : Type} (t : Tab α) (n : Nat) : Option Nat :=
  (List.range n).find? (fun i => (tabFind t i).isNone)

/-- An address range whose contents the manual calls undefined since generation `gen`. -/
structure Undef where
  base : Nat
  len : Nat
  gen : Nat
deriving DecidableEq, Repr

/-- A byte memory: listed bytes, and the ranges whose unlisted bytes are free values (log 5). -/
structure Mem where
  cells : List Host.Cell := []
  undef : List Undef := []
deriving DecidableEq, Repr

/-- The newest undefined range that covers an address. -/
def Mem.undefAt (m : Mem) (a : Nat) : Option Undef :=
  m.undef.find? (fun u => u.base ≤ a && a < u.base + u.len)

/-- What an unlisted address reads as: 0x00, or a free byte of an undefined range (log 5). -/
def Mem.unlisted (m : Mem) (a : Nat) : Byte :=
  match m.undefAt a with
  | none => 0
  | some u => Config.freeByte u.gen a

/-- The first listed byte of an address. -/
def cellsGet : List Host.Cell → Nat → Option Byte
  | [], _ => none
  | (k, b) :: t, a => if k = a then some b else cellsGet t a

/-- Read one byte. -/
def Mem.read (m : Mem) (a : Nat) : Byte := (cellsGet m.cells a).getD (m.unlisted a)

/-- List a byte at its place in the rising order of addresses. -/
def cellsSet : List Host.Cell → Nat → Byte → List Host.Cell
  | [], a, b => [(a, b)]
  | (k, c) :: t, a, b =>
    if a < k then (a, b) :: (k, c) :: t
    else if k = a then (a, b) :: t
    else (k, c) :: cellsSet t a b

/-- Write one byte; a byte equal to what its unlisted address is known to read as is not listed. -/
def Mem.write (m : Mem) (a : Nat) (b : Byte) : Mem :=
  match m.undefAt a with
  | none =>
    if b = 0 then { m with cells := m.cells.filter (fun c => c.1 ≠ a) }
    else { m with cells := cellsSet m.cells a b }
  | some _ => { m with cells := cellsSet m.cells a b }

/-- Read `n` bytes from address `a` upwards. -/
def Mem.readN (m : Mem) (a : Nat) : Nat → List Byte
  | 0 => []
  | n + 1 => m.read a :: m.readN (a + 1) n

/-- Write bytes from address `a` upwards. -/
def Mem.writeL (m : Mem) (a : Nat) : List Byte → Mem
  | [] => m
  | b :: bs => (m.write a b).writeL (a + 1) bs

/-- Make the contents of a range undefined: nothing of it stays listed, and its bytes are free. -/
def Mem.scramble (m : Mem) (base len gen : Nat) : Mem :=
  { cells := m.cells.filter (fun c => !(base ≤ c.1 && c.1 < base + len)), undef := { base := base, len := len, gen := gen } :: m.undef }

/-- Clear a range to zero: the range is defined again and every byte of it reads 0x00. -/
def Mem.clear (m : Mem) (base len : Nat) : Mem :=
  { cells := m.cells.filter (fun c => !(base ≤ c.1 && c.1 < base + len)), undef := m.undef.flatMap (fun u => [{ u with len := min u.len (base - u.base) }, { u with base := max u.base (base + len), len := u.base + u.len - max u.base (base + len) }] |>.filter (fun v => v.len ≠ 0)) }

/-- Addresses strictly rising. -/
def cellsRising : List Host.Cell → Bool
  | [] => true
  | [_] => true
  | (a, _) :: (b, c) :: t => a < b && cellsRising ((b, c) :: t)

/-- The canonical form: addresses strictly rising, and no listed byte equal to the 0x00 that its
address would read as unlisted (a free byte is not known, so its range lists what was written). -/
def Mem.wf (m : Mem) : Bool :=
  cellsRising m.cells && m.cells.all (fun c => (m.undefAt c.1).isSome || c.2 ≠ 0)

end Sys2Proof.Machine
end

