-- ==== Sys2Proof/Machine/State.lean ====
section
/-! DEFINITION. The state of the device as plain data, the reasons a step can stop, and the state right
after power-on. Numbers are Nat where the manual counts or names things, bit vectors where software sees
a word. Every default below is the reset value; log entry 12 names those the manual does not give. -/

namespace Sys2Proof.Machine

/-- STATE of a mailbox (MB_STATUS, R29, R30). -/
inductive MbSt where
  | disabled | idle | busy | error
deriving DecidableEq, Repr

/-- A command that has been accepted and whose response is still due (R31, R39). -/
structure Waiting where
  op : Nat
  tag : Nat
  noint : Bool
  /-- what the command waits for: a job, service, region, QP or group mask -/
  what : Nat := 0
  arg : Nat := 0
deriving DecidableEq, Repr

/-- One mailbox (R25 to R33). Ring addresses, MB_CTRL and MB_RSP_CONS are registers in
`State.cfg`. -/
structure Mailbox where
  st : MbSt := .disabled
  /-- ERR_CAUSE -/
  err : Nat := 0
  cmdCons : Nat := 0
  /-- producer index of the last doorbell -/
  prod : Nat := 0
  rspProd : Nat := 0
  /-- finished response that a full ring holds back (R32), with its NOINT flag -/
  held : Option (List Byte × Bool) := none
  exec : Option Waiting := none
  /-- partition of mailboxes 1 to 55, or of the program bound to 56 to 63 -/
  part : Option Nat := none
  /-- ENABLE was cleared while a command executes (R29) -/
  closing : Bool := false
deriving DecidableEq, Repr

/-- The bring-up window and what bring-up found (R447 to R462). -/
structure Bringup where
  /-- RESULT: 0 IDLE, 1 RUNNING, 2 DONE, 3 DEGRADED, 4 FAILED -/
  result : Nat := 0
  step : Nat := 0
  next : Nat := 1
  progress : Nat := 0
  cause : Nat := 0
  detail : Nat := 0
  /-- outcome of the running step, shown when it ends: RESULT, CAUSE, DETAIL (R449) -/
  outcome : Nat × Nat × Nat := (2, 0, 0)
  startTick : Nat := 0
  slotId : Nat := 0
  g1mode : Bool := false
  session : Nat := 0
  startSeq : Nat := 0
  degraded : Nat := 0
  groupsOff : Nat := 0
  tripDie : Bool := false
  tripMem : Bool := false
  warm : Bool := false
  tripSource : Nat := 0
  tripTemp : Nat := 0
  copyRepaired : Bool := false
  newEntries : Nat := 0
deriving DecidableEq, Repr

/-- Power, resets and what has been switched on (R19, R385, R482, R489). -/
structure Power where
  v48 : Bool := true
  mv10 : Nat := 4800
  perst : Bool := true
  pwrbrk : Bool := false
  /-- tick at which PWRBRK_N was asserted (R485) -/
  brkTick : Nat := 0
  /-- a trip has removed power until 48 V is cycled (R384) -/
  tripped : Bool := false
  /-- THERM_N driven low -/
  therm : Bool := false
  hub : Bool := false
  /-- START_CP has completed: firmware, mailboxes, Constantan and Invar run -/
  cp : Bool := false
  /-- domains: 32 PD_Gdg, 4 PD_FABd, 4 PD_MPHYd, 8 PD_OPTp, one bit each (R385) -/
  pdG : Nat := 0
  pdFab : Nat := 0
  pdPhy : Nat := 0
  pdOpt : Nat := 0
  /-- ALERT_N asserted -/
  alert : Bool := false
  alertCause : Nat := 0
  inlet : Nat := 0
  /-- the present assertion of PERST_N resets only the link (R313) -/
  linkOnly : Bool := false
  /-- input above 60 V keeps the converter off (R489) -/
  overVolt : Bool := false
deriving DecidableEq, Repr

/-- A defect-list entry: 16 bytes (R459). -/
abbrev Defect := List Byte

/-- One stored copy of the defect list (R459): its generation, its entries, and whether its CRC-64 holds. -/
structure DlCopy where
  gen : Nat := 0
  entries : List Defect := []
deriving DecidableEq, Repr

/-- Defect list and overflow (R459). -/
structure Defects where
  /-- the entries in use, in the order in which they were added -/
  list : List Defect := []
  /-- the two stored copies -/
  copy0 : DlCopy := {}
  copy1 : DlCopy := { gen := 1 }
  overflow : List Defect := []
  /-- SEQ of the last accepted removal (R464) -/
  removeSeq : Nat := 0
  /-- lanes and rows found this start that no table holds, still in effect (R459) -/
  loose : List Defect := []
deriving DecidableEq, Repr

/-- An enrolled operator key (R415). -/
structure OpKey where
  id : Nat
  usage : Nat
  partmask : Nat
  pub : List Byte
deriving DecidableEq, Repr

/-- A measurement entry (R419). -/
structure Measure where
  kind : Nat
  owner : Nat
  keyId : Nat
  inst : Nat
  digest : List Byte
deriving DecidableEq, Repr

/-- An event queue (R431, R432); PROD counts modulo 2^(LOG2 + 1); CONS is the
register SEC_EVQ. -/
structure EvQueue where
  set : Bool := false
  base : Nat := 0
  log2 : Nat := 4
  vec : Nat := 0
  intEn : Bool := false
  prod : Nat := 0
  lost : Bool := false
  seq : Nat := 0
deriving DecidableEq, Repr

/-- A partition (R427 to R430). Weights, slice and masks also stand in its SEC_ registers. -/
structure Partn where
  isolated : Bool := false
  groups : Nat := 0
  setFirst : Nat := 0
  setCount : Nat := 1
  slice : Nat := 0
  ports : List Nat := []
  bridges : List Nat := []
  /-- 0 SPREAD, 1 DIE (R267) -/
  mode : Nat := 0
  privSets : Nat := 0
  /-- PW_PREF_SET and PW_PREFn are configuration registers -/
  extThrottle : Bool := false
  /-- an uncounted event since the window began (R388) -/
  extNow : Bool := false
  /-- hottest junction per die as the tenant sees it, refreshed each second (R388) -/
  tjDie : List Nat := []
  keyGen : Nat := 0
deriving DecidableEq, Repr

/-- Electrum (R411 to R430). -/
structure Electrum where
  parts : Tab Partn := []
  evqs : Tab EvQueue := []
  keys : List OpKey := []
  enrolSeq : Nat := 0
  identityOk : Bool := false
  measures : List Measure := []
  /-- generations of the device memory key, partition keys and nonce numbers drawn so far -/
  keyGen : Nat := 0
  ephemeral : Nat := 0
deriving DecidableEq, Repr

/-- A retained region (R275 to R277). -/
structure Region where
  base : Nat
  len : Nat
  part : Option Nat
  sealed : Option Nat := none
  verified : Bool := false
  damaged : Bool := false
  orphan : Bool := false
  /-- snapshots writing to it -/
  writers : Nat := 0
  /-- set numbers, MODE and q of its range, kept across a warm reset (R277) -/
  sets : Nat := 0
  mode : Nat := 0
  privSets : Nat := 0
deriving DecidableEq, Repr

/-- A weight-store slot (R279, R280). -/
structure WsSlot where
  /-- 0 FREE, 1 INSTALLING, 2 READY, 3 DAMAGED -/
  st : Nat := 0
  baseId : Nat := 0
  extents : Nat := 0
  /-- aperture offset in GiB -/
  offset : Nat := 0
  len : Nat := 0
  granted : Nat := 0
  keyId : Nat := 0
  digest : List Byte := []
deriving DecidableEq, Repr

/-- A running installation (R281): slot, source address in R40 form, record address word. -/
structure Install where
  slot : Nat
  src : Nat
  cpl : Nat
  len : Nat
deriving DecidableEq, Repr

/-- A running WS_LOAD (R283). -/
structure WsLoad where
  part : Option Nat
  slot : Nat
  first : Nat
  count : Nat
  dest : Nat
  cpl : Nat
deriving DecidableEq, Repr

/-- External memory and the weight store (R262 to R287). -/
structure MemSys where
  /-- channels working: bit c for channel c -/
  chanOk : Nat := 0
  /-- channels excluded this start -/
  chanOff : Nat := 0
  /-- channels that worked before the last warm reset -/
  chanPrev : Nat := 0
  /-- retired DPA granules: granule number to (set, spare number) (R273) -/
  retired : Tab (Nat × Nat) := []
  /-- granules that a retirement holds, with the failing address (R273) -/
  held : List (Nat × Nat) := []
  /-- 64 B lines that read uncorrectable, by line number -/
  badLines : List Nat := []
  spareNext : Tab Nat := []
  regions : Tab Region := []
  replay : Nat := 0
  ue : Nat := 0
  hole : Nat := 0
  ueAddr : Nat := 0
  ueInfo : Nat := 0
  /-- generations of undefined contents -/
  gen : Nat := 0
  trained : Bool := false
deriving DecidableEq, Repr

/-- The weight store (R278 to R286). -/
structure Store where
  slots : Tab WsSlot := []
  bytes : Mem := {}
  badLines : List Nat := []
  wear : Nat := 0
  install : Option Install := none
  loads : Tab WsLoad := []
  nextLoad : Nat := 0
deriving DecidableEq, Repr

/-- A HOST_DMA command in progress (R307). -/
structure Dma where
  toHost : Bool
  crc : Bool
  sig : Nat
  inc : Nat
  host : Nat
  dev : Nat
  len : Nat
  cpl : Nat
  part : Option Nat
deriving DecidableEq, Repr

/-- The host link, the session and host DMA (R288 to R316). -/
structure HostLink where
  up : Bool := false
  cxl : Bool := false
  width : Nat := 0
  rate : Nat := 0
  detached : Bool := false
  /-- Requester ID of the first Configuration Write after link-up (R293) -/
  requester : Option Nat := none
  /-- BAR4 size as log2, 30 to 36 (R291) -/
  bar4Log2 : Nat := 36
  /-- pages in HOST bias (R297) -/
  bias : Tab Bool := []
  auto : Nat := 0
  denied : Nat := 0
  afault : Nat := 0
  discard : Nat := 0
  cred : Option (List Byte) := none
  /-- ticks of consecutive failed ATTACHes (R315) -/
  fails : List Nat := []
  lossTick : Nat := 0
  dma : Tab Dma := []
  nextDma : Nat := 0
  /-- MSI-X messages sent, newest first; those due while the link is down are lost (R312) -/
  msix : List Nat := []
  /-- MSI-X table words as the host set them (R292) -/
  msixTab : Tab Word := []
deriving DecidableEq, Repr

/-- A Pewter program (R308, R309). -/
structure Pewter where
  part : Nat
  base : Nat
  len : Nat
  /-- PEWTER_STOP waits for its jobs and services -/
  stopping : Bool := false
deriving DecidableEq, Repr

/-- A weight slot of an array (R83, R84). -/
structure Slot where
  valid : Bool := false
  addr : Nat := 0
  version : Nat := 0
  fmt : Nat := 0
  shape : Nat := 0
  rows : Nat := 0
  cols : Nat := 0
  /-- dataflow-independent contents: one list of element codes per loaded row, and scale bytes per row block -/
  elems : List (List Nat) := []
  scales : List (List Nat) := []
  /-- last use, for the least-recently-used rule (R91); 0 = never -/
  used : Nat := 0
deriving DecidableEq, Repr

/-- Whose task it is. -/
inductive Owner where
  | job (j : Nat)
  | svc (k : Nat)
deriving DecidableEq, Repr

/-- A task in a walker, a deque or on a core (R122 to R128): its eight words, with VERSION bound at
release (R157). -/
structure Task where
  owner : Owner
  /-- the descriptor's words 0 to 7 -/
  w : List Nat
  /-- bound weight version, 0 for frozen -/
  ver : Nat := 0
  /-- layer whose alternate buffer the addresses move to, as (base, size, shift) (R157) -/
  move : Option (Nat × Nat × Int) := none
  /-- internal Bronze task: layer and section (R187) -/
  sec : Option (Nat × Nat) := none
deriving DecidableEq, Repr

/-- How a task on a core has ended: TSTATUS, NUMSTAT0, NUMSTAT1 (R144). -/
structure Result where
  status : Nat := 0
  num0 : Nat := 0
  num1 : Nat := 0
deriving DecidableEq, Repr

/-- A task that runs on a core. -/
structure Run where
  task : Task
  start : Nat
  done : Option Result := none
deriving DecidableEq, Repr

/-- What a task's work counts on its way to NUMSTAT0 and NUMSTAT1 (R79). -/
structure NumStat where
  satSeen : Bool := false
  nonfinSeen : Bool := false
  nanScale : Bool := false
  sat : Nat := 0
  qsat : Nat := 0
  nonfin : Nat := 0
deriving DecidableEq, Repr

/-- The vector unit of a core (R119): registers not written since the task's start hold free values of
generation `gen`. -/
structure VecCtx where
  z : Tab Word := []
  mask : Tab Bool := []
  gen : Nat := 0
  iter : Nat := 0
  /-- a0 to a15: address word and stride -/
  a : List (Nat × Int) := []
  n : NumStat := {}
deriving DecidableEq, Repr

/-- The section that a core's internal Bronze task works on (R186): block registers hold lists of
words; unwritten ones hold free values of generation `gen`. -/
structure UpdCtx where
  /-- the section has started: its slots are loaded -/
  on : Bool := false
  v : Tab (List Word) := []
  p : List Word := []
  gen : Nat := 0
  block : Nat := 0
  /-- an element instruction of the current sweep has run -/
  elems : Bool := false
  /-- running sum of the reduction of the current sweep (R190) -/
  acc : Word := 0
  nonfin : Nat := 0
  fallbacks : Nat := 0
  secflags : Nat := 0
  lastFb : Bool := false
deriving DecidableEq, Repr

/-- One logical core (R83, R115, R119, R135). Accumulators and local stores stand in `State`. -/
structure CoreS where
  deque : List Task := []
  run : Option Run := none
  slotA : Slot := {}
  slotB : Slot := {}
  /-- passes counted, for the least-recently-used rule -/
  uses : Nat := 0
  vec : VecCtx := {}
  upd : UpdCtx := {}
  /-- service that reserves the core (R239) -/
  svc : Option Nat := none
deriving DecidableEq, Repr

/-- Where a job stands (R469, R497). -/
inductive JobSt where
  | loaded | running | stopping | stopped | fenced
deriving DecidableEq, Repr

/-- A trainable layer on this device (R156 to R164, R193, R198). -/
structure Layer where
  id : Nat
  single : Bool
  owner : Bool
  ctr : Nat
  buf0 : Nat
  buf1 : Nat
  size : Nat
  version : Nat := 1
  /-- a placed and uncommitted version; for a skipped or equal one the commit moves only COMMIT_CTR -/
  placed : Option Nat := none
  skipCommit : Bool := false
  ref : Nat := 0
  /-- commits since JOB_START: E_L -/
  commits : Nat := 0
  stalled : Bool := false
  skippedLast : Bool := false
  skips : Nat := 0
  waitedRef : Nat := 0
  stalls : Nat := 0
  /-- SEQ consumed by the last update (R198) -/
  seq : Nat := 0
  /-- gather requests held at this device as source: sender, step, collective id (R216) -/
  requests : List (Nat × Nat × Nat) := []
  /-- F tasks of the step that name the layer and are not complete (R218) -/
  fLeft : Nat := 0
  /-- skip decision of LAYER mode (R166) -/
  decision : Option Bool := none
  /-- the version before the last commit; a commit has wrapped the numbering since the last boundary (R134) -/
  prev : Nat := 0
  wrapped : Bool := false
deriving DecidableEq, Repr

/-- A gather-table entry and its record (R215 to R220). -/
structure Gather where
  mode : Nat
  source : Nat
  version : Nat := 0
  crc : Nat := 0
  gathers : Nat := 0
  regathers : Nat := 0
  dropped : Bool := false
  heldFor : Bool := false
  waits : Nat := 0
deriving DecidableEq, Repr

/-- A tensor of the scale table (R171). -/
structure Tensor where
  id : Nat
  fmt : Nat
  amax : Nat
  history : Nat
  /-- its patch entries, read by JOB_SCALE_TABLE -/
  list : List Nat
deriving DecidableEq, Repr

/-- JOB_MAP (R235). -/
structure JobMap where
  n : Nat
  self : Nat
  stages : Nat
  layers : Nat
  slots : Nat
  stage : Nat
  slotBytes : Nat
  node : List Nat
  hollow : List Nat
  /-- layer, owner, master-state bytes -/
  own : List (Nat × Nat × Nat)
deriving DecidableEq, Repr

/-- A pending key share (R424). -/
structure Share where
  self : Nat
  n : Nat
  epoch : Nat
  nonce : List Byte
  eph : Nat
  bytes : List Byte
deriving DecidableEq, Repr

/-- JOB_FAULT_INFO (R477). -/
structure FaultInfo where
  cause : Nat := 0
  origin : Nat := 0
  originCause : Nat := 0
  epoch : Nat := 0
  step : Nat := 0
  tick : Nat := 0
  more : Nat := 0
  tstatus : Nat := 0
  core : Nat := 0
deriving DecidableEq, Repr

/-- A member of a collective as its table gives it (R226). -/
structure Member where
  idx : Nat
  qpn : Nat
  rkey : Nat
  addr : Nat
deriving DecidableEq, Repr

/-- A collective in progress (R225 to R233). -/
structure Coll where
  /-- the descriptor's words 0 to 7 -/
  w : List Nat
  members : List Member
  /-- length table: parts, or what this member sends to each (R227) -/
  lens : List Nat := []
  /-- credits may be granted (R161, R162, R220, R229) -/
  granted : Bool := false
  /-- this member has sent its own data, or its request -/
  sent : Bool := false
  /-- bytes placed or combined per member position, and the positions whose last chunk has come -/
  got : Tab Nat := []
  lasts : List Nat := []
  /-- counts received for ALL_TO_ALL, by member position -/
  counts : Tab Nat := []
  /-- ALL_TO_ALL data whose place is not known yet: position, chunk number, bytes (R227) -/
  early : List (Nat × Nat × List Byte) := []
  /-- running FP32 sums of a reduction -/
  sum : List Word := []
  /-- version carried by a broadcast or a gather, and its SKIP -/
  version : Nat := 0
  skip : Bool := false
  /-- the step in which the request was sent -/
  step : Nat := 0
deriving DecidableEq, Repr

/-- An update in progress on its owner (R186 to R201). -/
structure Upd where
  core : Nat
  record : Nat
  prog : Nat
  sections : Nat
  /-- sections not yet pushed, and internal tasks not yet complete -/
  toPush : Nat
  outstanding : Nat
  t : Nat
  stalled : Bool := false
  fallbacks : Nat := 0
  nonfin : Nat := 0
  lastFb : Bool := false
  /-- SECFLAGS per section to write at the end -/
  secflags : Tab Nat := []
  /-- the UPD task whose completion is due -/
  task : Task
  startTick : Nat := 0
  pStep : Word := 0
deriving DecidableEq, Repr

/-- A snapshot in progress (R175, R176). -/
structure Snap where
  region : Nat
  shipHost : Bool
  shipRemote : Bool
  master : Bool
  step : Nat
  host : Nat
  qpn : Nat
  rkey : Nat
  cpl : Nat
  /-- the boundary that ends STEP has passed -/
  armed : Bool := false
  /-- the copy has been made; header CRC and layer count -/
  copied : Bool := false
  crc : Nat := 0
  count : Nat := 0
  copyTick : Nat := 0
  /-- how the copy ended: OK or VERIFY_FAILED; the work request that ships it -/
  status : Nat := 0
  wr : Option Nat := none
deriving DecidableEq, Repr

/-- The graph walker of one die for one job (R132). -/
structure Walker where
  next : Nat := 0
  fetched : List Task := []
  /-- stolen tasks returned to a full deque (R139) -/
  returned : List Task := []
  /-- released tasks that a full deque holds, in list order (R132) -/
  held : List Task := []
deriving DecidableEq, Repr

/-- Range control of a job (R165 to R172) and its step size (R195 to R199). -/
structure Range where
  e : Nat := 0
  clean : Nat := 0
  skips : Nat := 0
  /-- 0 normal, 1 start-up, 2 test, 3 recovery -/
  phase : Nat := 0
  ovfLast : Bool := false
  ovfNow : Bool := false
  /-- flags received for steps that have not begun here, by step (R165) -/
  flags : Tab Bool := []
  /-- W tasks of the step that are not complete (R166) -/
  wLeft : Nat := 0
  flagFinal : Bool := false
  /-- UPD_STEP_SEQ -/
  seq : Nat := 0
  pageSeq : Option Nat := none
  torn : Nat := 0
  ckptLive : Nat := 0
  ckptPeak : Nat := 0
  /-- segments counted in CKPT_LIVE, with the bytes counted; B tasks completed per segment (R155) -/
  segF : Tab Nat := []
  segB : Tab Nat := []
deriving DecidableEq, Repr

/-- A loaded job (R131 to R134, R146, R310). -/
structure Job where
  st : JobSt := .loaded
  part : Nat
  mailbox : Nat
  groups : Nat
  image : Nat
  taskCount : Nat
  /-- list offset and count per die -/
  lists : List (Nat × Nat)
  ctrBase : Nat
  ctrCount : Nat
  /-- STEP_INC of each counter (R131) -/
  incs : List Nat
  /-- INIT of each counter, and the HOME cores of its tasks (R131, R239) -/
  inits : List Nat := []
  homes : List Nat := []
  /-- the layer state record of each layer that an UPD task names (R179) -/
  records : Tab Nat := []
  /-- B and F tasks of a step by VERSION, W tasks, B tasks by segment (R155, R158, R166, R218) -/
  bOf : Tab Nat := []
  fOf : Tab Nat := []
  wCount : Nat := 0
  segB : Tab Nat := []
  cpl : Nat
  cplCount : Nat
  stallMs : Nat
  step : Nat := 0
  done : Nat := 0
  walkers : Tab Walker := []
  layers : List Layer := []
  scaleWord : Option Nat := none
  tensors : List Tensor := []
  rsegs : Tab Nat := []
  gathers : Tab Gather := []
  map : Option JobMap := none
  range : Range := {}
  epoch : Nat := 0
  share : Option Share := none
  keys : Tab (List Byte) := []
  fault : Option FaultInfo := none
  colls : Tab Coll := []
  upds : Tab Upd := []
  snaps : List Snap := []
  /-- tick of the last change of one of its counters or tasks (R133) -/
  lastMove : Nat := 0
  startTick : Nat := 0
  /-- peer member to the tick it was last heard; (member, rail) to the tick last sent (R471, R472) -/
  heard : Tab Nat := []
  sentTick : Tab Nat := []
  retx : Nat := 0
  nakSent : Nat := 0
  nakRecv : Nat := 0
  authFail : Nat := 0
  epochDrop : Nat := 0
  /-- epochs fenced so far whose packets are dropped (R366) -/
  fencedEpochs : List Nat := []
deriving DecidableEq, Repr

/-- Phase of the period machine (R248). -/
inductive SvcPh where
  | idle | clean | input | run | writeback
deriving DecidableEq, Repr

/-- STATE of a service (SVC_STATE). -/
inductive SvcSt where
  | proving | registered | armed | suspended
deriving DecidableEq, Repr

/-- A loop service (R236 to R261). -/
structure Svc where
  st : SvcSt := .proving
  ph : SvcPh := .idle
  part : Nat
  mailbox : Nat
  image : Nat
  wcCycles : Nat
  gopp : Nat
  doorbellMode : Bool
  inSrc : Nat
  period : Nat
  deadline : Nat
  inInc : Nat
  inAddr : Nat
  outAddr : Nat
  state0 : Nat
  state1 : Nat
  ring : Nat
  ringLog2 : Nat
  blocks : List (Nat × Nat)
  cores : List Nat
  ctrBase : Nat
  counters : Nat
  inBytes : Nat
  outBytes : Nat
  stateBytes : Nat
  stage : Nat
  waTicks : Nat
  wregion : Nat
  pubRegion : Option Nat := none
  pubVerify : Option Nat := none
  committed : Bool := false
  /-- T0, period index to start next, start of the current or last period, whether one has started -/
  t0 : Nat := 0
  k : Nat := 0
  start : Nat := 0
  started : Bool := false
  cleanDone : Bool := false
  inputTick : Option Nat := none
  tasksLeft : Nat := 0
  /-- step indices of the period not yet in a deque (R237) -/
  todo : List Nat := []
  newWeights : Bool := false
  num : Nat := 0
  lapse : Bool := false
  /-- doorbell held until the previous start plus P (R247) -/
  heldDb : Bool := false
  /-- most recent started periods, true for a counted miss (R252) -/
  window : List Bool := []
  doneCount : Nat := 0
  late : Nat := 0
  overrun : Nat := 0
  taskFault : Nat := 0
  badDb : Nat := 0
  earlyDb : Nat := 0
  ringLost : Nat := 0
  prod : Nat := 0
  gap : Bool := false
  missSince : Nat := 0
  missEvent : Option Nat := none
  /-- cycles measured and proving runs made and discarded (R243) -/
  measured : Nat := 0
  runs : Nat := 0
  discarded : Nat := 0
  /-- SVC_RESUME repeats the proving run (R252) -/
  resuming : Bool := false
  /-- a SVC_DEREGISTER waits for the running period (R254) -/
  leaving : Bool := false
deriving DecidableEq, Repr

/-- State of a queue pair (R347). -/
inductive QpSt where
  | init | rts | error
deriving DecidableEq, Repr

/-- A packet a QP has sent and not yet seen acknowledged (R355 to R357). -/
structure Unacked where
  pkt : Packet
  path : Nat
  sentTick : Nat
  rto : Nat
  tries : Nat := 0
  /-- it belongs to the WR with this number -/
  wr : Nat
deriving DecidableEq, Repr

/-- A work request that has become ready (R351, R352): its eight words. -/
structure Wr where
  num : Nat
  w : List Nat
  started : Bool := false
  /-- packets not yet handed to a path, and packets not yet acknowledged -/
  toSend : List Packet := []
  outstanding : Nat := 0
  /-- READ: bytes still missing, first packet index not yet placed -/
  readLeft : Nat := 0
  readGot : List Nat := []
  readTick : Nat := 0
  readTries : Nat := 0
  msn : Nat := 0
  /-- it came through the send queue -/
  ring : Bool := false
  /-- a collective message: its bytes, the collective it belongs to, the layer buffer (layer, 0 or 1) it reads -/
  body : Option (List Byte) := none
  coll : Option Nat := none
  reads : Option (Nat × Nat) := none
deriving DecidableEq, Repr

/-- An incoming message: MSN, first PSN, packets, placed count, counter and amount (R353). -/
structure InMsg where
  msn : Nat
  psn0 : Nat
  pkts : Nat
  ctr : Nat
  inc : Nat
  /-- the packet that completed a message which still waits for its predecessor: not acknowledged yet -/
  last : Option Nat := none
deriving DecidableEq, Repr

/-- A queue pair and its context (R345 to R359). -/
structure Qp where
  st : QpSt := .init
  cause : Nat := 0
  job : Nat
  part : Nat
  peer : Nat
  cls : Nat
  pin : Bool
  npath : Nat
  mask : Nat
  sqBase : Nat
  sqLog2 : Nat
  peerQpn : Nat := 0
  epoch : Nat
  addrs : List (List Byte) := []
  key : Option (List Byte) := none
  sqProd : Nat := 0
  sqCons : Nat := 0
  wrs : List Wr := []
  wrNum : Nat := 0
  txc : Nat := 0
  psn : Nat := 0
  msn : Nat := 0
  unacked : List Unacked := []
  lastPath : Nat := 0
  /-- paths DOWN, and paths on which the last packet reached its RTO -/
  down : List Nat := []
  strikes : List Nat := []
  /-- receiver: cumulative PSN, placed PSNs above it, message table, next MSN to credit -/
  cum : Nat := 0
  placed : List Nat := []
  msgs : List InMsg := []
  rmsn : Nat := 0
  newCnt : Nat := 0
  ece : Nat := 0
  echo : Nat := 0
  ackTick : Option Nat := none
  /-- congestion control (R359): rate in Mb/s, alpha in 1/2^16, SRTT and RTTVAR in ns -/
  rate : Nat := 0
  alpha : Nat := 65536
  srtt : Option Nat := none
  rttvar : Nat := 0
  /-- RTT samples of the last 10 ms: tick and ns -/
  samples : List (Nat × Nat) := []
  lastDec : Nat := 0
  lastChange : Nat := 0
  clean : Nat := 0
  /-- probes sent: path, TXC, tick -/
  probes : List (Nat × Nat × Nat) := []
  /-- READ_RESP packets this QP still owes (R354) -/
  resp : List Packet := []
  /-- when the newest packet seen acknowledged was sent -/
  ackedSent : Nat := 0
  cached : Bool := false
  lru : Nat := 0
  /-- XP_QP_DESTROY waits for this QP -/
  dying : Bool := false
deriving DecidableEq, Repr

/-- A memory region of the transport (R360, R361). -/
structure XpRegion where
  valid : Bool := false
  revoking : Bool := false
  gen : Nat := 0
  job : Nat := 0
  part : Nat := 0
  base : Nat := 0
  len : Nat := 0
  write : Bool := false
  read : Bool := false
deriving DecidableEq, Repr

/-- A posted trigger (R362 to R364). -/
structure Trigger where
  w : List Nat
  ctr : Nat
  thresh : Nat
  rearm : Nat
  armed : Bool := true
deriving DecidableEq, Repr

/-- The transport's shared tables (R349, R360, R362). -/
structure Transport where
  qps : Tab Qp := []
  /-- QPNs not to be assigned again: QPN to (job, epoch) (R347) -/
  retired : Tab (Nat × Nat) := []
  regions : Tab XpRegion := []
  triggers : Tab Trigger := []
  nextLru : Nat := 1
  missDrop : Nat := 0
  noQp : Nat := 0
  /-- miss buffers: port to packets with the sub-port, the CE mark and whether the tag verifies (R350) -/
  miss : Tab (List (Nat × Packet × Bool × Bool)) := []
  /-- IPv4, IPv6 address and next hop per sub-port (R340) -/
  addr4 : Tab Nat := []
  addr6 : Tab (List Byte) := []
  hop : Tab Nat := []
deriving DecidableEq, Repr

/-- A frame handed to a MAC for transmission. -/
structure TxFrame where
  len : Nat
  cls : Nat
  isIp : Bool := true
  ect : Bool := false
  packet : Option Packet := none
  /-- a PFC frame: priority and quanta -/
  pfc : Option (Nat × Nat) := none
deriving DecidableEq, Repr

/-- A sub-port (R321 to R339). Configuration fields are registers in `State.cfg`. -/
structure SubPort where
  link : Bool := false
  counters : Tab Nat := []
  half : Tab Bool := []
  txQ : List TxFrame := []
  /-- the frame in transmission, and whether it has underrun -/
  tx : Option TxFrame := none
  underrun : Bool := false
  /-- received transport frames passed on: packet, CE mark, priority, length, authentic -/
  rxQ : List (Packet × Bool × Nat × Nat × Bool) := []
  /-- receive-buffer bytes per priority -/
  buf : Tab Nat := []
  /-- VLAN_MODE and VID that reception uses while they differ from the transmitter's (R48) -/
  rxVlan : Option (Bool × Nat) := none
  /-- OCT64 remainders, receive and transmit -/
  oct : Nat × Nat := (0, 0)
  /-- paused until, per priority (R330) -/
  paused : Tab Nat := []
  /-- XOFF sent and last time, per priority (R331) -/
  xoff : Tab Nat := []
  degradedTick : Option Nat := none
  /-- frames that have left on the fibre, newest first -/
  wire : List TxFrame := []
  /-- the port stays off until the next start (R461) -/
  barred : Bool := false
deriving DecidableEq, Repr

/-- A laser bay (R318 to R320, R492). -/
structure Bay where
  present : Bool := false
  latched : Bool := false
  genuine : Bool := true
  lit : Bool := false
  faulted : Bool := false
  /-- bias of the 16 outputs in steps of 0.1 percent, and their last trim -/
  bias : Tab Int := []
  trimTick : Tab Nat := []
deriving DecidableEq, Repr

/-- A ring of an optical engine (R398, R399). -/
structure Ring where
  locked : Bool := true
deriving DecidableEq, Repr

/-- A port's optics: lanes locked (receive), rings, relocks, headroom (R398, R399). -/
structure Port where
  lanes : Nat := 0
  rings : Tab Ring := []
  relocks : Nat := 0
  /-- smallest ring headroom of each measurement of the last second: tick and per cent (R398) -/
  headroom : List (Nat × Nat) := []
deriving DecidableEq, Repr

/-- An operating-point change in progress (R372). -/
structure Change where
  target : Nat
  notice : Nat
  forced : Bool
  pllLocked : Bool := false
  /-- the switch has been made; the rail still moves -/
  switched : Bool := false
  /-- the tick at which the rail reaches the target voltage -/
  railTick : Nat
  /-- waiting for a stretch since -/
  waitTick : Option Nat := none
  /-- abandoned; to be tried again at -/
  retryTick : Option Nat := none
deriving DecidableEq, Repr

/-- A column group under Constantan and Babbitt (R146, R370 to R375). -/
structure Group where
  opp : Nat := 7
  req : Nat := 7
  duty : Nat := 8
  /-- duty that applies at the next frame boundary (R375) -/
  nextDuty : Nat := 8
  stretch : Bool := false
  /-- a freeze holds its droop detectors (R407) -/
  frozen : Bool := false
  mv : Nat := 600
  change : Option Change := none
  stretchCnt : Nat := 0
  abandon : Nat := 0
  switches : Nat := 0
  /-- GROUP_STATS -/
  completed : Nat := 0
  thiefTakes : Nat := 0
  stolenFrom : Nat := 0
  crossDie : Nat := 0
  durOver : Nat := 0
  restarts : Nat := 0
  heldRel : Nat := 0
  /-- tick of the last threshold recalibration per operating point (R404) -/
  droopTick : Tab Nat := []
deriving DecidableEq, Repr

/-- One die under Constantan and Invar. -/
structure DieS where
  memDuty : Nat := 8
  linkDuty : Nat := 8
  tempHot : Nat := 0
  tempSensor : Nat := 0
  watts : Nat := 0
  freezeUntil : Option Nat := none
  lowHeadroom : Bool := false
  goodTick : Option Nat := none
  effective : Nat := 40
  /-- voluntary moves of the last millisecond: tick, magnitude in mW -/
  moves : List (Nat × Nat) := []
  worstChan : Nat := 0
  worstMargin : Nat := 0
  retrains : Nat := 0
deriving DecidableEq, Repr

/-- An energy account (R386, R387); owner 15 is the operator. -/
structure Acct where
  owner : Nat := 15
  kind : Nat := 0
  first : Nat := 0
  last : Nat := 0
  uj : Nat := 0
deriving DecidableEq, Repr

/-- Constantan (R370 to R391). -/
structure Constantan where
  avgW : Nat := 0
  /-- last samples of 10 us, newest first, at most 200 (2 ms) -/
  samples : List Nat := []
  /-- episodes of R380 by domain (8: the shared cap, p: the slice of isolated partition p), with the
  consecutive 100 us intervals in which the average has met the cap -/
  unatt : Tab Nat := []
  /-- energy of each partition since the last interval in uJ, and its last 20 interval powers in W -/
  partUj : Tab Nat := []
  partW : Tab (List Nat) := []
  accts : Tab Acct := []
  memTemp : Tab Nat := []
  memThrottle : Tab Bool := []
  /-- sensors at or above their warning point, not yet released -/
  warned : List Nat := []
  groupThrottle : Tab Bool := []
  /-- a die sensor is at or above its warning point now -/
  warnNow : Bool := false
  /-- coefficient generation, advanced with gain 1/16 each interval (R378) -/
  coeffGen : Nat := 0
deriving DecidableEq, Repr

/-- One memory channel under Invar (R393 to R397). -/
structure Chan where
  phase : Int := 0
  margin : Nat := 0
  retrainTick : Option Nat := none
  weak : Bool := false
  heldStep : Option Int := none
  stepTick : Nat := 0
  /-- a retrain waits since, for a slot in which its services are idle; and that wait has ended (R396) -/
  waiting : Option Nat := none
  waitOver : Bool := false
deriving DecidableEq, Repr

/-- One lane module of a Solder bridge: failed lanes and used spares (R401 to R403, R455). -/
structure Module where
  retired : List Nat := []
  /-- lane under recalibration, shadowed -/
  recal : Option Nat := none
  nextLane : Nat := 0
deriving DecidableEq, Repr

/-- A Solder bridge (R401 to R403). -/
structure Bridge where
  half : Bool := false
  out : Bool := false
  modules : Tab Module := []
  swaps : Nat := 0
deriving DecidableEq, Repr

/-- Invar (R392 to R410). -/
structure Invar where
  chans : Tab Chan := []
  bridges : Tab Bridge := []
  droopFailed : Nat := 0
  droopRecals : Nat := 0
  held : Nat := 0
  freezes : Nat := 0
deriving DecidableEq, Repr

/-- A check-value channel (R438 to R446). CV_CTRL, ADDR, LEN, RUN and EXPECT are registers. -/
structure Cv where
  /-- 0 IDLE, 1 BUSY, 2 STOPPED, 3 DONE -/
  st : Nat := 0
  mismatch : Bool := false
  err : Nat := 0
  part : Option Nat := none
  result : Nat := 0
  done : Nat := 0
  /-- bytes at which a STOP takes effect -/
  compat : Bool := false
  /-- CV_RESULT is undefined (R444): the number of the free value it shows -/
  undef : Option Nat := none
deriving DecidableEq, Repr

/-- Why the machine stops. Every fault is safe: the model stops where a command names what the block
does not have. -/
inductive Fault where
  /-- raised by REGISTER_READ and REGISTER_WRITE: a BAR other than 0 or 2, or an offset that is not a
  word of that BAR (R291). Safe: no such access exists on the link. -/
  | noSuchRegister
deriving DecidableEq, Repr

/-- Why the model gives a command no meaning. -/
inductive Refusal where
  /-- the command has no meaning in the model yet. Safe. -/
  | notModelled (mnemonic : String)
deriving DecidableEq, Repr

/-- The state of the module. -/
structure State where
  /-- commands waiting, first in, first out -/
  pending : List Instr := []
  /-- the period timer, in 10 ns ticks of AONCLK since power-on (R244) -/
  tick : Nat := 0
  /-- the model's own: how many free values have been drawn (log entry 4) -/
  free : Nat := 0
  /-- host memory as this module sees it (log entry 13) -/
  hostMem : Mem := {}
  /-- the bytes that the last read on a bus of the module answered: a register read, a host read, an
  SMBus read -/
  busOut : List Byte := []
  devMem : Mem := {}
  /-- local stores: core number * 2^20 + address (R115) -/
  localMem : Mem := {}
  /-- accumulator entries: core * 40960 + row * 80 + entry; row flags SAT, NONFIN at core * 512 + row -/
  acc : Tab Word := []
  accFlags : Tab Nat := []
  /-- cores whose accumulators and local stores are undefined since power-on: generation -/
  accGen : Tab Nat := []
  /-- generation of the accumulators since power was last lost -/
  era : Nat := 1
  cores : Tab CoreS := []
  /-- physical core of each logical core (R16) -/
  remap : Tab Nat := []
  counters : Tab (BitVec 64) := []
  /-- configuration registers by register address (R44); pending masks and values (R50) -/
  cfg : Tab Word := []
  pend : Tab (Word × Word) := []
  /-- boundaries passed per block instance (R45) -/
  bseq : Tab Nat := []
  /-- OFFSET and STATUS of the last direct write per page, and ERRCNT per page (R47) -/
  wstat : Tab (Nat × Nat) := []
  errcnt : Tab Nat := []
  /-- latched high words of registers read under R20 -/
  snap : Tab Word := []
  mailboxes : Tab Mailbox := []
  /-- mailbox served last (R55) -/
  lastMb : Nat := 63
  /-- COMPAT: UPD_LR_STICKY, MB_V2, MAC_FULLWRAP, CV_CMP in bits 3 to 0 -/
  compat : BitVec 4 := 0
  bu : Bringup := {}
  power : Power := {}
  defects : Defects := {}
  sec : Electrum := {}
  mem : MemSys := {}
  store : Store := {}
  link : HostLink := {}
  pewter : Tab Pewter := []
  jobs : Tab Job := []
  svcs : Tab Svc := []
  xp : Transport := {}
  subs : Tab SubPort := []
  ports : Tab Port := []
  bays : Tab Bay := []
  groups : Tab Group := []
  dies : Tab DieS := []
  con : Constantan := {}
  inv : Invar := {}
  cvs : Tab Cv := []
deriving DecidableEq, Repr

/-- The module right after power-on: 48 V present, PERST_N asserted, only the always-on domain running,
NEXT = 0x01 (R447, R482, R489). What RAM and local stores hold is undefined (log 5). -/
def State.reset : State :=
  { devMem := { undef := [{ base := 0, len := 0xD800000000, gen := 0 }] }, localMem := { undef := [{ base := 0, len := 2 ^ 31, gen := 1 }] }, mem := { gen := 2 } }

end Sys2Proof.Machine
end

