-- ==== Sys2Proof/Machine/Regs.lean ====
section
/-! DEFINITION. The register maps of every block: where each register lies (R44, R292), the access and
class of its fields (R8, R10), their reset values, and which values are refused. -/

namespace Sys2Proof.Machine

/-- Access codes (R8). -/
inductive Access where
  | ro | rw | wo | w1c | rc
deriving DecidableEq, Repr
/-- Field classes (R10). -/
inductive Cls where
  | s | b | l | none
deriving DecidableEq, Repr
/-- A field at bits hi:lo. -/
structure Fld where
  hi : Nat
  lo : Nat
  acc : Access
  cls : Cls
  reset : Nat := 0
deriving DecidableEq, Repr

/-- The configurable blocks (R48), and the pages that only show status. -/
inductive Blk where
  | mb (n : Nat) | cv (c : Nat) | sub (i : Nat) | port (p : Nat) | pw | bu | job (j : Nat)
  | svc (k : Nat) | svcDev | mem | part (p : Nat) | partDev | xp (j : Nat) | xpDev | iv
deriving DecidableEq, Repr

/-- A number for a block instance. -/
def blkNum : Blk → Nat
  | .mb n => 0x010000 + n
  | .cv c => 0x020000 + c
  | .sub i => 0x030000 + i
  | .port p => 0x040000 + p
  | .pw => 0x050000
  | .bu => 0x060000
  | .job j => 0x070000 + j
  | .svc k => 0x080000 + k
  | .svcDev => 0x090000
  | .mem => 0x0A0000
  | .part p => 0x0B0000 + p
  | .partDev => 0x0C0000
  | .xp j => 0x0D0000 + j
  | .xpDev => 0x0E0000
  | .iv => 0x0F0000
/-- The key of a register in `State.cfg`. -/
def regKey (b : Blk) (off : Nat) : Nat := blkNum b * 65536 + off
/-- The block of a key. -/
def keyBlk (k : Nat) : Nat := k / 65536

/-- The page whose WSTAT and ERRCNT a block uses (R47): both sub-ports share their port's page. -/
def blkPage : Blk → Nat
  | .sub i => blkNum (.port (i / 2))
  | b => blkNum b

/-- BAR2 offset to block and offset inside it (R292, R338, R390). -/
def bar2Reg (off : Nat) : Option (Blk × Nat) :=
  if off < 0x40000 then some (.mb (off / 0x1000), off % 0x1000)
  else if off < 0x50000 then some (.cv ((off - 0x40000) / 0x1000), off % 0x1000)
  else if off < 0x58000 then
    let p := (off - 0x50000) / 0x1000
    let o := off % 0x1000
    if o < 0x400 then some (.sub (2 * p), o)
    else if o < 0x800 then some (.sub (2 * p + 1), o - 0x400)
    else if o < 0x900 then some (.sub (2 * p), o)
    else if o < 0xA00 then some (.sub (2 * p + 1), o - 0x100)
    else some (.port p, o)
  else if off < 0x59000 then some (.pw, off % 0x1000)
  else none

/-- Register address of R44 to block and offset: space in bits 63:60, instance in bits 47:32. -/
def regOf (a : Nat) : Option (Blk × Nat) :=
  let sp := bitsOf a 63 60
  let inst := bitsOf a 47 32
  let off := bitsOf a 31 0
  if off % 4 ≠ 0 then none
  else match sp with
  | 0x0 => if inst = 0 ∧ off < 0x1000 then some (.bu, off) else none
  | 0x2 => if inst = 0 then bar2Reg off else none
  | 0x3 => if off < 0x1000 then some (.mem, off) else none
  | 0x4 => if off < 0x1000 then some (.job inst, off) else none
  | 0x5 => if off < 0x1000 then some (if inst = 0xFFFF then .partDev else .part inst, off) else none
  | 0x6 => if off < 0x1000 then some (if inst = 0xFFFF then .svcDev else .svc inst, off) else none
  | 0x7 => if off < 0x1000 then some (.iv, off) else none
  | 0x8 => if off < 0x1000 then some (if inst = 0xFFFF then .xpDev else .xp inst, off) else none
  | 0x9 => if off < 0x1000 ∧ inst < 16 then some (.cv inst, off) else none
  | _ => none

/-- RO field. -/
def fRo (hi lo : Nat) : Fld := ⟨hi, lo, .ro, .none, 0⟩
/-- RW field of a class. -/
def fRw (hi lo : Nat) (c : Cls) (r : Nat := 0) : Fld := ⟨hi, lo, .rw, c, r⟩
/-- RC field. -/
def fRc (hi lo : Nat) : Fld := ⟨hi, lo, .rc, .none, 0⟩

/-- WSTAT and ERRCNT (R47). -/
def pageFields (off : Nat) : List Fld :=
  if off = 0xFF8 then [fRo 31 31, fRo 27 0] else if off = 0xFFC then [fRc 15 0] else []

/-- Fields of each register; bits outside every field are reserved (R9). -/
def fieldsOf (b : Blk) (off : Nat) : List Fld :=
  match b with
  | .mb _ =>
    if off = 0x000 ∨ off = 0x008 then [⟨6, 0, .wo, .none, 0⟩]
    else if off = 0x010 ∨ off = 0x018 then [fRw 31 12 .s]
    else if off = 0x014 ∨ off = 0x01C then [fRw 31 0 .s]
    else if off = 0x020 then [fRw 31 31 .l, fRw 30 30 .s, fRw 29 29 .s, fRw 23 16 .s, fRw 0 0 .l]
    else if off = 0x024 then [fRo 31 30, fRo 27 24, fRo 14 8, fRo 6 0]
    else if off = 0x028 then [fRw 6 0 .l]
    else if 0x100 ≤ off ∧ off < 0x200 then [⟨31, 0, .wo, .none, 0⟩]
    else pageFields off
  | .cv _ =>
    if off = 0x000 then [⟨31, 31, .wo, .none, 0⟩, ⟨30, 30, .wo, .none, 0⟩, fRw 29 29 .s, fRw 28 28 .l,
      fRw 27 26 .s, fRw 23 16 .s]
    else if off = 0x004 then [fRo 31 30, ⟨29, 29, .w1c, .none, 0⟩, fRo 28 24, fRo 18 15]
    else if off = 0x008 ∨ off = 0x010 then [fRw 31 0 .s]
    else if off = 0x00C then [fRw 15 0 .s]
    else if off = 0x014 then [fRw 7 0 .s]
    else if off = 0x018 ∨ off = 0x01C ∨ off = 0x028 ∨ off = 0x02C then [fRw 31 0 .s]
    else if off = 0x020 ∨ off = 0x024 ∨ off = 0x030 ∨ off = 0x034 then [fRo 31 0]
    else pageFields off
  | .sub _ =>
    if off < 0x170 then (if (0x98 ≤ off ∧ off < 0x100) then [] else [fRo 31 0])
    else if 0x200 ≤ off ∧ off < 0x20C then [⟨31, 0, .w1c, .none, 0⟩]
    else match off with
    | 0x800 => [fRw 31 31 .l, fRw 30 30 .b 1, fRw 29 29 .b, fRw 28 28 .l, fRw 23 16 .s, fRw 13 0 .b 0x2400]
    | 0x804 => [fRw 13 0 .b 0x0800]
    | 0x808 => [fRw 11 0 .b 1]
    | 0x80C => [fRw 31 16 .b 0xFFFF, fRw 15 8 .b, fRw 7 0 .b]
    | 0x810 => [fRw 27 16 .b 0x0C0, fRw 12 0 .b 0x100]
    | 0x820 => [fRw 10 8 .b, fRw 7 7 .b 1, fRw 5 0 .b]
    | 0x824 => [fRw 10 8 .b, fRw 7 7 .b 1, fRw 5 0 .b]
    | 0x828 => [fRw 10 8 .b, fRw 7 7 .b 1, fRw 5 0 .b]
    | 0x82C => [fRw 10 8 .b, fRw 7 7 .b 1, fRw 5 0 .b]
    | 0x830 => [fRw 31 0 .s]
    | 0x834 => [fRw 15 0 .s]
    | _ => []
  | .port _ => if off = 0xA00 then [fRw 31 30 .s, fRo 29 26, fRo 15 8] else pageFields off
  | .pw =>
    if off = 0x000 then [fRw 31 31 .l, fRw 30 28 .l, fRw 23 16 .l 0x14]
    else if off = 0x004 then [fRw 10 0 .l 0x4B0]
    else if off = 0x008 then [fRo 31 28, fRo 10 0]
    else if 0x010 ≤ off ∧ off < 0x030 then
      [fRw 20 18 .l 7, fRw 17 15 .l 0, fRw 14 12 .l 4, fRw 11 9 .l 1, fRw 8 6 .l 2, fRw 5 3 .l 0, fRw 2 0 .l 0]
    else if 0x100 ≤ off ∧ off < 0x180 then [fRo 31 20]
    else if 0x200 ≤ off ∧ off < 0x300 then [fRo 31 0]
    else if 0x300 ≤ off ∧ off < 0x340 then [fRo 23 0]
    else if 0x340 ≤ off ∧ off < 0x350 then [fRo 10 0]
    else pageFields off
  | .bu =>
    if off = 0x000 then [⟨11, 8, .wo, .none, 0⟩, ⟨7, 0, .wo, .none, 0⟩]
    else if off = 0x004 then [fRo 31 29, fRo 23 0]
    else if off = 0x008 then [fRo 31 0]
    else if off = 0x00C then [fRo 3 0]
    else if off = 0x010 ∨ off = 0x014 ∨ off = 0x024 then [fRo 31 0]
    else if off = 0x018 then [⟨31, 31, .w1c, .none, 0⟩, ⟨30, 30, .w1c, .none, 0⟩, fRo 29 29, fRo 23 0]
    else if off = 0x020 then [fRo 31 25, fRo 23 8, fRo 4 0]
    else if 0x028 ≤ off ∧ off < 0x040 then [fRo 31 0]
    else if 0x040 ≤ off ∧ off < 0x080 then [fRw 31 0 .s]
    else if off = 0x080 then [fRo 31 16, fRo 13 0]
    else if off = 0x084 then [fRw 12 0 .l]
    else if 0x088 ≤ off ∧ off < 0x098 then [fRo 31 0]
    else if off = 0x100 then [fRw 3 3 .s, fRw 2 2 .s, fRw 1 1 .s, fRw 0 0 .s]
    else pageFields off
  | .job _ =>
    match off with
    | 0x000 => [fRw 31 31 .b, fRw 30 30 .b, fRw 29 27 .b, fRw 26 26 .s, fRw 23 8 .b 0x07D0, fRw 5 0 .b 0x10]
    | 0x004 => [fRw 31 16 .b 0x0100, fRw 15 0 .b 0x0100]
    | 0x008 => [fRo 31 16, fRo 5 0]
    | 0x00C => [fRo 31 27, fRo 15 0]
    | 0x010 => [fRo 31 0]
    | 0x014 => [fRc 31 0]
    | 0x018 => [fRo 31 0]
    | 0x01C => [fRo 31 0]
    | 0x020 => [fRw 31 0 .b]
    | 0x024 => [fRo 31 0]
    | 0x028 => [fRw 31 12 .s, fRw 0 0 .s]
    | 0x02C => [fRw 31 0 .s]
    | 0x030 => [fRc 15 0]
    | _ => pageFields off
  | .svc _ =>
    match off with
    | 0x000 => [fRw 31 29 .s, fRw 28 28 .s, fRw 27 26 .s, fRw 25 16 .s, fRw 15 15 .l, fRw 7 0 .s]
    | 0x004 => [fRw 31 0 .s]
    | 0x008 => [fRw 31 0 .s]
    | 0x00C => [fRw 12 0 .b 0x07D0]
    | 0x010 => [fRo 31 23, fRo 1 0]
    | 0x014 => [fRo 31 0]
    | 0x018 => [fRo 31 0]
    | 0x01C => [fRo 28 16, fRw 12 0 .l]
    | 0x020 => [fRc 31 24, fRc 23 16, fRc 15 8, fRc 7 0]
    | _ => pageFields off
  | .svcDev =>
    match off with
    | 0x000 => [fRo 31 0]
    | 0x004 => [fRo 31 0]
    | 0x008 => [fRw 6 0 .l 0x10]
    | 0x00C => [fRo 9 0]
    | _ => pageFields off
  | .mem =>
    if off = 0x000 then [fRw 3 0 .l 4]
    else if 0x010 ≤ off ∧ off < 0x028 then [fRo 31 0]
    else if off = 0x030 then [fRc 31 16, fRc 15 8, fRc 7 0]
    else if off = 0x038 ∨ off = 0x03C then [fRo 31 0]
    else if off = 0x040 then [fRo 31 30, fRo 26 8]
    else if off = 0x050 then [fRo 31 29, fRo 21 16, fRo 10 0]
    else if off = 0x054 then [fRo 31 0]
    else if off = 0x060 then [fRw 31 30 .l]
    else if off = 0x064 then [fRw 7 0 .l]
    else if off = 0x068 then [fRw 7 0 .l 0xFF]
    else if off = 0x06C then [fRc 31 16, fRc 15 8, fRc 7 0]
    else if off = 0x070 then [fRo 31 29, fRo 23 16, fRo 7 0]
    else if off = 0x074 then [fRc 31 0]
    else pageFields off
  | .part _ =>
    match off with
    | 0x000 => [fRw 31 0 .b]
    | 0x004 => [fRo 31 31, fRw 30 30 .b, fRw 26 24 .b, fRw 22 20 .b, fRw 10 0 .b]
    | 0x008 => [fRw 31 0 .b]
    | 0x00C => [fRw 31 0 .b]
    | 0x010 => [fRw 31 0 .b]
    | 0x014 => [fRo 31 31, fRo 16 0]
    | 0x018 => [fRo 28 16, fRw 12 0 .l]
    | _ => pageFields off
  | .partDev =>
    match off with
    | 0x000 => [fRo 31 31, fRo 20 16, fRo 7 0]
    | 0x008 => [fRo 28 16, fRw 12 0 .l]
    | 0x010 => [fRo 31 0]
    | 0x014 => [fRo 31 0]
    | _ => pageFields off
  | .xp _ =>
    match off with
    | 0x000 => [fRw 31 31 .b, fRw 30 30 .b 1, fRw 27 24 .b 7, fRw 23 16 .b 0x0A]
    | 0x004 => [fRw 31 24 .b 0x14, fRw 23 16 .b 5, fRw 15 8 .b 0x40, fRw 7 0 .b 0x0A]
    | 0x008 => [fRw 12 0 .b 0x00C8]
    | 0x010 => [fRc 31 0]
    | 0x014 => [fRc 31 24, fRc 23 16, fRc 15 8, fRc 7 0]
    | _ => pageFields off
  | .xpDev =>
    match off with
    | 0x000 => [fRw 31 16 .l 0x4732, fRw 15 8 .l 0xC0]
    | 0x004 => [fRc 31 16, fRc 15 0]
    | 0x008 => [fRo 26 16, fRo 12 0]
    | _ => pageFields off
  | .iv =>
    if off = 0x000 then [fRw 31 31 .l 1, fRw 30 30 .l 1, fRw 23 16 .l 0x32, fRw 15 8 .l 6, fRw 7 0 .l 3]
    else if 0x010 ≤ off ∧ off < 0x020 then [fRo 31 31, fRo 15 8, fRw 7 0 .l 0x28]
    else if 0x020 ≤ off ∧ off < 0x030 then [fRo 31 0]
    else if 0x030 ≤ off ∧ off < 0x048 then [fRo 31 0]
    else if 0x050 ≤ off ∧ off < 0x070 then [fRo 31 24, fRo 15 0]
    else if 0x070 ≤ off ∧ off < 0x080 then [fRo 31 30, fRo 18 0]
    else if off = 0x080 ∨ off = 0x084 then [fRo 31 0]
    else pageFields off

/-- Mask of a field. -/
def fldMask (f : Fld) : Nat := 2 ^ (f.hi + 1) - 2 ^ f.lo
/-- Mask of the fields that satisfy a test. -/
def maskWhere (p : Fld → Bool) (fs : List Fld) : Nat :=
  (fs.map (fun f => if p f then fldMask f else 0)).foldl (· ||| ·) 0
/-- Reset word of the RW fields. -/
def resetWord (fs : List Fld) : Word :=
  BitVec.ofNat 32 ((fs.map (fun f => f.reset * 2 ^ f.lo)).foldl (· + ·) 0)
/-- The page registers WSTAT and ERRCNT. -/
def isPageReg (off : Nat) : Bool := off = 0xFF8 || off = 0xFFC
/-- Does the register exist in its block? -/
def regExists (b : Blk) (off : Nat) : Bool := (fieldsOf b off) ≠ []

/-- Values that the register's own rows refuse with BAD_ARGUMENT: the register's whole value after the
write. `mode1` says that a port runs as two sub-ports. -/
def valueOk (b : Blk) (off : Nat) (mode1 : Bool) (v : Word) : Bool :=
  match b with
  | .cv _ => off ≠ 0x000 || fld v 27 26 ≠ 3
  | .sub _ =>
    if off = 0x800 then 1518 ≤ fld v 13 0 && fld v 13 0 ≤ 9216
    else if off = 0x804 then 512 ≤ fld v 13 0 && fld v 13 0 ≤ 9216 && fld v 13 0 % 64 == 0
    else if off = 0x808 then fld v 11 0 ≠ 0 && fld v 11 0 ≠ 4095
    else if off = 0x80C then fld v 31 16 ≠ 0
    else if off = 0x810 then 2 ≤ fld v 12 0 && fld v 12 0 ≤ (if mode1 then 2048 else 4096) &&
      1 ≤ fld v 27 16 && fld v 27 16 < fld v 12 0
    else true
  | .port _ => off ≠ 0xA00 || fld v 31 30 < 2
  | .pw =>
    if off = 0x000 then fld v 30 28 < 6 && 10 ≤ fld v 23 16
    else if off = 0x004 then 200 ≤ fld v 10 0 && fld v 10 0 ≤ 1500
    else true
  | .job _ =>
    if off = 0x000 then fld v 5 0 ≤ 32
    else if off = 0x020 then fld v 30 23 ≠ 255
    else true
  | .svc _ => off ≠ 0x00C || fld v 12 0 ≤ 8190
  | .svcDev => off ≠ 0x008 || (1 ≤ fld v 6 0 && fld v 6 0 ≤ 64)
  | .mem => off ≠ 0x000 || fld v 3 0 ≠ 0
  | .part _ => off ≠ 0x004 || (fld v 26 24 + fld v 22 20 ≤ 7 &&
      (!flag v 30 || (50 ≤ fld v 10 0 && fld v 10 0 ≤ 1500)))
  | .xp _ =>
    if off = 0x000 then fld v 27 24 ≠ 0 && fld v 23 16 ≠ 0
    else if off = 0x004 then fld v 31 24 ≠ 0 && fld v 23 16 ≠ 0 && fld v 15 8 ≠ 0 && fld v 7 0 ≠ 0
    else if off = 0x008 then 20 ≤ fld v 12 0 && fld v 12 0 ≤ 5000
    else true
  | .xpDev => off ≠ 0x000 || 0xC0 ≤ fld v 15 8
  | .iv =>
    if off = 0x000 then 10 ≤ fld v 23 16 && 2 ≤ fld v 15 8 && fld v 15 8 ≤ 31 && 1 ≤ fld v 7 0 &&
      fld v 7 0 < fld v 15 8
    else if 0x010 ≤ off ∧ off < 0x020 then 10 ≤ fld v 7 0
    else true
  | _ => true

end Sys2Proof.Machine
end

