-- ==== Sys2Proof/Machine/Ops.lean ====
section
/-! DEFINITION. The named operations over State: reading and changing each table, device and host memory
with the rules of R264 to R271, counters (R140), MSI-X messages and event queues (R431). -/

namespace Sys2Proof.Machine

/-- What a command answers. -/
abbrev Out := Host.Outcome State Fault Refusal

/-! ### Tables -/

/-- Mailbox n. -/
def State.mb (s : State) (n : Nat) : Mailbox := tabGet {} s.mailboxes n
/-- Change mailbox n. -/
def State.setMb (s : State) (n : Nat) (m : Mailbox) : State := { s with mailboxes := tabSet s.mailboxes n m }
/-- Logical core c. -/
def State.core (s : State) (c : Nat) : CoreS := tabGet {} s.cores c
/-- Change core c. -/
def State.setCore (s : State) (c : Nat) (x : CoreS) : State := { s with cores := tabSet s.cores c x }
/-- Loaded job j. -/
def State.job? (s : State) (j : Nat) : Option Job := tabFind s.jobs j
/-- Change job j. -/
def State.setJob (s : State) (j : Nat) (x : Job) : State := { s with jobs := tabSet s.jobs j x }
/-- Registered service k. -/
def State.svc? (s : State) (k : Nat) : Option Svc := tabFind s.svcs k
/-- Change service k. -/
def State.setSvc (s : State) (k : Nat) (x : Svc) : State := { s with svcs := tabSet s.svcs k x }
/-- Queue pair q. -/
def State.qp? (s : State) (q : Nat) : Option Qp := tabFind s.xp.qps q
/-- Change queue pair q. -/
def State.setQp (s : State) (q : Nat) (x : Qp) : State := { s with xp := { s.xp with qps := tabSet s.xp.qps q x } }
/-- Sub-port i. -/
def State.sub (s : State) (i : Nat) : SubPort := tabGet {} s.subs i
/-- Change sub-port i. -/
def State.setSub (s : State) (i : Nat) (x : SubPort) : State := { s with subs := tabSet s.subs i x }
/-- Port p. -/
def State.port (s : State) (p : Nat) : Port := tabGet {} s.ports p
/-- Change port p. -/
def State.setPort (s : State) (p : Nat) (x : Port) : State := { s with ports := tabSet s.ports p x }
/-- Laser bay b. -/
def State.bay (s : State) (b : Nat) : Bay := tabGet {} s.bays b
/-- Change bay b. -/
def State.setBay (s : State) (b : Nat) (x : Bay) : State := { s with bays := tabSet s.bays b x }
/-- Column group g. -/
def State.grp (s : State) (g : Nat) : Group := tabGet {} s.groups g
/-- Change group g. -/
def State.setGrp (s : State) (g : Nat) (x : Group) : State := { s with groups := tabSet s.groups g x }
/-- Die d. -/
def State.die (s : State) (d : Nat) : DieS := tabGet {} s.dies d
/-- Change die d. -/
def State.setDie (s : State) (d : Nat) (x : DieS) : State := { s with dies := tabSet s.dies d x }
/-- Memory channel c under Invar. -/
def State.chan (s : State) (c : Nat) : Chan := tabGet {} s.inv.chans c
/-- Change channel c. -/
def State.setChan (s : State) (c : Nat) (x : Chan) : State := { s with inv := { s.inv with chans := tabSet s.inv.chans c x } }
/-- Bridge b. -/
def State.bridge (s : State) (b : Nat) : Bridge := tabGet {} s.inv.bridges b
/-- Change bridge b. -/
def State.setBridge (s : State) (b : Nat) (x : Bridge) : State := { s with inv := { s.inv with bridges := tabSet s.inv.bridges b x } }
/-- Check-value channel c. -/
def State.cv (s : State) (c : Nat) : Cv := tabGet {} s.cvs c
/-- Change check-value channel c. -/
def State.setCv (s : State) (c : Nat) (x : Cv) : State := { s with cvs := tabSet s.cvs c x }
/-- Partition p. -/
def State.part? (s : State) (p : Nat) : Option Partn := tabFind s.sec.parts p
/-- Change partition p. -/
def State.setPart (s : State) (p : Nat) (x : Partn) : State := { s with sec := { s.sec with parts := tabSet s.sec.parts p x } }
/-- Draw a free number (log 4). -/
def State.draw (s : State) : Nat × State := (Config.freeNat s.free, { s with free := s.free + 1 })

/-! ### Configuration registers -/

/-- Reset value of a register: its map's, or the factory's station address. -/
def regReset (b : Blk) (off : Nat) : Word :=
  match b with
  | .sub i =>
    if off = 0x830 then (Config.factoryMac i).setWidth 32
    else if off = 0x834 then BitVec.ofNat 32 ((Config.factoryMac i).toNat / 2 ^ 32)
    else resetWord (fieldsOf b off)
  | _ => resetWord (fieldsOf b off)
/-- Active value of the RW fields of a register. -/
def State.reg (s : State) (b : Blk) (off : Nat) : Word := tabGet (regReset b off) s.cfg (regKey b off)
/-- Set the active value. -/
def State.setReg (s : State) (b : Blk) (off : Nat) (v : Word) : State :=
  { s with cfg := tabSet s.cfg (regKey b off) v }
/-- A field of a register's active value. -/
def State.rf (s : State) (b : Blk) (off hi lo : Nat) : Nat := fld (s.reg b off) hi lo
/-- Replace the bits of a mask. -/
def mergeBits (old mask v : Word) : Word := (old &&& ~~~mask) ||| (v &&& mask)
/-- Forget every register and pending value of a block: it reads its reset values again. -/
def State.dropRegs (s : State) (b : Blk) : State :=
  { s with cfg := s.cfg.filter (fun e => keyBlk e.1 ≠ blkNum b), pend := s.pend.filter (fun e => keyBlk e.1 ≠ blkNum b) }
/-- Count one write in a block's page (R47). -/
def State.countErr (s : State) (b : Blk) : State :=
  { s with errcnt := tabSet s.errcnt (blkPage b) (satAdd 0xFFFF (tabGet 0 s.errcnt (blkPage b)) 1) }
/-- A boundary of a block: every pending value takes effect at one instant (R51). -/
def State.boundary (s : State) (b : Blk) : State :=
  let mine := s.pend.filter (fun e => keyBlk e.1 = blkNum b)
  let upd := fun (c : Tab Word) (e : Nat × (Word × Word)) =>
    tabSet c e.1 (mergeBits (tabGet (regReset b (e.1 % 65536)) c e.1) e.2.1 e.2.2)
  let s1 := { s with cfg := mine.foldl upd s.cfg }
  { s1 with pend := s1.pend.filter (fun e => keyBlk e.1 ≠ blkNum b), bseq := tabSet s1.bseq (blkNum b) (tabGet 0 s1.bseq (blkNum b) + 1) }

/-! ### Device memory -/

/-- Bytes of a DPA slot: 108 GiB (R264). -/
def slotBytes : Nat := 0x1B00000000
/-- 1 GiB. -/
def gib : Nat := 0x40000000
/-- End of the DPA space. -/
def dpaEnd : Nat := 8 * slotBytes
/-- Base of the weight-store aperture (R284). -/
def apBase : Nat := 0x800000000000
/-- Is an address in the aperture? -/
def inAperture (a : Nat) : Bool := apBase ≤ a && a < apBase + 1536 * gib
/-- Working channels of a set (R263). -/
def setChans (ok : Nat) (j : Nat) : List Nat :=
  (upTo 12).flatMap (fun m => [m * 16 + 2 * j, m * 16 + 2 * j + 1].filter (fun c => ok.testBit c))
/-- Usable capacity of a set: n * 4.5 GiB - 4 GiB (R264). -/
def setCap (ok : Nat) (j : Nat) : Nat := (setChans ok j).length * 9 * (gib / 2) - 4 * gib
/-- A range of R266. -/
structure Rng where
  base : Nat
  len : Nat
  part : Option Nat
  sets : List Nat
  /-- under MODE DIE the range is four die ranges of this length; 0 otherwise -/
  q : Nat := 0
deriving DecidableEq, Repr

/-- Length of one die range under DIE (R268): the smallest share. -/
def dieShare (ok : Nat) (sets : List Nat) (d : Nat) : Nat :=
  ((sets.flatMap (setChans ok)).filter (fun c => c / 48 = d)).length * 9 * (gib / 2) - sets.length * gib
/-- The four die ranges' length. -/
def dieQ (ok : Nat) (sets : List Nat) : Nat :=
  min (min (dieShare ok sets 0) (dieShare ok sets 1)) (min (dieShare ok sets 2) (dieShare ok sets 3))
/-- The sets of a partition. -/
def partSets (p : Partn) : List Nat := (upTo p.setCount).map (· + p.setFirst)
/-- The ranges of a partition (R266). -/
def partRanges (ok : Nat) (i : Nat) (p : Partn) : List Rng :=
  let sets := partSets p
  let pooled := sets.take (p.setCount - p.privSets)
  let priv := sets.drop (p.setCount - p.privSets)
  (if pooled = [] then [] else
    if p.mode = 1 then [⟨p.setFirst * slotBytes, 4 * dieQ ok pooled, some i, pooled, dieQ ok pooled⟩]
    else [⟨p.setFirst * slotBytes, (pooled.map (setCap ok)).foldl (· + ·) 0, some i, pooled, 0⟩])
  ++ priv.map (fun j => ⟨j * slotBytes, setCap ok j, some i, [j], 0⟩)
/-- Owner of a set. -/
def State.setOwner (s : State) (j : Nat) : Option Nat :=
  (s.sec.parts.find? (fun e => decide (e.2.setFirst ≤ j) && decide (j < e.2.setFirst + e.2.setCount))).map (·.1)
/-- Every range of the device. -/
def State.ranges (s : State) : List Rng :=
  s.sec.parts.flatMap (fun e => partRanges s.mem.chanOk e.1 e.2) ++
  ((upTo 8).filter (fun j => (s.setOwner j).isNone)).map
    (fun j => ⟨j * slotBytes, setCap s.mem.chanOk j, none, [j], 0⟩)
/-- The range of an address. -/
def State.rangeOf (s : State) (a : Nat) : Option Rng :=
  s.ranges.find? (fun r => r.base ≤ a && a < r.base + r.len)
/-- What is wrong with a span of device memory. -/
inductive SpanErr where
  | ok | foreign | hole | aperture
deriving DecidableEq, Repr
/-- Check a span for an agent of a partition; `none` is the operator, who may address every slot (R265). -/
def State.span (s : State) (scope : Option Nat) (a len : Nat) : SpanErr :=
  let last := a + len - 1
  if inAperture a || inAperture last then .aperture
  else if dpaEnd ≤ last then .hole
  else if scope ≠ none ∧ ((upTo 8).any (fun j => decide (j * slotBytes ≤ last) &&
      decide (a < (j + 1) * slotBytes) && decide (s.setOwner j ≠ scope))) then .foreign
  else match s.rangeOf a with
    | none => .hole
    | some r => if a + len ≤ r.base + r.len then .ok else .hole

/-- Working channels of a range, ascending. -/
def rngChans (ok : Nat) (sets : List Nat) : List Nat :=
  (upTo 192).filter (fun c => ok.testBit c && sets.contains (c % 16 / 2))
/-- Channel and channel address of an offset over channels (R268). -/
def mapChan (ch : List Nat) (o : Nat) : Nat × Nat :=
  let n := ch.length
  let g := o / 2048
  let row := g / n
  (ch.getD ((g + 5 * row) % n) 0, row * 2048 + o % 2048)
/-- Channel and channel address that serve a DPA, retired granules through their spare (R268, R273). -/
def State.chanOf (s : State) (a : Nat) : Nat × Nat :=
  match tabFind s.mem.retired (a / 65536) with
  | some (set, sp) => mapChan (setChans s.mem.chanOk set) (sp * 65536 + a % 65536)
  | none =>
    match s.rangeOf a with
    | none => (0, 0)
    | some r =>
      let chs := rngChans s.mem.chanOk r.sets
      if r.q = 0 then mapChan chs (a - r.base)
      else
        let d := (a - r.base) / r.q
        mapChan (chs.filter (fun c => c / 48 = d)) ((a - r.base) % r.q)

/-- The first 64 B line of a span that reads uncorrectable. -/
def badIn (bad : List Nat) (a len : Nat) : Option Nat :=
  bad.find? (fun l => decide (l * 64 < a + len) && decide (a < l * 64 + 64))
/-- Record an uncorrectable access: it counts, its address is shown, its granule is held (R271, R273, R287);
what MEM_UE_INFO shows of the last retirement stands. -/
def State.noteUe (s : State) (a : Nat) (isStore : Bool) : State :=
  let ch := (s.chanOf a).1
  { s with mem := { s.mem with ue := satAdd 0xFF s.mem.ue 1, ueAddr := a, ueInfo := flagAt (s.mem.ueInfo.testBit 31) 31 + flagAt isStore 30 + fieldAt (bitsOf s.mem.ueInfo 26 16) 11 16 + (if isStore then 0 else fieldAt ch 8 8), held := if isStore ∨ s.mem.held.any (fun h => h.1 = a / 65536) then s.mem.held else s.mem.held ++ [(a / 65536, a)] } }
/-- An access of a span stays uncorrectable (R270): which line of it fails is a free value (log 4, 77). -/
def State.lineFails (s : State) (a len : Nat) : State :=
  let (x, s1) := s.draw
  let l := a / 64 + x % max 1 (len / 64)
  let s2 := s1.noteUe (l * 64) false
  if s2.mem.badLines.contains l then s2 else { s2 with mem := { s2.mem with badLines := l :: s2.mem.badLines } }
/-- Read device memory or the aperture; `none` when a line of it is uncorrectable. -/
def State.devRead (s : State) (a len : Nat) : Option (List Byte) :=
  if inAperture a then
    match badIn s.store.badLines (a - apBase) len with
    | some _ => none
    | none => some (s.store.bytes.readN (a - apBase) len)
  else match badIn s.mem.badLines a len with
    | some _ => none
    | none => some (s.devMem.readN a len)
/-- The state after a read that met an uncorrectable line; a store read also damages its base (R285). -/
def State.devReadBad (s : State) (a len : Nat) : State :=
  if inAperture a then
    let s1 := s.noteUe (((badIn s.store.badLines (a - apBase) len).getD 0) * 64 + apBase) true
    let hit := fun (w : WsSlot) =>
      w.st = 2 ∧ w.offset * gib ≤ a - apBase ∧ a - apBase < w.offset * gib + w.extents * gib
    let sl := tabMap (fun _ w => if hit w then { w with st := 3 } else w) s1.store.slots
    { s1 with store := { s1.store with slots := sl } }
  else s.noteUe (((badIn s.mem.badLines a len).getD 0) * 64) false
/-- A write into a sealed region clears its seal (R275). -/
def State.touchRegions (s : State) (a len : Nat) : State :=
  let f := fun (_ : Nat) (r : Region) =>
    if r.base < a + len ∧ a < r.base + r.len then { r with sealed := none, verified := false } else r
  { s with mem := { s.mem with regions := tabMap f s.mem.regions } }
/-- Write device memory: lines written whole read their new data (R270). -/
def State.devWrite (s : State) (a : Nat) (bs : List Byte) : State :=
  if bs = [] then s else
  let s1 := s.touchRegions a bs.length
  { s1 with devMem := s1.devMem.writeL a bs, mem := { s1.mem with badLines := s1.mem.badLines.filter (fun l => !(decide (a ≤ l * 64) && decide (l * 64 + 64 ≤ a + bs.length))) } }
/-- Make a range's contents undefined (R266, R267, R275, R423). -/
def State.scrambleDev (s : State) (a len : Nat) : State :=
  { s with devMem := s.devMem.scramble a len s.mem.gen, mem := { s.mem with gen := s.mem.gen + 1 } }

/-! ### Host memory and messages -/

/-- Write host memory: discarded and counted while the link is down (R312). -/
def State.hostWrite (s : State) (a : Nat) (bs : List Byte) : State :=
  if bs = [] then s
  else if s.link.up then { s with hostMem := s.hostMem.writeL a bs }
  else { s with link := { s.link with discard := satAdd 0xFFFFFFFF s.link.discard 1 } }
/-- Is an address of the R40 form in device memory? -/
def r40Dev (a : Nat) : Bool := a.testBit 63
/-- Address part of an R40 or R125 word. -/
def addrOf (a : Nat) : Nat := a % 2 ^ 48
/-- Read at an address of the R40 form. -/
def State.r40Read (s : State) (w len : Nat) : Option (List Byte) :=
  if r40Dev w then s.devRead (w % 2 ^ 63) len
  else if s.link.up then some (s.hostMem.readN w len) else none
/-- Write at an address of the R40 form. -/
def State.r40Write (s : State) (w : Nat) (bs : List Byte) : State :=
  if r40Dev w then s.devWrite (w % 2 ^ 63) bs else s.hostWrite w bs
/-- Raise an MSI-X vector; lost while the link is down (R312). -/
def State.msi (s : State) (v : Nat) : State :=
  if s.link.up then { s with link := { s.link with msix := v :: s.link.msix } } else s

/-! ### Counters -/

/-- Value of a sync counter. -/
def State.ctr (s : State) (c : Nat) : BitVec 64 := tabGet 0 s.counters c
/-- Set a counter. -/
def State.setCtr (s : State) (c : Nat) (v : BitVec 64) : State := { s with counters := tabSet s.counters c v }
/-- The job that holds a counter. -/
def State.ctrJob (s : State) (c : Nat) : Option Nat :=
  (s.jobs.find? (fun e => decide (e.2.ctrBase ≤ c) && decide (c < e.2.ctrBase + e.2.ctrCount))).map (·.1)
/-- Note that a job has moved on (R133). -/
def State.moved (s : State) (j : Nat) : State :=
  match s.job? j with
  | none => s
  | some x => s.setJob j { x with lastMove := s.tick }
/-- A service in CLEAN or INPUT notes the tick at which its input counter completes the period's input
(R247). -/
def Svc.seeInput (v : Svc) (c val tick : Nat) : Svc :=
  if c = v.ctrBase + v.counters ∧ !v.doorbellMode ∧ (v.ph = .clean ∨ v.ph = .input) ∧ v.inputTick.isNone ∧ reached val (v.k * v.inInc)
  then { v with inputTick := some tick } else v
/-- Atomic add, modulo 2^64 (R140). -/
def State.addCtr (s : State) (c inc : Nat) : State :=
  let n := s.ctr c + BitVec.ofNat 64 inc
  let s0 := s.setCtr c n
  let s1 := { s0 with svcs := tabMap (fun _ v => v.seeInput c n.toNat s.tick) s0.svcs }
  match s1.ctrJob c with
  | none => s1
  | some j => s1.moved j
/-- Partition of the job or service that holds a counter. -/
def State.ctrPart (s : State) (c : Nat) : Option Nat :=
  match s.jobs.find? (fun e => decide (e.2.ctrBase ≤ c) && decide (c < e.2.ctrBase + e.2.ctrCount)) with
  | some e => some e.2.part
  | none => (s.svcs.find? (fun e => decide (e.2.ctrBase ≤ c) &&
      decide (c < e.2.ctrBase + e.2.counters + 2))).map (fun e => e.2.part)
/-- Counters of a service or job cover this one? -/
def State.ctrUsed (s : State) (c : Nat) : Bool :=
  s.jobs.any (fun e => decide (e.2.ctrBase ≤ c) && decide (c < e.2.ctrBase + e.2.ctrCount)) ||
  s.svcs.any (fun e => decide (e.2.ctrBase ≤ c) && decide (c < e.2.ctrBase + e.2.counters + 2))
/-- Counter ranges in use, as (base, count). -/
def State.ctrRanges (s : State) : List (Nat × Nat) :=
  s.jobs.map (fun e => (e.2.ctrBase, e.2.ctrCount)) ++ s.svcs.map (fun e => (e.2.ctrBase, e.2.counters + 2))
/-- Is partition p isolated (R433)? The operator counts as number 8. -/
def State.iso (s : State) (p : Nat) : Bool := ((s.part? p).map (·.isolated)).getD false
/-- Do two owners draw on the same share of the device tables (R433)? -/
def State.sameShare (s : State) (p q : Nat) : Bool := if s.iso p then q = p else !s.iso q
/-- How many of the n entries of a device table an owner's share holds (R433): a fixed eighth for an
isolated partition, and for the others together what the isolated ones leave. -/
def State.share (s : State) (p n : Nat) : Nat :=
  if s.iso p then n / 8 else n - n / 8 * (s.sec.parts.filter (fun e => e.2.isolated)).length
/-- Lies a run of entries of a table of n in the eighths that p may use (R433, log 78)? -/
def State.tableRun (s : State) (p n b len : Nat) : Bool :=
  decide (b + len ≤ n) && (List.range 8).all (fun e =>
    decide (b + len ≤ e * (n / 8)) || decide ((e + 1) * (n / 8) ≤ b) || (if s.iso p then decide (e = p) else !s.iso e))
/-- The lowest run of `len` free entries of a table of n that p may use; `used` lists the runs in use. -/
def State.findRun (s : State) (p n len : Nat) (used : List (Nat × Nat)) : Option Nat :=
  let fits := fun (b : Nat) => s.tableRun p n b len && used.all (fun r => decide (b + len ≤ r.1) || decide (r.1 + r.2 ≤ b))
  (((List.range 8).map (fun e => e * (n / 8)) ++ used.map (fun r => r.1 + r.2)).filter fits).foldl
    (fun m b => match m with | none => some b | some x => some (min x b)) none
/-- The lowest base of `n` contiguous free counters for a partition (R140). -/
def State.findCtrs (s : State) (p n : Nat) : Option Nat := s.findRun p 16384 n s.ctrRanges

/-! ### Event queues -/

/-- The register block that holds a queue's CONS; queue 15 is the operator's. -/
def evqBlk (q : Nat) : Blk × Nat := if q = 15 then (.partDev, 0x008) else (.part q, 0x018)
/-- Put a list of bytes into 16 detail bytes. -/
def pad (n : Nat) (bs : List Byte) : List Byte := (bs ++ zeros n).take n
/-- Write an entry into one queue (R431). -/
def State.evqPut (s : State) (q code : Nat) (part : Nat) (detail : List Byte) : State :=
  match tabFind s.sec.evqs q with
  | none => s
  | some e =>
    if !e.set then s
    else
      let cons := s.rf (evqBlk q).1 (evqBlk q).2 12 0
      let n := 2 ^ e.log2
      if (e.prod + 2 * n - cons % (2 * n)) % (2 * n) = n then
        { s with sec := { s.sec with evqs := tabSet s.sec.evqs q { e with lost := true } } }
      else
        let bs := natLE 2 code ++ natLE 1 (flagAt e.lost 0) ++ natLE 1 part ++ natLE 4 e.seq ++
          natLE 8 s.tick ++ pad 16 detail
        let s1 := s.r40Write (e.base + 32 * (e.prod % n)) bs
        let e2 := { e with prod := (e.prod + 1) % (2 * n), lost := false, seq := (e.seq + 1) % 2 ^ 32 }
        let s2 := { s1 with sec := { s1.sec with evqs := tabSet s1.sec.evqs q e2 } }
        if e.intEn then s2.msi e.vec else s2
/-- Raise an event on the queues of partitions and, if asked, on the operator's (R478). -/
def State.raise (s : State) (code : Nat) (ps : List Nat) (op : Bool) (part : Nat) (detail : List Byte) : State :=
  let s1 := ps.foldl (fun st p => st.evqPut p code part detail) s
  if op then s1.evqPut 15 code part detail else s1
/-- Every existing partition. -/
def State.partIds (s : State) : List Nat := s.sec.parts.map (·.1)
/-- Partitions with a share (a weight above 0) of a port. -/
def State.portParts (s : State) (p : Nat) : List Nat :=
  (s.sec.parts.filter (fun e => e.2.ports.getD p 0 ≠ 0)).map (·.1)
/-- Group of a logical core: 8d + g. -/
def coreGroup (c : Nat) : Nat := c / 64
/-- Die of a logical core. -/
def coreDie (c : Nat) : Nat := c / 512
/-- Partition that owns a group. -/
def State.groupPart (s : State) (g : Nat) : Option Nat :=
  (s.sec.parts.find? (fun e => e.2.groups.testBit g)).map (·.1)
/-- Does the firmware run? (R25, START_CP) -/
def State.fw (s : State) : Bool := s.power.cp && s.power.hub

end Sys2Proof.Machine
end

