-- ==== Sys2Proof/Machine/RegOps.lean ====
section
/-! DEFINITION. Reading and writing registers: read-only values, the class rules of R45 to R54, direct
writes (R47), snapshots of wide counters (R20), read-to-clear fields (R8). -/

namespace Sys2Proof.Machine

/-- Status codes (R43). -/
abbrev stOk : Nat := 0x0000
/-- PENDING_BOUNDARY -/
abbrev stPending : Nat := 0x0001
/-- BAD_OPCODE -/
abbrev stBadOpcode : Nat := 0x0010
/-- BAD_LENGTH -/
abbrev stBadLength : Nat := 0x0011
/-- BAD_ARGUMENT -/
abbrev stBadArg : Nat := 0x0012
/-- NOT_PERMITTED -/
abbrev stNotPerm : Nat := 0x0013
/-- NO_RESOURCE -/
abbrev stNoRes : Nat := 0x0014
/-- STATIC_FIELD_BUSY -/
abbrev stStatic : Nat := 0x0015
/-- WRONG_STATE -/
abbrev stWrong : Nat := 0x0016
/-- UNATTAINABLE -/
abbrev stUnattain : Nat := 0x0017
/-- REFUSED_ADMISSION -/
abbrev stRefused : Nat := 0x0018
/-- EPOCH_STALE -/
abbrev stStale : Nat := 0x0019
/-- VERIFY_FAILED -/
abbrev stVerify : Nat := 0x001A
/-- TIMEOUT -/
abbrev stTimeout : Nat := 0x001B

/-- VERIFY_FAILED of a read that met an uncorrectable line: the line's address, plus one, above bit 16. -/
def State.ueStatus (s : State) (a len : Nat) : Nat :=
  let line := if inAperture a then ((badIn s.store.badLines (a - apBase) len).getD 0) * 64 + apBase else ((badIn s.mem.badLines a len).getD 0) * 64
  stVerify + 65536 * (line + 1)
/-- A read of device memory by the firmware for a command (R271). -/
def State.fwRead (s : State) (a len : Nat) : Except Nat (List Byte) :=
  match s.devRead a len with
  | some bs => .ok bs
  | none => .error (s.ueStatus a len)
/-- Does a job run in the sense of R48 and R497? -/
def jobRuns (x : Job) : Bool := x.st = .running || x.st = .stopping
/-- Does a block run (R48)? -/
def State.runs (s : State) (b : Blk) : Bool :=
  match b with
  | .mb n => flag (s.reg (.mb n) 0x020) 31
  | .cv c => (s.cv c).st = 1
  | .sub i => flag (s.reg (.sub i) 0x800) 31
  | .port p => flag (s.reg (.sub (2 * p)) 0x800) 31 || flag (s.reg (.sub (2 * p + 1)) 0x800) 31
  | .bu => s.bu.result = 1
  | .job j => ((s.job? j).map jobRuns).getD false
  | .xp j => ((s.job? j).map jobRuns).getD false
  | .svc k => (s.svc? k).isSome
  | .part p => (s.part? p).isSome
  | .mem => s.mem.trained
  | _ => s.power.cp

/-- Is a value pending on a page? -/
def State.pendAny (s : State) (b : Blk) : Bool :=
  s.pend.any (fun e => decide (keyBlk e.1 = blkNum b)) ||
  (match b with
   | .port p => s.pend.any (fun e => decide (keyBlk e.1 = blkNum (.sub (2 * p))) ||
       decide (keyBlk e.1 = blkNum (.sub (2 * p + 1))))
   | _ => false)
/-- Word w (0 to 5) of a bit set over channels. -/
def word32 (x w : Nat) : Nat := (x >>> (32 * w)) % 2 ^ 32
/-- Number of a mailbox state. -/
def mbStNum : MbSt → Nat | .disabled => 0 | .idle => 1 | .busy => 2 | .error => 3
/-- Mode of a port: two sub-ports? -/
def State.mode1 (s : State) (p : Nat) : Bool := s.rf (.port p) 0xA00 31 30 = 1
/-- A group is reserved by a service (R241). -/
def State.reserved (s : State) (g : Nat) : Bool := s.svcs.any (fun e => e.2.blocks.any (fun x => x.1 = g))
/-- Counted misses in the window of R252. -/
def windowMisses (v : Svc) : Nat := (v.window.filter id).length
/-- Word k of defect entry i. -/
def State.dlWord (s : State) (i k : Nat) : Nat := leAt (s.defects.list.getD i []) (4 * k) 4
/-- Extents of the weight store in use. -/
def State.wsUsed (s : State) : Nat := (s.store.slots.map (fun e => e.2.extents)).foldl (· + ·) 0
/-- Endurance in bytes (R278). -/
def wsEndurance : Nat := 4608000 * gib
/-- Fewest unused spares of a bridge's modules. -/
def minSpares (b : Bridge) : Nat :=
  (b.modules.map (fun m => 4 - min 4 m.2.retired.length)).foldl min 4

/-- Least of a list, 0 for an empty one. -/
def minOf : List Nat → Nat
  | [] => 0
  | x :: xs => xs.foldl min x
/-- CV_DONE (R442): how far a scan that runs has come is a free value within its length (log 4). -/
def State.cvDone (s : State) (c : Nat) : Nat :=
  if (s.cv c).st = 1 then
    Config.freeNat (2 ^ 84 + 16 * s.tick + c) % ((s.reg (.cv c) 0x014).toNat * 2 ^ 32 + (s.reg (.cv c) 0x010).toNat + 1)
  else (s.cv c).done
/-- PROGRESS (R449): of a step that runs, or has failed, a free value up to 100 (log 4). -/
def State.buProgress (s : State) : Nat :=
  if s.bu.result = 1 then Config.freeNat (2 ^ 85 + s.tick) % 101
  else if s.bu.result = 4 then Config.freeNat (2 ^ 86 + s.bu.startTick) % 101
  else s.bu.progress
/-- The read-only part of a register. -/
def State.ro (s : State) (b : Blk) (off : Nat) : Nat :=
  if off = 0xFF8 then
    let (o, st) := tabGet (0, 0) s.wstat (blkPage b)
    flagAt (s.pendAny b) 31 + fieldAt o 12 16 + fieldAt st 16 0
  else if off = 0xFFC then tabGet 0 s.errcnt (blkPage b)
  else match b with
  | .mb n => if off = 0x024 then
      fieldAt (mbStNum (s.mb n).st) 2 30 + fieldAt (s.mb n).err 4 24 + fieldAt (s.mb n).rspProd 7 8 +
      fieldAt (s.mb n).cmdCons 7 0 else 0
  | .cv c =>
    let v := s.cv c
    let res := match v.undef with | none => v.result | some n => Config.freeNat n
    if off = 0x004 then fieldAt v.st 2 30 + flagAt v.mismatch 29 + flagAt (8 ≤ c) 28 + fieldAt v.err 4 24 +
      (match v.part with | none => 2 ^ 15 | some p => fieldAt p 3 16)
    else if off = 0x020 then word32 res 0 else if off = 0x024 then word32 res 1
    else if off = 0x030 then word32 (s.cvDone c) 0 else if off = 0x034 then word32 (s.cvDone c) 1 else 0
  | .sub i =>
    if i % 2 = 1 ∧ !s.mode1 (i / 2) then 0
    else if off < 0x170 then tabGet 0 (s.sub i).counters (off / 4)
    else if 0x200 ≤ off ∧ off < 0x20C then
      ((upTo 32).map (fun k => flagAt (tabGet false (s.sub i).half (32 * ((off - 0x200) / 4) + k)) k)).foldl (· + ·) 0
    else 0
  | .port p => if off = 0xA00 then
      flagAt (s.bay (p / 2)).present 29 + flagAt (s.bay (p / 2)).lit 28 + flagAt (s.sub (2 * p + 1)).link 27 +
      flagAt (s.sub (2 * p)).link 26 + fieldAt (s.port p).lanes 8 8 else 0
  | .pw =>
    if off = 0x008 then
      flagAt (s.con.unatt ≠ []) 31 + flagAt s.power.pwrbrk 30 +
      flagAt (s.con.groupThrottle.any (·.2) || s.con.memThrottle.any (·.2)) 29 +
      flagAt s.con.warnNow 28 + fieldAt s.con.avgW 11 0
    else if 0x100 ≤ off ∧ off < 0x180 then
      let g := (off - 0x100) / 4
      let x := s.grp g
      fieldAt x.opp 3 29 + fieldAt x.req 3 26 + fieldAt (x.duty - 1) 3 23 + flagAt (s.reserved g) 22 +
      flagAt x.stretch 21 + flagAt (x.req < x.opp || x.duty < 8) 20
    else if 0x200 ≤ off ∧ off < 0x300 then
      let x := s.grp ((off - 0x200) / 8)
      if off % 8 = 0 then x.stretchCnt % 2 ^ 32 else fieldAt x.abandon 16 16 + fieldAt x.switches 16 0
    else if 0x300 ≤ off ∧ off < 0x310 then
      let d := s.die ((off - 0x300) / 4)
      fieldAt d.tempSensor 8 16 + fieldAt d.tempHot 16 0
    else if 0x310 ≤ off ∧ off < 0x340 then fieldAt (tabGet 0 s.con.memTemp ((off - 0x310) / 4)) 16 0
    else if 0x340 ≤ off ∧ off < 0x350 then fieldAt (s.die ((off - 0x340) / 4)).watts 11 0
    else 0
  | .bu =>
    let u := s.bu
    if off = 0x004 then fieldAt u.result 3 29 + fieldAt u.step 8 16 + fieldAt u.next 8 8 + fieldAt s.buProgress 8 0
    else if off = 0x008 then fieldAt u.cause 8 24 + fieldAt u.detail 24 0
    else if off = 0x00C then flagAt u.g1mode 3 + fieldAt u.slotId 3 0
    else if off = 0x010 then u.session
    else if off = 0x014 then u.startSeq % 2 ^ 32
    else if off = 0x018 then flagAt u.tripDie 31 + flagAt u.tripMem 30 + flagAt u.warm 29 +
      fieldAt u.tripSource 8 16 + fieldAt u.tripTemp 16 0
    else if off = 0x020 then u.degraded
    else if off = 0x024 then u.groupsOff
    else if 0x028 ≤ off ∧ off < 0x040 then word32 s.mem.chanOff ((off - 0x028) / 4)
    else if off = 0x080 then flagAt (s.defects.list.length = 8192) 31 + flagAt u.copyRepaired 30 +
      fieldAt u.newEntries 14 16 + fieldAt s.defects.list.length 14 0
    else if 0x088 ≤ off ∧ off < 0x098 then s.dlWord (s.rf .bu 0x084 12 0) ((off - 0x088) / 4)
    else if off = 0x100 then s.compat.toNat
    else 0
  | .job j =>
    match s.job? j with
    | none => 0
    | some x =>
      let r := x.range
      if off = 0x008 then fieldAt r.clean 16 16 + (if r.phase = 0 then fieldAt r.e 6 0 else 0)
      else if off = 0x00C then fieldAt r.phase 2 30 + flagAt (r.phase ≠ 0) 29 + flagAt r.ovfLast 28 +
        flagAt r.ovfNow 27 + fieldAt r.skips 16 0
      else if off = 0x010 then ceilDiv r.ckptLive 4096
      else if off = 0x014 then ceilDiv r.ckptPeak 4096
      else if off = 0x018 then word32 x.step 0
      else if off = 0x01C then word32 x.step 1
      else if off = 0x024 then r.seq % 2 ^ 32
      else if off = 0x030 then r.torn
      else 0
  | .svc k =>
    match s.svc? k with
    | none => 0
    | some v =>
      let st := match v.st with | .proving => 0 | .registered => 1 | .armed => 2 | .suspended => 3
      let ph := match v.ph with | .idle => 0 | .clean => 1 | .input => 2 | .run => 3 | .writeback => 4
      if off = 0x010 then fieldAt st 3 29 + fieldAt ph 3 26 + flagAt v.pubRegion.isSome 25 +
        flagAt v.pubVerify.isSome 24 + flagAt v.committed 23 + fieldAt (windowMisses v) 2 0
      else if off = 0x014 then v.doneCount % 2 ^ 32
      else if off = 0x018 then fieldAt v.overrun 16 16 + fieldAt v.late 16 0
      else if off = 0x01C then fieldAt v.prod 13 16
      else if off = 0x020 then fieldAt v.taskFault 8 24 + fieldAt v.badDb 8 16 + fieldAt v.earlyDb 8 8 +
        fieldAt v.ringLost 8 0
      else 0
  | .svcDev =>
    if off = 0x000 then word32 s.tick 0 else if off = 0x004 then word32 s.tick 1
    else if off = 0x00C then (s.svcs.map (fun e => e.2.cores.length)).foldl (· + ·) 0 else 0
  | .mem =>
    let h := s.link
    if 0x010 ≤ off ∧ off < 0x028 then word32 s.mem.chanOk ((off - 0x010) / 4)
    else if off = 0x030 then fieldAt s.mem.replay 16 16 + fieldAt s.mem.ue 8 8 + fieldAt s.mem.hole 8 0
    else if off = 0x038 then word32 s.mem.ueAddr 0 else if off = 0x03C then word32 s.mem.ueAddr 1
    else if off = 0x040 then s.mem.ueInfo
    else if off = 0x050 then flagAt s.store.install.isSome 31 + flagAt (wsEndurance * 9 ≤ s.store.wear * 10) 30 +
      flagAt (wsEndurance ≤ s.store.wear) 29 +
      fieldAt ((s.store.slots.filter (fun e => e.2.st ≠ 0)).length) 6 16 + fieldAt (1536 - s.wsUsed) 11 0
    else if off = 0x054 then s.store.wear / gib
    else if off = 0x06C then fieldAt h.auto 16 16 + fieldAt h.denied 8 8 + fieldAt h.afault 8 0
    else if off = 0x070 then flagAt h.cxl 31 + flagAt h.up 30 + flagAt h.detached 29 + fieldAt h.width 8 16 +
      fieldAt h.rate 8 0
    else if off = 0x074 then h.discard
    else 0
  | .part p =>
    if off = 0x004 then flagAt (s.part? p).isSome 31
    else if off = 0x014 then
      let sum := ((s.sec.parts.filter (fun e => e.2.isolated)).map (fun e => e.2.slice)).foldl (· + ·) 0
      let cap := s.rf .pw 0x004 10 0
      let sl := ((s.part? p).map (fun x => if x.isolated then x.slice else 0)).getD 0
      let scaled := decide (cap < sum) && decide (sl ≠ 0)
      flagAt scaled 31 + fieldAt ((s.mailboxes.filter (fun e => e.1 < 56 && e.2.part = some p)).length) 6 11 +
      fieldAt (if scaled then sl * cap / sum else sl) 11 0
    else if off = 0x018 then fieldAt ((tabGet {} s.sec.evqs p).prod) 13 16
    else 0
  | .partDev =>
    if off = 0x000 then flagAt s.sec.identityOk 31 + fieldAt s.sec.keys.length 5 16 +
      ((s.sec.parts.map (fun e => 2 ^ e.1)).foldl (· + ·) 0)
    else if off = 0x008 then fieldAt ((tabGet {} s.sec.evqs 15).prod) 13 16
    else if off = 0x010 then word32 s.sec.enrolSeq 0 else if off = 0x014 then word32 s.sec.enrolSeq 1 else 0
  | .xp j =>
    match s.job? j with
    | none => 0
    | some x =>
      if off = 0x010 then x.retx
      else if off = 0x014 then fieldAt x.nakSent 8 24 + fieldAt x.nakRecv 8 16 + fieldAt x.authFail 8 8 +
        fieldAt x.epochDrop 8 0
      else 0
  | .xpDev =>
    if off = 0x004 then fieldAt s.xp.missDrop 16 16 + fieldAt s.xp.noQp 16 0
    else if off = 0x008 then fieldAt ((s.xp.qps.filter (fun e => e.2.pin)).length) 11 16 +
      fieldAt ((s.xp.qps.filter (fun e => e.2.cached)).length) 13 0
    else 0
  | .iv =>
    if !s.power.cp then (if 0x010 ≤ off ∧ off < 0x020 then fieldAt 0x28 8 8
      else if 0x070 ≤ off ∧ off < 0x080 then fieldAt 4 3 16 else 0)
    else if 0x010 ≤ off ∧ off < 0x020 then
      let d := s.die ((off - 0x010) / 4)
      flagAt d.lowHeadroom 31 + fieldAt d.effective 8 8
    else if 0x020 ≤ off ∧ off < 0x030 then
      let d := s.die ((off - 0x020) / 4)
      fieldAt d.worstChan 8 24 + fieldAt d.worstMargin 8 16 + fieldAt d.retrains 16 0
    else if 0x030 ≤ off ∧ off < 0x048 then
      ((upTo 32).map (fun k => flagAt (s.chan (32 * ((off - 0x030) / 4) + k)).weak k)).foldl (· + ·) 0
    else if 0x050 ≤ off ∧ off < 0x070 then
      let p := s.port ((off - 0x050) / 4)
      fieldAt (minOf (p.headroom.map (·.2))) 8 24 + fieldAt p.relocks 16 0
    else if 0x070 ≤ off ∧ off < 0x080 then
      let b := s.bridge ((off - 0x070) / 4)
      flagAt b.half 31 + flagAt b.out 30 + fieldAt (minSpares b) 3 16 + fieldAt b.swaps 16 0
    else if off = 0x080 then fieldAt s.inv.droopFailed 16 16 + fieldAt s.inv.droopRecals 16 0
    else if off = 0x084 then fieldAt s.inv.held 16 16 + fieldAt s.inv.freezes 16 0
    else 0

/-- Active value of a whole register: its RW fields and its read-only part; WO fields read 0 (R8). -/
def State.active (s : State) (b : Blk) (off : Nat) : Word :=
  let fs := fieldsOf b off
  if b = .bu ∧ off = 0x100 then BitVec.ofNat 32 s.compat.toNat
  else (s.reg b off &&& BitVec.ofNat 32 (maskWhere (fun f => f.acc = .rw) fs)) |||
    (BitVec.ofNat 32 (s.ro b off) &&&
      BitVec.ofNat 32 (maskWhere (fun f => f.acc = .ro || f.acc = .rc || f.acc = .w1c) fs))
/-- Pending mask and value of a register. -/
def State.pending? (s : State) (b : Blk) (off : Nat) : Word × Word := tabGet (0, 0) s.pend (regKey b off)
/-- What a read shows: the pending value where one exists (R10). -/
def State.shown (s : State) (b : Blk) (off : Nat) : Word :=
  mergeBits (s.active b off) (s.pending? b off).1 (s.pending? b off).2

/-- Is the register the low word of a pair read under R20? -/
def isLowWord (b : Blk) (off : Nat) : Bool :=
  match b with
  | .svcDev => off = 0x000
  | .job _ => off = 0x018
  | .mem => off = 0x038
  | .partDev => off = 0x010
  | .cv _ => off = 0x020 || off = 0x030
  | _ => false
/-- Is it the high word? -/
def isHighWord (b : Blk) (off : Nat) : Bool := 4 ≤ off && isLowWord b (off - 4)
/-- What reading clears (RC fields, R8; UPD_CKPT_PEAK then shows the largest sum that arises, R155, log 72). -/
def State.rcClear (s : State) (b : Blk) (off : Nat) : State :=
  if off = 0xFFC then { s with errcnt := tabDel s.errcnt (blkPage b) }
  else match b with
  | .job j =>
    match s.job? j with
    | none => s
    | some x =>
      if off = 0x014 then s.setJob j { x with range := { x.range with ckptPeak := 0 } }
      else if off = 0x030 then s.setJob j { x with range := { x.range with torn := 0 } }
      else s
  | .svc k =>
    match s.svc? k with
    | none => s
    | some v => if off = 0x020 then s.setSvc k { v with taskFault := 0, badDb := 0, earlyDb := 0, ringLost := 0 } else s
  | .mem =>
    if off = 0x030 then { s with mem := { s.mem with replay := 0, ue := 0, hole := 0 } }
    else if off = 0x06C then { s with link := { s.link with auto := 0, denied := 0, afault := 0 } }
    else if off = 0x074 then { s with link := { s.link with discard := 0 } }
    else s
  | .xp j =>
    match s.job? j with
    | none => s
    | some x =>
      if off = 0x010 then s.setJob j { x with retx := 0 }
      else if off = 0x014 then s.setJob j { x with nakSent := 0, nakRecv := 0, authFail := 0, epochDrop := 0 }
      else s
  | .xpDev => if off = 0x004 then { s with xp := { s.xp with missDrop := 0, noQp := 0 } } else s
  | _ => s
/-- One read of a register: its value, and what the read changes. -/
def State.readReg (s : State) (b : Blk) (off : Nat) : Word × State :=
  if isHighWord b off then (tabGet 0 s.snap (regKey b off), s)
  else
    let v := s.shown b off
    let s1 := if isLowWord b off then { s with snap := tabSet s.snap (regKey b (off + 4)) (s.active b (off + 4)) } else s
    (v, s1.rcClear b off)

/-- The mask of the bits that a register's fields with some class and access cover. -/
def clsMask (b : Blk) (off : Nat) (c : Cls) : Word :=
  BitVec.ofNat 32 (maskWhere (fun f => f.acc = .rw && f.cls = c) (fieldsOf b off))
/-- Bits of writable fields. -/
def writableMask (b : Blk) (off : Nat) : Word :=
  BitVec.ofNat 32 (maskWhere (fun f => f.acc = .rw || f.acc = .wo || f.acc = .w1c) (fieldsOf b off))
/-- Bits of any field. -/
def anyMask (b : Blk) (off : Nat) : Word := BitVec.ofNat 32 (maskWhere (fun _ => true) (fieldsOf b off))
/-- The bits that a direct write names (R47): L, WO and W1C fields always, S and B fields only where the
written value differs from what a read returns. -/
def State.directMask (s : State) (b : Blk) (off : Nat) (v : Word) : Word :=
  let shown := s.shown b off
  BitVec.ofNat 32 (maskWhere (fun f =>
    (f.acc = .wo || f.acc = .w1c || (f.acc = .rw && f.cls = .l)) ||
    (f.acc = .rw && (f.cls = .s || f.cls = .b) && fld v f.hi f.lo ≠ fld shown f.hi f.lo)) (fieldsOf b off))

/-- Apply a write to the RW fields of a register: S and L at once, B pending while the block runs
(R45, R49, R50). -/
def State.applyWrite (s : State) (b : Blk) (off : Nat) (mask v : Word) : State :=
  let now := if s.runs b then mask &&& (clsMask b off .s ||| clsMask b off .l)
             else mask &&& (clsMask b off .s ||| clsMask b off .l ||| clsMask b off .b)
  let later := if s.runs b then mask &&& clsMask b off .b else 0
  let s1 := if now = 0 then s else s.setReg b off (mergeBits (s.reg b off) now v)
  if later = 0 then s1
  else
    let (pm, pv) := s1.pending? b off
    { s1 with pend := tabSet s1.pend (regKey b off) (pm ||| later, mergeBits pv later v) }
/-- Why a write of named bits is refused, from the class rules and the register's own limits. -/
def State.writeStatus (s : State) (b : Blk) (off : Nat) (mask v : Word) : Nat :=
  if s.runs b && (mask &&& clsMask b off .s) ≠ 0 then stStatic
  else
    let m1 := match b with | .sub i => s.mode1 (i / 2) | _ => false
    if !valueOk b off m1 (mergeBits (s.shown b off) mask v) then stBadArg
    else if s.runs b && (mask &&& clsMask b off .b) ≠ 0 then stPending else stOk
/-- Boundary at which pending values will apply (R45). -/
def State.nextBoundary (s : State) (b : Blk) : Nat := tabGet 0 s.bseq (blkNum b) + 1

end Sys2Proof.Machine
end

