-- ==== Sys2Proof/Machine/Mailbox.lean ====
section
/-! DEFINITION. The Zorio mailboxes: rings, requests and the order of their checks (R28 to R41),
responses, doorbells, and the shell in which every mailbox command runs. -/

namespace Sys2Proof.Machine

/-- A request as the firmware reads it (R36). `scope` is the mailbox's partition; none for the operator. -/
structure Req where
  mb : Nat
  scope : Option Nat
  op : Nat
  flags : Nat
  len : Nat
  tag : Nat
  words : List Nat
  /-- the argument block, checked (R40, R41) -/
  arg : List Byte := []
deriving DecidableEq, Repr

/-- Payload word i. -/
def Req.w (r : Req) (i : Nat) : Nat := r.words.getD i 0
/-- ARGBLK flag. -/
def Req.argblk (r : Req) : Bool := r.flags.testBit 0
/-- NOINT flag. -/
def Req.noint (r : Req) : Bool := r.flags.testBit 1

/-- What a command's own checks and effect answer: done with status and result bytes from byte 8, or
accepted with its response still due. -/
inductive CmdOut where
  | done (s : State) (status : Nat) (res : List Byte)
  | wait (s : State) (what arg : Nat)
deriving Repr

/-- What a failing check leaves: nothing, but for the record of an uncorrectable line that the firmware met,
whose address stands above bit 16 of the status (R271). -/
def State.noteFail (s : State) (status : Nat) : State :=
  if status < 65536 then s else s.devReadBad (status / 65536 - 1) 1
/-- A failure with a status. -/
def failWith (s : State) (status : Nat) : CmdOut := .done (s.noteFail status) (status % 65536) []
/-- OK with no result. -/
def okNow (s : State) : CmdOut := .done s stOk []

/-- The MB_V2 layout applies to mailbox 0 (R58). -/
def State.v2 (s : State) (mb : Nat) : Bool := mb = 0 && s.compat.getLsbD 2
/-- Bytes of a request slot. -/
def State.slotLen (s : State) (mb : Nat) : Nat := if s.v2 mb then 48 else 64
/-- Base address of the command (0x010) or response (0x018) ring. -/
def State.ringBase (s : State) (mb off : Nat) : Nat :=
  (s.reg (.mb mb) (off + 4)).toNat * 2 ^ 32 + (s.reg (.mb mb) off).toNat
/-- A mailbox's scope: none for mailbox 0; some none-partition gives no rights at all (R25). -/
def State.mbPart (s : State) (mb : Nat) : Option Nat := if mb = 0 then none else (s.mb mb).part
/-- May a ring or block at device address a lie there for this mailbox (R28)? -/
def State.ringOk (s : State) (mb a len : Nat) : Bool :=
  if mb = 0 then s.span none a len = .ok
  else match (s.mb mb).part with
    | none => false
    | some p => s.span (some p) a len = .ok
/-- Read the request slot at the consumer index. -/
def State.readSlot (s : State) (mb : Nat) : Option (List Byte) :=
  let n := s.slotLen mb
  let a := s.ringBase mb 0x010 + n * ((s.mb mb).cmdCons % 64)
  if flag (s.reg (.mb mb) 0x020) 30 then (if s.ringOk mb a n then s.devRead a n else none)
  else if s.link.up ∧ mb < 56 then some (s.hostMem.readN a n) else none
/-- The state after a slot that could not be read: an uncorrectable line of the ring counts as any other
uncorrectable access of the firmware does (R270, R271). -/
def State.slotFail (s : State) (mb : Nat) : State :=
  let n := s.slotLen mb
  let a := s.ringBase mb 0x010 + n * ((s.mb mb).cmdCons % 64)
  if flag (s.reg (.mb mb) 0x020) 30 ∧ s.ringOk mb a n ∧ (s.devRead a n).isNone then s.noteUe (((badIn s.mem.badLines a n).getD 0) * 64) false else s
/-- Parse a request (R36, R58). -/
def parseReq (s : State) (mb : Nat) (bs : List Byte) : Req :=
  { mb := mb, scope := s.mbPart mb, op := leAt bs 0 2, flags := leAt bs 2 1, len := leAt bs 3 1, tag := leAt bs 4 4, words := (upTo (if s.v2 mb then 5 else 7)).map (fun i => leAt bs (8 + 8 * i) 8) }
/-- The mailbox has a request it may execute now (R31, R32). -/
def State.mbReady (s : State) (mb : Nat) : Bool :=
  let m := s.mb mb
  s.fw && m.st = .idle && m.held.isNone && m.exec.isNone && (m.prod + 128 - m.cmdCons) % 128 ≠ 0

/-- Put a mailbox in ERROR (R30). A command that executes and a response that is held are kept: no response is
lost (R32; log 69). -/
def State.mbError (s : State) (mb cause : Nat) : State :=
  s.setMb mb { s.mb mb with st := .error, err := cause }
/-- The state of a mailbox once its command has been answered (R29, R30). -/
def Mailbox.after (m : Mailbox) : MbSt :=
  if m.closing then .disabled else if m.st = .error then .error else .idle
/-- Is the response ring full (R32)? -/
def State.rspFull (s : State) (mb : Nat) : Bool :=
  64 ≤ ((s.mb mb).rspProd + 128 - s.rf (.mb mb) 0x028 6 0) % 128
/-- Write a response into the ring and advance; the interrupt follows (R31, R33). -/
def State.putResponse (s : State) (mb : Nat) (bs : List Byte) (noint : Bool) : State :=
  let m := s.mb mb
  let a := s.ringBase mb 0x018 + 64 * (m.rspProd % 64)
  let dev := flag (s.reg (.mb mb) 0x020) 29
  if dev ∧ !s.ringOk mb a 64 then
    s.setMb mb { m with st := if m.closing then .disabled else .error, err := 3, exec := none, held := none, closing := false }
  else if !dev ∧ !s.link.up then
    (s.hostWrite a bs).setMb mb { m with st := .disabled, exec := none, held := none, closing := false }
  else
    let s1 := if dev then s.devWrite a bs else s.hostWrite a bs
    let s2 := s1.setMb mb { m with rspProd := (m.rspProd + 1) % 128, st := m.after, exec := none, held := none, closing := false }
    let ctrl := s2.reg (.mb mb) 0x020
    if flag ctrl 0 ∧ !noint then s2.msi (fld ctrl 23 16) else s2
/-- A finished response: written, or held while the ring is full (R32). A mailbox that is off takes none. -/
def State.respond (s : State) (mb tag : Nat) (noint : Bool) (status : Nat) (res : List Byte) : State :=
  let bs := natLE 2 status ++ zeros 2 ++ natLE 4 tag ++ pad 56 res
  if (s.mb mb).st = .disabled then s
  else if s.rspFull mb then
    s.setMb mb { s.mb mb with held := some (bs, noint), st := if (s.mb mb).st = .error then .error else .busy, exec := none }
  else s.putResponse mb bs noint
/-- Answer the command that a mailbox waits on. -/
def State.answer (s : State) (mb : Nat) (status : Nat) (res : List Byte) : State :=
  match (s.mb mb).exec with
  | none => s
  | some w => s.respond mb w.tag w.noint status res
/-- Answer every waiting command that a test selects. -/
def State.answerWhere (s : State) (p : Waiting → Bool) (status : Nat) (res : List Byte) : State :=
  (upTo 64).foldl (fun st mb =>
    match (st.mb mb).exec with
    | some w => if p w then st.respond mb w.tag w.noint status res else st
    | none => st) s

/-- Opcodes that a chapter defines (R42). -/
def definedOps : List Nat :=
  [0x0105, 0x0106, 0x0110, 0x0111, 0x0120, 0x0121, 0x0201, 0x0202, 0x0204, 0x0205, 0x0206, 0x0210, 0x0211,
   0x0218, 0x0219, 0x0220, 0x0221, 0x0302, 0x0303, 0x0310, 0x0311, 0x0312, 0x0313, 0x0314, 0x0320, 0x0330,
   0x0401, 0x0402, 0x0403, 0x0404, 0x0405, 0x0406, 0x0407, 0x0408, 0x0409, 0x040A, 0x040C, 0x0410, 0x0411,
   0x0412, 0x0413, 0x0420, 0x0421, 0x0422, 0x0423, 0x0501] ++
  [0x0601, 0x0602, 0x0603, 0x0604, 0x0605, 0x0701, 0x0710, 0x0711, 0x0712, 0x0713, 0x0720, 0x0721, 0x0722,
   0x0810, 0x0818, 0x0819, 0x081A, 0x081B, 0x0820, 0x0821, 0x0822, 0x0828, 0x0829, 0x0901, 0x0A01, 0x0A10,
   0x0A11, 0x0A12, 0x0A13, 0x0A14, 0x0B01, 0x0B10, 0x0B20]

/-- Take the request at the consumer index: the index moves past it (R52). -/
def State.takeReq (s : State) (mb : Nat) : State :=
  let m := s.mb mb
  { s.setMb mb { m with cmdCons := (m.cmdCons + 1) % 128 } with lastMb := mb }
/-- Answer with BAD_OPCODE every leading request whose opcode no chapter defines (R37, R42). -/
def State.drain (s : State) (mb : Nat) : Nat → State
  | 0 => s
  | n + 1 =>
    if !s.mbReady mb then s
    else match s.readSlot mb with
      | none => (s.slotFail mb).mbError mb 2
      | some bs =>
        let r := parseReq s mb bs
        if definedOps.contains r.op then s
        else ((s.takeReq mb).respond mb r.tag r.noint stBadOpcode []).drain mb n

/-- Check and copy an argument block (R40, R41): its bytes, or the failure. -/
def State.argBlock (s : State) (r : Req) : Except Nat (List Byte) :=
  let aw := r.w (r.len - 2)
  let lw := r.w (r.len - 1)
  let a := aw % 2 ^ 63
  let len := lw % 2 ^ 32
  if r.len < 2 ∨ a % 64 ≠ 0 ∨ len % 8 ≠ 0 ∨ len < 8 ∨ 0x100000 < len then .error stBadArg
  else
    let got : Except Nat (List Byte) :=
      if r40Dev aw then
        match s.span r.scope a len with
        | .foreign => .error stNotPerm
        | .aperture => .error stNotPerm
        | .hole => .error stBadArg
        | .ok => s.fwRead a len
      else if 56 ≤ r.mb then .error stNotPerm
      else if s.link.up then .ok (s.hostMem.readN a len) else .error stVerify
    match got with
    | .error e => .error e
    | .ok bs => if crc32c bs = lw / 2 ^ 32 then .ok bs else .error stVerify

/-- How a command takes its payload: LEN without an argument block, and whether it uses one. -/
inductive LenRule where
  /-- exactly n payload words and no argument block; under MB_V2 the words may come from a block (R58) -/
  | exact (n : Nat)
  /-- n payload words before the descriptor of a required block -/
  | block (n : Nat)
  /-- CFG_WRITE (R44) -/
  | cfg
deriving DecidableEq, Repr

/-- LEN matches the command (R37); the flag says that the payload itself comes from a block (R58). -/
def lenOk (v2 : Bool) (r : Req) : LenRule → Bool × Bool
  | .exact n => if v2 && r.argblk && r.len = 2 then (true, true) else (r.len = n && !r.argblk, false)
  | .block n => (r.len = n + 2 && r.argblk, false)
  | .cfg => if r.argblk then (r.len = 2 || r.len = 3, false)
            else (r.len = 1 + 2 * (r.w 0 % 4) && r.w 0 % 4 ≠ 0, false)

/-- Run a mailbox command: the order of R37, then its body; the request is consumed, the response
written, and undefined requests behind it are answered (R31). With no such request at the front of the
ring nothing happens (log 14). -/
def runCmd (s : State) (mb op : Nat) (rule : LenRule) (operatorOnly : Bool)
    (body : State → Req → CmdOut) : State :=
  if !s.mbReady mb then s
  else match s.readSlot mb with
    | none => (s.slotFail mb).mbError mb 2
    | some bs =>
      let r := parseReq s mb bs
      if r.op ≠ op then s
      else
        let s1 := s.takeReq mb
        let fin := fun (st : Nat) => ((s1.noteFail st).respond mb r.tag r.noint (st % 65536) []).drain mb 64
        let (okLen, inBlock) := lenOk (s.v2 mb) r rule
        if !okLen ∨ (if s.v2 mb then 5 else 7) < r.len then fin stBadLength
        else if (if s.v2 mb then r.flags / 2 else r.flags / 4) ≠ 0 then fin stBadArg
        else if (mb ≠ 0 ∧ r.scope = none) ∨ (operatorOnly ∧ mb ≠ 0) ∨
            (mb = 0 ∧ s.link.detached ∧ op ≠ 0x0105 ∧ op ≠ 0x0111) then fin stNotPerm
        else
          let go := fun (r : Req) =>
            match body s1 r with
            | .done s2 st res => (s2.respond mb r.tag r.noint st res).drain mb 64
            | .wait s2 what arg => s2.setMb mb { s2.mb mb with st := .busy, exec := some ⟨op, r.tag, r.noint, what, arg⟩ }
          if r.argblk then
            match s1.argBlock r with
            | .error e => fin e
            | .ok a => if inBlock then go { r with words := (upTo 7).map (fun i => leAt a (8 * i) 8) } else go { r with arg := a }
          else go r

/-- ENABLE changes from 0 to 1 (R29). -/
def State.mbEnable (s : State) (n : Nat) : State :=
  (s.setMb n { s.mb n with st := .idle, err := 0, cmdCons := 0, prod := 0, rspProd := 0, held := none, exec := none, closing := false }).setReg
    (.mb n) 0x028 0
/-- ENABLE is cleared: at once when no command executes and no response is held, else after the response is
written (R29, R32). -/
def State.mbDisable (s : State) (n : Nat) : State :=
  let m := s.mb n
  if m.exec.isSome ∨ m.held.isSome then s.setMb n { m with closing := true }
  else (s.setMb n { m with st := .disabled, err := 0, held := none }).boundary (.mb n)
/-- A doorbell value for a mailbox that runs (R30); one that is off, is being switched off or is in ERROR takes
none. -/
def State.doorbell (s : State) (n prod : Nat) : State :=
  let m := s.mb n
  if m.st = .disabled ∨ m.st = .error ∨ m.closing then s
  else
    let dist := (prod + 128 - m.cmdCons) % 128
    let prev := (m.prod + 128 - m.cmdCons) % 128
    if dist ≤ 64 ∧ prev ≤ dist then (s.setMb n { m with prod := prod }).drain n 64
    else s.mbError n 1
/-- The response consumer index moves: a held response is written (R32). -/
def State.rspConsMoved (s : State) (n : Nat) : State :=
  match (s.mb n).held with
  | none => s
  | some (bs, noint) => if s.rspFull n then s else (s.putResponse n bs noint).drain n 64

end Sys2Proof.Machine
end

