-- ==== Sys2Proof/Machine/Deque.lean ====
section
/-! DEFINITION. Task descriptors (R122, R123) and deques: what enters a deque when an entry frees (R132,
R139, R187). -/

namespace Sys2Proof.Machine

/-! ### Descriptor words (R122, R123) -/

/-- Word i of a descriptor. -/
def Task.word (t : Task) (i : Nat) : Nat := t.w.getD i 0
/-- KIND -/
def Task.kind (t : Task) : Nat := bitsOf (t.word 0) 3 0
/-- PHASE -/
def Task.phase (t : Task) : Nat := bitsOf (t.word 0) 6 4
/-- STEAL: 0 PINNED, 1 GROUP, 2 DIE, 3 ANY -/
def Task.steal (t : Task) : Nat := bitsOf (t.word 0) 8 7
/-- HOME -/
def Task.home (t : Task) : Nat := bitsOf (t.word 0) 28 18
/-- DUR -/
def Task.dur (t : Task) : Nat := bitsOf (t.word 0) 41 29
/-- INVAL -/
def Task.inval (t : Task) : Bool := (t.word 0).testBit 15
/-- CPL -/
def Task.cpl (t : Task) : Bool := (t.word 0).testBit 17
/-- SIG_ID, relative to the job's base -/
def Task.sigId (t : Task) : Nat := bitsOf (t.word 1) 61 48
/-- SIG_INC -/
def Task.sigInc (t : Task) : Nat := bitsOf (t.word 2) 63 48
/-- RSEG -/
def Task.rseg (t : Task) : Nat := bitsOf (t.word 4) 63 48
/-- VERSION as the descriptor has it -/
def Task.verTag (t : Task) : Nat := bitsOf (t.word 0) 61 42
/-- The four wait entries that NWAIT uses: counter, MODE, threshold. -/
def Task.waits (t : Task) : List (Nat × Bool × Nat) :=
  (upTo (min 4 (bitsOf (t.word 0) 14 12))).map (fun i =>
    (bitsOf (t.word (i + 1)) 13 0, (t.word (i + 1)).testBit 14, bitsOf (t.word (i + 1)) 47 16))

/-! ### Deques (R135) -/

/-- The first element that satisfies a test, taken out of a list. -/
def takeFirst {α : Type} (p : α → Bool) : List α → Option (α × List α)
  | [] => none
  | a :: t => if p a then some (a, t) else (takeFirst p t).map (fun r => (r.1, a :: r.2))
/-- An internal Bronze task of section i of an update (R187): phase U, class GROUP, DUR 0. -/
def sectionOf (u : Upd) (layer i : Nat) : Task :=
  { owner := u.task.owner, w := [8 + 3 * 16 + 128 + bitsOf (u.task.word 0) 11 9 * 512 + u.task.home * 2 ^ 18], sec := some (layer, i) }
/-- Is it an internal task of this job's update of a layer? -/
def isSection (j layer : Nat) (t : Task) : Bool :=
  decide (t.owner = .job j) && (match t.sec with | some (l, _) => decide (l = layer) | none => false)
/-- Push an internal task at the head of a deque, behind those of its update that already stand there. -/
def pushSection (j layer : Nat) (t : Task) (d : List Task) : List Task :=
  d.takeWhile (isSection j layer) ++ [t] ++ d.dropWhile (isSection j layer)
/-- A returned task that waits for core c, with the job whose walker then no longer holds it (R139). -/
def returnedFor (c : Nat) (x : Job) : Option (Task × Job) :=
  (takeFirst (fun e : Nat × Walker => e.2.returned.any (fun t => t.home = c)) x.walkers).bind (fun e =>
    (takeFirst (fun t : Task => t.home = c) e.1.2.returned).map (fun r =>
      (r.1, { x with walkers := tabSet x.walkers e.1.1 { e.1.2 with returned := r.2 } })))
/-- A held release for core c, with the job whose walker then no longer holds it (R132). -/
def heldFor (c : Nat) (x : Job) : Option (Task × Job) :=
  (takeFirst (fun e : Nat × Walker => e.2.held.any (fun t => t.home = c)) x.walkers).bind (fun e =>
    (takeFirst (fun t : Task => t.home = c) e.1.2.held).map (fun r =>
      (r.1, { x with walkers := tabSet x.walkers e.1.1 { e.1.2 with held := r.2 } })))
/-- The first job for which a search finds something, lowest id first. -/
def firstJob {α : Type} (f : Job → Option (α × Job)) : Tab Job → Option (Nat × α × Job)
  | [] => none
  | (j, x) :: t => match f x with | some r => some (j, r.1, r.2) | none => firstJob f t
/-- The next internal task of an update on core c that still waits for an entry (R187). -/
def sectionFor (c : Nat) (x : Job) : Option ((Nat × Task) × Job) :=
  (x.upds.find? (fun e => decide (e.2.core = c) && decide (e.2.toPush ≠ 0))).map (fun e =>
    ((e.1, sectionOf e.2 e.1 (e.2.sections - e.2.toPush)), { x with upds := tabSet x.upds e.1 { e.2 with toPush := e.2.toPush - 1 } }))
/-- Fill free entries of core c's deque: returned tasks at the head, then internal tasks at the head, then
held releases at the tail; at most `n` of them (R132, R139, R187). -/
def State.refill (s : State) (c : Nat) : Nat → State
  | 0 => s
  | n + 1 =>
    let k := s.core c
    if 32 ≤ k.deque.length then s
    else match firstJob (returnedFor c) s.jobs with
      | some (j, t, x) => ((s.setJob j x).setCore c { k with deque := t :: k.deque }).refill c n
      | none => match firstJob (sectionFor c) s.jobs with
        | some (j, (l, t), x) => ((s.setJob j x).setCore c { k with deque := pushSection j l t k.deque }).refill c n
        | none => match firstJob (heldFor c) s.jobs with
          | some (j, t, x) => ((s.setJob j x).setCore c { k with deque := k.deque ++ [t] }).refill c n
          | none => s
/-- Fill free entries of every deque. -/
def State.refillAll (s : State) : State := s.cores.foldl (fun st e => st.refill e.1 32) s

end Sys2Proof.Machine
end

