-- ==== Sys2Proof/Machine/Fence.lean ====
section
/-! DEFINITION. What one fault sets off across blocks: MAC counters and frames offered to a sub-port,
transport packets, flushing and failing queue pairs (R358, R366), what stopping a task does to its core
(R93, R114), and the fence of a job (R467 to R474). -/

namespace Sys2Proof.Machine

/-! ### ALERT_N -/

/-- Set bits of ALERT_CAUSE; a bit that rises asserts ALERT_N (R487). -/
def State.alertOn (s : State) (bit : Nat) : State :=
  if s.power.alertCause.testBit bit then s
  else { s with power := { s.power with alertCause := s.power.alertCause + 2 ^ bit, alert := true } }

/-! ### Counters and frames of a sub-port -/

/-- Does the sub-port exist in its port's mode (R321)? -/
def State.subExists (s : State) (i : Nat) : Bool := i % 2 = 0 || s.mode1 (i / 2)
/-- Add to a statistics counter; its HALF bit and vector follow R337. -/
def State.bump (s : State) (i idx n : Nat) : State :=
  let p := s.sub i
  let c := tabGet 0 p.counters idx
  let c2 := c + n
  let hit := if s.compat.getLsbD 1 then decide (2 ^ 32 ≤ c2)
    else (decide (c < 2 ^ 31) && decide (2 ^ 31 ≤ c2)) || decide (2 ^ 32 + 2 ^ 31 ≤ c2)
  let was := tabGet false p.half idx
  let p1 := { p with counters := tabSet p.counters idx (c2 % 2 ^ 32), half := if hit then tabSet p.half idx true else p.half }
  let s1 := s.setSub i p1
  let ctrl := s.reg (.sub i) 0x800
  if hit ∧ !was ∧ flag ctrl 28 then s1.msi (fld ctrl 23 16) else s1
/-- Offer a frame for transmission: discarded and counted while the link is down (R324). -/
def State.offer (s : State) (i : Nat) (f : TxFrame) : State :=
  if (s.sub i).link then s.setSub i { s.sub i with txQ := (s.sub i).txQ ++ [f] } else s.bump i 73 1

/-! ### Packets -/

/-- Length of a transport frame (R341). -/
def State.frameLen (s : State) (job i payload : Nat) : Nat :=
  14 + (if flag (s.reg (.sub i) 0x800) 29 then 4 else 0) +
  (if flag (s.reg (.xp job) 0x000) 30 then 40 else 20) + 8 + 56 + payload + 16 + 4
/-- Sub-ports named by a mask, ascending (R345). -/
def maskSubs (mask : Nat) : List Nat := (upTo 16).filter (fun i => mask.testBit i)
/-- The sub-port of path j of a QP (R345). -/
def pathSub (q : Qp) (j : Nat) : Nat :=
  let m := maskSubs q.mask
  m.getD (j % m.length) 0
/-- An empty packet of a QP (R342). -/
def mkPkt (qpn : Nat) (q : Qp) (typ : Nat) : Packet :=
  { version := 2, typ := typ, retx := false, rctrEn := false, path := 0, epoch := q.epoch, dstQpn := q.peerQpn, srcQpn := qpn, psn := 0, msn := 0, msgPsn0 := 0, msgPkts := 0, rinc := 0, taddr := 0, rkey := 0, rctr := 0, txc := 0, payload := [] }
/-- Send a packet on a path: TXC rises by one for every packet (R348); the peer counts as sent to on that
rail (R471). -/
def State.sendPkt (s : State) (qpn path cls : Nat) (p : Packet) : State :=
  match s.qp? qpn with
  | none => s
  | some q =>
    let i := pathSub q path
    let p1 := { p with path := path, txc := q.txc }
    let s1 := s.setQp qpn { q with txc := q.txc + 1 }
    let ect := flag (s.reg (.sub i) (0x820 + 4 * cls)) 7
    let s2 := s1.offer i { len := s.frameLen q.job i p.payload.length, cls := cls, ect := ect, packet := some p1 }
    match s2.job? q.job with
    | none => s2
    | some x => s2.setJob q.job { x with sentTick := tabSet x.sentTick (q.peer * 16 + i) s.tick }

/-- The completion record of a WR (R365). -/
def State.wrRecord (s : State) (q : Qp) (qpn : Nat) (w : List Nat) (status bytes : Nat) : State :=
  let a := w.getD 6 0
  if a = 0 ∨ s.span (some q.part) (addrOf a) 16 ≠ .ok then s
  else s.devWrite (addrOf a) (natLE 2 status ++ natLE 2 qpn ++ natLE 4 (w.getD 7 0) ++ natLE 8 bytes)
/-- Disarm every trigger of a QP, writing FLUSHED records (R358). -/
def State.flushTriggers (s : State) (qpn : Nat) (q : Qp) : State :=
  s.xp.triggers.foldl (fun st e =>
    if e.2.armed ∧ bitsOf (e.2.w.getD 7 0) 47 32 = qpn then
      let st1 := st.wrRecord q qpn e.2.w 1 0
      { st1 with xp := { st1.xp with triggers := tabSet st1.xp.triggers e.1 { e.2 with armed := false } } }
    else st) s
/-- Destroy a QP: its QPN is not assigned again in this epoch (R347). -/
def State.freeQp (s : State) (qpn : Nat) (q : Qp) : State :=
  let xp := { s.xp with qps := tabDel s.xp.qps qpn, retired := tabSet s.xp.retired qpn (q.job, q.epoch), triggers := s.xp.triggers.filter (fun e => bitsOf (e.2.w.getD 7 0) 47 32 ≠ qpn) }
  { s with xp := xp }
/-- A dying QP that has nothing left goes, and XP_QP_DESTROY answers (R367). -/
def State.reapQp (s : State) (qpn : Nat) : State :=
  match s.qp? qpn with
  | none => s
  | some q => if q.dying ∧ q.wrs = [] ∧ q.unacked = [] then (s.freeQp qpn q).answerWhere (fun w => w.op = 0x081A && w.what = qpn) stOk [] else s
/-- A QP enters ERROR: the first WR of `failed` gets the status, every other FLUSHED (R358, R366). -/
def State.qpFlush (s : State) (qpn cause : Nat) (failed : Option Nat) : State :=
  match s.qp? qpn with
  | none => s
  | some q =>
    let s1 := q.wrs.foldl (fun st w =>
      st.wrRecord q qpn w.w (if failed = some w.num then cause else 1) 0) s
    let s3 := s1.flushTriggers qpn q
    let q1 := { q with st := .error, cause := cause, wrs := [], unacked := [], probes := [], resp := [], ackTick := none, sqCons := q.sqProd }
    (s3.setQp qpn q1).reapQp qpn

/-! ### Cores -/

/-- Forget both weight slots (R93). -/
def invalidSlots (c : CoreS) : CoreS :=
  { c with slotA := { c.slotA with valid := false, used := 0 }, slotB := { c.slotB with valid := false, used := 0 } }
/-- Clear the accumulator memory of a core, with its flags (R114). -/
def State.clearAcc (s : State) (c : Nat) : State :=
  { s with acc := s.acc.filter (fun e => e.1 / 40960 ≠ c), accFlags := s.accFlags.filter (fun e => e.1 / 512 ≠ c), accGen := tabSet s.accGen c 0 }
/-- Accumulator entry: zero once cleared, a free value of the core's generation since power-on (R117). -/
def State.accGet (s : State) (c row e : Nat) : Word :=
  match tabFind s.acc (c * 40960 + row * 80 + e) with
  | some v => v
  | none =>
    let g := tabGet s.era s.accGen c
    if g = 0 then 0 else Config.freeWord (g * 0x8000000 + c * 40960 + row * 80 + e)
/-- Set an accumulator entry. -/
def State.accSet (s : State) (c row e : Nat) (v : Word) : State :=
  { s with acc := tabSet s.acc (c * 40960 + row * 80 + e) v }
/-- SAT (bit 0) and NONFIN (bit 1) of a tile row (R72). -/
def State.rowFlags (s : State) (c row : Nat) : Nat := tabGet 0 s.accFlags (c * 512 + row)
/-- Set the flags of a tile row. -/
def State.setRowFlags (s : State) (c row v : Nat) : State := { s with accFlags := tabSet s.accFlags (c * 512 + row) v }
/-- Stop the running task at once under R114: slots invalid, passes discarded, accumulator rows cleared. -/
def State.stopCore (s : State) (c : Nat) : State :=
  ((s.setCore c (invalidSlots { s.core c with run := none })).clearAcc c)
/-- The job of a running task. -/
def runJob (c : CoreS) : Option Nat :=
  match c.run with
  | none => none
  | some r => match r.task.owner with | .job j => some j | _ => none

/-! ### Fencing -/

/-- The rails (sub-ports) and QPs of a job that are in RTS: (qpn, QP). -/
def State.rtsQps (s : State) (j : Nat) : List (Nat × Qp) :=
  s.xp.qps.filter (fun e => decide (e.2.job = j) && decide (e.2.st = .rts))
/-- Peers and rails of a job: (peer, sub-port, lowest QPN) (R468, R471). -/
def State.jobRails (s : State) (j : Nat) : List (Nat × Nat × Nat) :=
  (s.rtsQps j).foldl (fun acc e =>
    (maskSubs e.2.mask).foldl (fun a i =>
      if a.any (fun x => x.1 = e.2.peer && x.2.1 = i) then a else a ++ [(e.2.peer, i, e.1)]) acc) []
/-- The CTRL payload (R473). -/
def ctrlPayload (kind cause origin sender epoch step tick : Nat) : List Byte :=
  natLE 1 kind ++ natLE 1 cause ++ natLE 1 origin ++ natLE 1 sender ++ natLE 4 epoch ++ natLE 8 step ++
  natLE 8 tick ++ zeros 8
/-- The path of a QP that leaves from a sub-port. -/
def railPath (q : Qp) (i : Nat) : Nat := ((upTo q.npath).find? (fun j => pathSub q j = i)).getD 0
/-- Send a CTRL packet on a rail's lowest QP, class 3. -/
def State.sendCtrl (s : State) (qpn i : Nat) (payload : List Byte) : State :=
  match s.qp? qpn with
  | none => s
  | some q => s.sendPkt qpn (railPath q i) 3 { mkPkt qpn q 9 with payload := payload }
/-- This device's member index: that of the job's map, or of its last key share. -/
def selfIdx (x : Job) : Nat := match x.map with | some m => m.self | none => (x.share.map (·.self)).getD 0
/-- Erase a job's entries from every deque. -/
def dropTasks (j : Nat) (c : CoreS) : CoreS := { c with deque := c.deque.filter (fun t => t.owner ≠ .job j) }

/-- The step boundary of a job's registers: a step size that takes effect counts in UPD_STEP_SEQ (R195). -/
def State.jobBoundary (s : State) (j : Nat) : State :=
  let hit := (s.pending? (.job j) 0x020).1 ≠ 0
  let s1 := s.boundary (.job j)
  if !hit then s1
  else match s1.job? j with
    | none => s1
    | some x => s1.setJob j { x with range := { x.range with seq := (x.range.seq + 1) % 2 ^ 32 } }

/-- Remove a measurement. -/
def State.unmeasure (s : State) (kind inst : Nat) : State :=
  { s with sec := { s.sec with measures := s.sec.measures.filter (fun x => !(decide (x.kind = kind) && decide (x.inst = inst))) } }
/-- A job goes (R140, R347, R424): its counters are free, its queue pairs, regions and triggers go with it,
and its registers read their reset values (log 38). -/
def State.unloadJob (s : State) (j : Nat) : State :=
  let mine := s.xp.qps.filter (fun e => e.2.job = j)
  let snaps := ((s.job? j).map (fun x => x.snaps)).getD []
  let used := fun (i : Nat) => (snaps.filter (fun n => n.region = i)).length
  let s0 := { s with mem := { s.mem with regions := tabMap (fun i (r : Region) => { r with writers := r.writers - used i }) s.mem.regions } }
  let s1 := mine.foldl (fun st e => (st.freeQp e.1 e.2).answerWhere (fun w => w.op = 0x081A && w.what = e.1) stOk []) s0
  let regs := tabMap (fun _ (r : XpRegion) => if r.job = j then { r with valid := false, revoking := r.valid || r.revoking } else r) s1.xp.regions
  let xp := { s1.xp with regions := regs, retired := s1.xp.retired.filter (fun e => e.2.1 ≠ j) }
  let s2 := { s1 with xp := xp, jobs := tabDel s1.jobs j, cores := tabMap (fun _ c => dropTasks j c) s1.cores }
  (s2.dropRegs (.job j)).dropRegs (.xp j)
/-- A Pewter program that is being stopped has no job and no service left: its mailbox is unbound, and
PEWTER_STOP answers (R309). -/
def State.pewterDone (s : State) (h : Nat) : State :=
  match tabFind s.pewter h with
  | none => s
  | some p =>
    if !p.stopping ∨ s.jobs.any (fun e => e.2.mailbox = 56 + h) ∨ s.svcs.any (fun e => e.2.mailbox = 56 + h) then s
    else
      let s1 := { s with pewter := tabDel s.pewter h, mailboxes := tabDel s.mailboxes (56 + h) }
      ((s1.unmeasure 3 h).dropRegs (.mb (56 + h))).answerWhere (fun w => w.op = 0x0121 && w.what = 56 + h) stOk []
/-- A job of a Pewter program that is being stopped is unloaded once it no longer runs (R309). -/
def State.pewterJob (s : State) (j : Nat) : State :=
  match s.job? j with
  | none => s
  | some x =>
    if x.mailbox < 56 ∨ jobRuns x ∨ !((tabFind s.pewter (x.mailbox - 56)).any (fun p => p.stopping)) then s
    else (s.unloadJob j).pewterDone (x.mailbox - 56)

/-- Fence a job (R467 to R470): the six actions of R468 in order. A job that does not run is not fenced;
a further cause on a fenced job is only counted. -/
def State.fence (s : State) (j cause origin originCause tstatus core : Nat) : State :=
  match s.job? j with
  | none => s
  | some x =>
    if x.st = .fenced then
      match x.fault with
      | none => s
      | some f => s.setJob j { x with fault := some { f with more := f.more + 1 } }
    else if !jobRuns x then s
    else
      let me := selfIdx x
      let org := if cause = 0x0C then origin else me
      let oc := if cause = 0x0C then originCause else cause
      let fi : FaultInfo := ⟨cause, org, oc, x.epoch, x.step, s.tick, 0, tstatus, core⟩
      -- 1: no release, no boundary, no commit
      let x1 := { x with st := .fenced, walkers := [], colls := [], upds := [], fault := some fi, share := none }
      let s1 := { s.setJob j x1 with cores := tabMap (fun _ c => dropTasks j c) s.cores }
      -- 2: three copies of the notice to every peer on every rail
      let pay := ctrlPayload 2 oc org me x.epoch x.step s.tick
      let s2 := (s1.jobRails j).foldl (fun st r => ((st.sendCtrl r.2.2 r.2.1 pay).sendCtrl r.2.2 r.2.1 pay).sendCtrl r.2.2 r.2.1 pay) s1
      -- 3: running tasks stop
      let s3 := s2.cores.foldl (fun st c => if runJob c.2 = some j then st.stopCore c.1 else st) s2
      -- 4: the transport (R366)
      let s4 := s3.xp.qps.foldl (fun st e => if e.2.job = j then st.qpFlush e.1 7 none else st) s3
      let regs := tabMap (fun _ (r : XpRegion) => if r.job = j then { r with valid := false, revoking := r.valid || r.revoking } else r) s4.xp.regions
      let qps := tabMap (fun _ (q : Qp) => if q.job = j then { q with key := none } else q) s4.xp.qps
      let s5 := { s4 with xp := { s4.xp with regions := regs, qps := qps } }
      -- 5: the pairwise keys (R421); pending values take effect (R54)
      let s6 := match s5.job? j with
        | none => s5
        | some y => s5.setJob j { y with keys := [], fencedEpochs := x.epoch :: y.fencedEpochs }
      let s7 := (s6.jobBoundary j).boundary (.xp j)
      -- 6: the event
      let s8 := s7.refillAll.raise 0x3001 [x.part] true x.part
        (natLE 2 j ++ natLE 1 cause ++ natLE 1 org ++ natLE 4 x.epoch ++ natLE 8 x.step)
      (s8.answerWhere (fun w => w.op = 0x0403 && w.what = j) stOk []).pewterJob j

/-- A QP fails: QP_FATAL is raised and the job is fenced when it runs (R358, R369). -/
def State.qpFail (s : State) (qpn cause : Nat) (failed : Option Nat) : State :=
  match s.qp? qpn with
  | none => s
  | some q =>
    let s1 := s.qpFlush qpn cause failed
    let s2 := s1.raise 0x3005 [q.part] true q.part (natLE 2 q.job ++ natLE 2 qpn ++ natLE 1 cause)
    s2.fence q.job 0x08 0 0 0 0

/-- A failed task of a job writes its record whether or not CPL is 1 (R144, R145). -/
def State.taskRecord (s : State) (x : Job) (t : Task) (r : Result) (core cycles : Nat) : State :=
  let idx := bitsOf (t.w.getD 3 0) 63 48
  let bs := natLE 4 r.num0 ++ natLE 4 r.num1 ++ natLE 2 r.status ++ natLE 2 core ++ natLE 4 (min cycles 0xFFFFFFFF)
  if x.cplCount ≤ idx then s else s.devWrite (x.cpl + 16 * idx) bs

end Sys2Proof.Machine
end

