-- ==== Sys2Proof/Machine/Security.lean ====
section
/-! DEFINITION. Electrum and partitions: signed images (R412 to R416), the certificate and the
attestation report (R411, R417 to R420), job key shares (R424, R425), partitions (R427 to R434), event
queues (R432). -/

namespace Sys2Proof.Machine

/-- A SHAKE256 digest of 64 bytes (R412). -/
def shake (bs : List Byte) : List Byte := Config.shake256 bs 64
/-- A block with a field set to 0. -/
def zeroed (bs : List Byte) (lo n : Nat) : List Byte := putAt bs lo (zeros n)
/-- The 256-byte identity certificate (R411). -/
def certificate : List Byte := (upTo 256).map Config.idCert
/-- Module serial number (R411). -/
def serialBytes : List Byte := (upTo 16).map Config.serial
/-- The public key that a KEY_ID names: Tamorist's for 0, else an enrolled key's whose USAGE bit and
PARTMASK allow it (R414, R415). -/
def State.keyFor (s : State) (id usageBit : Nat) (part : Option Nat) : Option (List Byte) :=
  if id = 0 then none
  else (s.sec.keys.find? (fun k => decide (k.id = id) && k.usage.testBit usageBit &&
    (match part with | none => true | some p => k.partmask.testBit p))).map (·.pub)
/-- Verify a signed image by its 256-byte block (R413, R414): the measurement if it verifies. -/
def State.verifyImage (s : State) (block img : List Byte) (kind : Nat) (part : Option Nat) : Option (Nat × List Byte) :=
  let id := leAt block 8 4
  let body := zeroed block 28 114 ++ img
  let key := if kind ≤ 2 then (if id = 0 then some (Config.vendorKey 0) else none)
    else s.keyFor id (if kind = 3 then 2 else 1) part
  match key with
  | none => none
  | some k =>
    if leAt block 0 4 = 0x53474732 ∧ leAt block 4 2 = 0x0100 ∧ leAt block 6 2 = kind ∧
       leAt block 16 8 = img.length ∧ Config.ed448Verify k (shake body) ((block.drop 28).take 114)
    then some (id, shake (block ++ img)) else none
/-- Add a measurement, replacing the one of the same kind and instance (R419). -/
def State.measure (s : State) (m : Measure) : State :=
  { s with sec := { s.sec with measures := s.sec.measures.filter (fun x => !(decide (x.kind = m.kind) && decide (x.inst = m.inst))) ++ [m] } }
/-- Insert by ascending key. -/
def insertBy {α : Type} (f : α → Nat) (x : α) : List α → List α
  | [] => [x]
  | y :: t => if f x < f y then x :: y :: t else y :: insertBy f x t
/-- Sort by ascending key. -/
def sortBy {α : Type} (f : α → Nat) (l : List α) : List α := l.foldl (fun a x => insertBy f x a) []

/-- Overflow CORE entries in ascending physical core id (R459). -/
def State.ovfCores (s : State) : List Defect :=
  sortBy (fun e => leAt e 8 2) (s.defects.overflow.filter (fun e => leAt e 0 1 = 1))
/-- The defect-list digest (R459). -/
def State.defectDigest (s : State) : List Byte :=
  shake (natLE 4 s.defects.list.length ++ s.defects.list.flatten ++ natLE 4 s.ovfCores.length ++ s.ovfCores.flatten)
/-- A partition entry of the report (R418). -/
def partEntry (p : Option Partn) : List Byte :=
  match p with
  | none => zeros 12
  | some x => natLE 4 x.groups ++ natLE 1 x.setFirst ++ natLE 1 x.setCount ++
      natLE 1 (1 + flagAt x.isolated 1) ++ natLE 1 0 ++ natLE 2 x.slice ++ natLE 2 0
/-- The entries a scope sees (R420). -/
def State.reportEntries (s : State) (scope : Option Nat) : List Measure :=
  sortBy (fun m => m.kind * 65536 + m.inst) (s.sec.measures.filter (fun m =>
    match scope with
    | none => true
    | some p => decide (m.owner = 0xFF ∧ m.kind ≠ 5) || decide (m.owner = p) ||
        (decide (m.kind = 5) && (tabGet {} s.store.slots m.inst).granted.testBit p)))
/-- The signed attestation report (R418, R419). -/
def State.report (s : State) (scope : Option Nat) (nonce : List Byte) : List Byte :=
  let es := s.reportEntries scope
  let len := 256 + 80 * es.length + 128
  let parts := (upTo 8).flatMap (fun p => if scope = none ∨ scope = some p then partEntry (s.part? p) else zeros 12)
  let body := natLE 4 0x41544732 ++ natLE 2 0x0100 ++ natLE 2 es.length ++ natLE 4 len ++
    natLE 1 (scope.getD 0xFF) ++ zeros 3 ++ serialBytes ++ pad 32 nonce ++ pad 64 s.defectDigest ++
    natLE 4 s.compat.toNat ++ natLE 4 (s.ro .bu 0x00C) ++ natLE 4 0x0302 ++ natLE 4 s.bu.degraded ++ parts ++ zeros 16 ++
    es.flatMap (fun m => natLE 1 m.kind ++ natLE 1 m.owner ++ zeros 2 ++ natLE 4 m.keyId ++ natLE 8 m.inst ++ pad 64 m.digest)
  body ++ pad 114 (Config.ed448Sign (shake body)) ++ zeros 14

/-- Why an output at an address of the R40 form is refused; none when it may be written. -/
def State.outBad (s : State) (r : Req) (w len : Nat) : Option Nat :=
  if r40Dev w then
    match s.span r.scope (w % 2 ^ 63) len with
    | .ok => none
    | .hole => some stBadArg
    | _ => some stNotPerm
  else if 56 ≤ r.mb then some stNotPerm else none

/-- SEC_IDENTITY (R417). -/
def cmdSecIdentity (s : State) (r : Req) : CmdOut :=
  if r.w 0 % 64 ≠ 0 then failWith s stBadArg
  else match s.outBad r (r.w 0) 256 with
    | some e => failWith s e
    | none => okNow (s.r40Write (r.w 0) certificate)
/-- SEC_IDENTITY. -/
def execSecIdentity (mb : MbId) (s : State) : Out := .next (runCmd s mb.val 0x0210 (.exact 1) false cmdSecIdentity)

/-- SEC_ATTEST (R418). -/
def cmdSecAttest (s : State) (r : Req) : CmdOut :=
  let rep := s.report r.scope ((upTo 4).flatMap (fun i => natLE 8 (r.w i)))
  match s.outBad r (r.w 4) rep.length with
  | some e => failWith s e
  | none => .done (s.r40Write (r.w 4) rep) stOk (natLE 4 rep.length)
/-- SEC_ATTEST. -/
def execSecAttest (mb : MbId) (s : State) : Out := .next (runCmd s mb.val 0x0211 (.exact 5) false cmdSecAttest)

/-- The authority of an enrolment or removal (R416): the status, 0 when it passes. -/
def State.enrolAuth (s : State) (a : List Byte) (enrol : Bool) : Nat :=
  let auth := leAt a 136 4
  if enrol ∧ s.sec.keys = [] then (if auth = 0 then stOk else stVerify)
  else match s.keyFor auth 4 none with
    | none => stVerify
    | some k =>
      if !Config.ed448Verify k (shake (a.take 140)) ((a.drop 140).take 114) then stVerify
      else if leAt a 128 8 ≤ s.sec.enrolSeq then stVerify else stOk
/-- SEC_KEY_ENROLL (R415, R416). -/
def cmdKeyEnroll (s : State) (r : Req) : CmdOut :=
  let a := r.arg
  let id := leAt a 0 4
  if a.length < 254 ∨ id = 0 ∨ id = 0xFFFFFFFF then failWith s stBadArg
  else if s.enrolAuth a true ≠ stOk then failWith s stVerify
  else if 16 ≤ s.sec.keys.length then failWith s stNoRes
  else if s.sec.keys.any (fun k => k.id = id) then failWith s stBadArg
  else
    let k : OpKey := ⟨id, leAt a 4 1, leAt a 5 1, (a.drop 8).take 57⟩
    okNow { s with sec := { s.sec with keys := s.sec.keys ++ [k], enrolSeq := leAt a 128 8 } }
/-- SEC_KEY_ENROLL. -/
def execSecKeyEnroll (mb : MbId) (s : State) : Out := .next (runCmd s mb.val 0x0218 (.block 0) true cmdKeyEnroll)
/-- SEC_KEY_REMOVE (R416). -/
def cmdKeyRemove (s : State) (r : Req) : CmdOut :=
  let a := r.arg
  let id := leAt a 0 4
  let rest := s.sec.keys.filter (fun k => k.id ≠ id)
  if a.length < 254 then failWith s stBadArg
  else if s.enrolAuth a false ≠ stOk then failWith s stVerify
  else if !s.sec.keys.any (fun k => k.id = id) then failWith s stBadArg
  else if !rest.any (fun k => k.usage.testBit 4) then failWith s stWrong
  else okNow { s with sec := { s.sec with keys := rest, enrolSeq := leAt a 128 8 } }
/-- SEC_KEY_REMOVE. -/
def execSecKeyRemove (mb : MbId) (s : State) : Out := .next (runCmd s mb.val 0x0219 (.block 0) true cmdKeyRemove)

/-- The job of a request, checked as item 1 of R424. -/
def State.reqJob (s : State) (r : Req) (j : Nat) : Except Nat Job :=
  match s.job? j with
  | none => .error stBadArg
  | some x => if r.scope = none ∨ r.scope = some x.part then .ok x else .error stNotPerm
/-- The 512-byte share (R424). -/
def shareBytes (self n1 epoch : Nat) (nonce pub : List Byte) : List Byte :=
  let head := natLE 4 0x4A534732 ++ natLE 2 0x0100 ++ natLE 1 self ++ natLE 1 n1 ++ natLE 4 epoch ++ zeros 4 ++
    pad 32 nonce ++ pad 56 pub ++ zeros 24 ++ certificate
  head ++ pad 114 (Config.ed448Sign (shake head)) ++ zeros 14
/-- SEC_JOB_SHARE (R424). -/
def cmdJobShare (s : State) (r : Req) : CmdOut :=
  let w := r.w 0
  let j := bitsOf w 15 0
  let self := bitsOf w 21 16
  let n1 := bitsOf w 29 24
  let epoch := bitsOf (r.w 1) 31 0
  match s.reqJob r j with
  | .error e => failWith s e
  | .ok x =>
    if n1 < self ∨ bitsOf w 23 22 ≠ 0 ∨ bitsOf w 63 30 ≠ 0 then failWith s stBadArg
    else if jobRuns x then failWith s stWrong
    else if epoch ≤ x.epoch then failWith s stStale
    else match s.outBad r (r.w 6) 512 with
      | some e => failWith s e
      | none =>
        let nonce := (upTo 4).flatMap (fun i => natLE 8 (r.w (2 + i)))
        let eph := s.sec.ephemeral
        let bs := shareBytes self n1 epoch nonce (Config.x448Public eph)
        let s1 := { s.setJob j { x with share := some ⟨self, n1 + 1, epoch, nonce, eph, bs⟩ } with sec := { s.sec with ephemeral := eph + 1 } }
        okNow (s1.r40Write (r.w 6) bs)
/-- SEC_JOB_SHARE. -/
def execSecJobShare (mb : MbId) (s : State) : Out := .next (runCmd s mb.val 0x0220 (.exact 7) false cmdJobShare)

/-- Share j of an argument block passes (R425). -/
def shareOk (own : Share) (j : Nat) (b : List Byte) : Bool :=
  let cert := (b.drop 128).take 256
  Config.ed448Verify (Config.vendorKey (leAt cert 24 4)) (shake (cert.take 128)) ((cert.drop 128).take 114) &&
  Config.ed448Verify ((cert.drop 28).take 57) (shake (b.take 384)) ((b.drop 384).take 114) &&
  decide (leAt b 8 4 = own.epoch) && decide (leAt b 7 1 = own.n - 1) && decide ((b.drop 16).take 32 = own.nonce) &&
  decide (leAt b 6 1 = j) && (decide (j ≠ own.self) || decide (b = own.bytes))
/-- The pairwise key with member j (R425). -/
def pairKey (own : Share) (j : Nat) (b : List Byte) : List Byte :=
  (Config.shake256 (Config.x448Shared own.eph ((b.drop 48).take 56) ++ natLE 4 0x47324A4B ++ own.nonce ++
    natLE 4 own.epoch ++ natLE 4 (min own.self j) ++ natLE 4 (max own.self j)) 64).take 32
/-- SEC_JOB_AGREE (R425): at one instant the old keys go, the epoch becomes current and pending XP_
values apply. -/
def cmdJobAgree (s : State) (r : Req) : CmdOut :=
  let j := bitsOf (r.w 0) 15 0
  match s.reqJob r j with
  | .error e => failWith s e
  | .ok x =>
    if jobRuns x then failWith s stWrong
    else match x.share with
    | none => failWith s stWrong
    | some own =>
      if r.arg.length ≠ own.n * 512 then failWith s stBadArg
      else
        let sh := fun (i : Nat) => (r.arg.drop (512 * i)).take 512
        match (upTo own.n).find? (fun i => !shareOk own i (sh i)) with
        | some bad => .done s stVerify (natLE 1 bad)
        | none =>
          let keys := ((upTo own.n).filter (fun i => i ≠ own.self)).map (fun i => (i, pairKey own i (sh i)))
          let qps := tabMap (fun _ (q : Qp) => if q.job = j then { q with key := none, st := if q.st = .rts then .error else q.st } else q) s.xp.qps
          let s1 := { s.setJob j { x with keys := keys, epoch := own.epoch, share := none } with xp := { s.xp with qps := qps } }
          okNow (s1.boundary (.xp j))
/-- SEC_JOB_AGREE. -/
def execSecJobAgree (mb : MbId) (s : State) : Out := .next (runCmd s mb.val 0x0221 (.block 1) false cmdJobAgree)

/-- EVQ_SET (R432). -/
def cmdEvqSet (s : State) (r : Req) : CmdOut :=
  let w := r.w 0
  let q := bitsOf w 3 0
  let lg := bitsOf w 11 8
  let len := 32 * 2 ^ lg
  if r.scope ≠ none ∧ r.scope ≠ some q then failWith s stNotPerm
  else if (8 ≤ q ∧ q ≠ 15) ∨ (q < 8 ∧ (s.part? q).isNone) ∨ lg < 4 ∨ 12 < lg ∨ r.w 1 % 4096 ≠ 0 then failWith s stBadArg
  else match s.outBad r (r.w 1) len with
    | some e => failWith s e
    | none =>
      let ev : EvQueue := { set := true, base := r.w 1, log2 := lg, vec := bitsOf w 23 16, intEn := w.testBit 24 }
      let s1 := { s with sec := { s.sec with evqs := tabSet s.sec.evqs q ev } }
      okNow (s1.setReg (evqBlk q).1 (evqBlk q).2 0)
/-- EVQ_SET. -/
def execEvqSet (mb : MbId) (s : State) : Out := .next (runCmd s mb.val 0x0206 (.exact 2) false cmdEvqSet)

/-! ### Partitions -/

/-- Is a column group disabled this start (R17)? -/
def State.groupOff (s : State) (g : Nat) : Bool := s.bu.groupsOff.testBit g
/-- Bits of a 32-bit mask. -/
def maskBits (m : Nat) : List Nat := (upTo 32).filter (fun g => m.testBit g)
/-- Bytes of a word as weights. -/
def byteList (n w : Nat) : List Nat := (upTo n).map (fun i => bitsOf w (8 * i + 7) (8 * i))
/-- Power a group up for a partition: slots invalid, local stores and accumulators cleared (R117, R428), its
clock at full duty, or at duty 1 while PWRBRK_N is asserted (R382). -/
def State.prepGroup (s : State) (g : Nat) : State :=
  let s1 := (upTo 64).foldl (fun st k =>
    let c := 64 * g + k
    let st1 := (st.setCore c (invalidSlots (st.core c))).clearAcc c
    { st1 with localMem := st1.localMem.clear (c * 2 ^ 20) (2 ^ 20) }) s
  let n := if s.power.pwrbrk then 1 else 8
  { s1.setGrp g { s1.grp g with duty := n, nextDuty := n } with power := { s1.power with pdG := s1.power.pdG ||| 2 ^ g } }
/-- A group without power: OPP7 at 0.60 V, no change, stretch or throttle (R370, R385; log 79). -/
def coldGrp (x : Group) : Group :=
  { x with opp := 7, req := 7, duty := 8, nextDuty := 8, stretch := false, frozen := false, mv := 600, change := none, droopTick := [] }
/-- Power a group off: slots, local stores and accumulators become undefined (R385). -/
def State.dropGroup (s : State) (g : Nat) : State :=
  let s1 := (upTo 64).foldl (fun st k =>
    let c := 64 * g + k
    let st1 := st.setCore c (invalidSlots (st.core c))
    { st1 with acc := st1.acc.filter (fun e => e.1 / 40960 ≠ c), accFlags := st1.accFlags.filter (fun e => e.1 / 512 ≠ c), accGen := tabSet st1.accGen c (st1.mem.gen + 1), localMem := st1.localMem.scramble (c * 2 ^ 20) (2 ^ 20) st1.mem.gen }) s
  let s2 := s1.setGrp g (coldGrp (s1.grp g))
  { s2 with mem := { s2.mem with gen := s2.mem.gen + 1 }, power := { s2.power with pdG := s2.power.pdG &&& (2 ^ 32 - 1 - 2 ^ g) }, con := { s2.con with groupThrottle := tabDel s2.con.groupThrottle g } }
/-- The memory of a set becomes undefined under a new key (R423). -/
def State.scrambleSets (s : State) (sets : List Nat) : State :=
  sets.foldl (fun st j => st.scrambleDev (j * slotBytes) slotBytes) s
/-- Isolated weights per port and bridge sum to at most 256 and slices to at most the cap (R434), with
partition `p` replaced by `x`. -/
def State.isoOk (s : State) (p : Nat) (x : Partn) : Bool :=
  let iso := ((s.sec.parts.filter (fun e => e.1 ≠ p)).map (·.2) ++ [x]).filter (·.isolated)
  (upTo 8).all (fun i => decide ((iso.map (fun y => y.ports.getD i 0)).foldl (· + ·) 0 ≤ 256)) &&
  (upTo 4).all (fun i => decide ((iso.map (fun y => y.bridges.getD i 0)).foldl (· + ·) 0 ≤ 256)) &&
  decide ((iso.map (·.slice)).foldl (· + ·) 0 ≤ s.rf .pw 0x004 10 0)
/-- The registers that show a partition (R429). -/
def State.partRegs (s : State) (p : Nat) (x : Partn) : State :=
  let num := fun (l : List Nat) (lo n : Nat) => (upTo n).foldl (fun a i => a + fieldAt (l.getD (lo + i) 0) 8 (8 * i)) 0
  ((((s.setReg (.part p) 0x000 (BitVec.ofNat 32 x.groups)).setReg (.part p) 0x004
    (BitVec.ofNat 32 (flagAt x.isolated 30 + fieldAt x.setFirst 3 24 + fieldAt (x.setCount - 1) 3 20 + fieldAt x.slice 11 0))).setReg
    (.part p) 0x008 (BitVec.ofNat 32 (num x.ports 0 4))).setReg (.part p) 0x00C (BitVec.ofNat 32 (num x.ports 4 4))).setReg
    (.part p) 0x010 (BitVec.ofNat 32 (num x.bridges 0 4))
/-- PART_CREATE (R428). -/
def cmdPartCreate (s : State) (r : Req) : CmdOut :=
  let p := bitsOf (r.w 0) 2 0
  let groups := bitsOf (r.w 1) 31 0
  let first := bitsOf (r.w 2) 2 0
  let count := bitsOf (r.w 2) 6 4 + 1
  let x : Partn := { isolated := (r.w 0).testBit 8, groups := groups, setFirst := first, setCount := count, slice := bitsOf (r.w 2) 26 16, ports := byteList 8 (r.w 3), bridges := byteList 4 (r.w 4), keyGen := s.sec.keyGen }
  if (s.part? p).isSome then failWith s stWrong
  else if 8 < first + count ∨
      (maskBits groups).any (fun g => s.groupOff g || (s.groupPart g).isSome) ∨
      (upTo count).any (fun i => (s.setOwner (first + i)).isSome) ∨
      (x.isolated ∧ (x.slice < 50 ∨ 1500 < x.slice)) then failWith s stBadArg
  else if !s.isoOk p x then failWith s stNoRes
  else
    let sec1 := { s.sec with parts := tabSet s.sec.parts p x, keyGen := s.sec.keyGen + 1 }
    let s1 := State.partRegs { s with sec := sec1 } p x
    let s2 := (maskBits groups).foldl (fun st g => st.prepGroup g) s1
    okNow (s2.scrambleSets (partSets x))
/-- PART_CREATE. -/
def execPartCreate (mb : MbId) (s : State) : Out := .next (runCmd s mb.val 0x0201 (.exact 5) true cmdPartCreate)

/-- A check-value channel changes owner: IDLE, registers at reset (R439). -/
def State.cvGive (s : State) (c : Nat) (p : Option Nat) : State :=
  (s.setCv c { part := p }).dropRegs (.cv c)
/-- PART_DESTROY (R428). -/
def cmdPartDestroy (s : State) (r : Req) : CmdOut :=
  let p := bitsOf (r.w 0) 2 0
  match s.part? p with
  | none => failWith s stWrong
  | some x =>
    if s.jobs.any (fun e => e.2.part = p) ∨ s.svcs.any (fun e => e.2.part = p) ∨ s.pewter.any (fun e => e.2.part = p) ∨
        s.store.loads.any (fun e => e.2.part = some p) ∨ s.mailboxes.any (fun e => e.2.part = some p) then failWith s stWrong
    else
      let regions := s.mem.regions.filter (fun e => e.2.part ≠ some p)
      let slots := tabMap (fun _ (w : WsSlot) => { w with granted := w.granted &&& (255 - 2 ^ p) }) s.store.slots
      let accts := tabMap (fun _ (a : Acct) => if a.owner = p then { a with owner := 15, kind := 0 } else a) s.con.accts
      let evqs := tabDel s.sec.evqs p
      let s1 := { s with mem := { s.mem with regions := regions }, store := { s.store with slots := slots }, con := { s.con with accts := accts }, sec := { s.sec with evqs := evqs, parts := tabDel s.sec.parts p } }
      let s2 := (upTo 8).foldl (fun st c => if (st.cv c).part = some p then st.cvGive c none else st) s1
      let s3 := (maskBits x.groups).foldl (fun st g => st.dropGroup g) s2
      okNow ((s3.scrambleSets (partSets x)).dropRegs (.part p))
/-- PART_DESTROY. -/
def execPartDestroy (mb : MbId) (s : State) : Out := .next (runCmd s mb.val 0x0202 (.exact 1) true cmdPartDestroy)

/-- A register of a partition as it will be when its pending values apply. -/
def State.pendReg (s : State) (p off : Nat) : Word := mergeBits (s.reg (.part p) off) (s.pending? (.part p) off).1 (s.pending? (.part p) off).2
/-- PART_RECONFIGURE (R430). -/
def cmdPartReconf (s : State) (r : Req) : CmdOut :=
  let p := bitsOf (r.w 0) 2 0
  match s.part? p with
  | none => failWith s stWrong
  | some x =>
    let ctl := s.pendReg p 0x004
    let groups := (s.pendReg p 0x000).toNat
    let y : Partn := { x with isolated := flag ctl 30, groups := groups, setFirst := fld ctl 26 24, setCount := fld ctl 22 20 + 1, slice := fld ctl 10 0, bridges := byteList 4 (s.pendReg p 0x010).toNat, ports := byteList 4 (s.pendReg p 0x008).toNat ++ byteList 4 (s.pendReg p 0x00C).toNat }
    let newSets := decide (y.setFirst ≠ x.setFirst) || decide (y.setCount ≠ x.setCount)
    let added := (maskBits groups).filter (fun g => !x.groups.testBit g)
    let gone := (maskBits x.groups).filter (fun g => !groups.testBit g)
    if 8 < y.setFirst + y.setCount ∨ added.any (fun g => s.groupOff g || (s.groupPart g).isSome) ∨
        (partSets y).any (fun j => (s.setOwner j).isSome && s.setOwner j ≠ some p) then failWith s stBadArg
    else if gone.any (fun g => s.jobs.any (fun e => e.2.groups.testBit g) || s.reserved g) then failWith s stWrong
    else if newSets ∧ (s.jobs.any (fun e => e.2.part = p) ∨ s.svcs.any (fun e => e.2.part = p) ∨ s.mem.regions.any (fun e => e.2.part = some p)) then failWith s stWrong
    else if !s.isoOk p y then failWith s stNoRes
    else
      let z := if newSets then { y with mode := 0, privSets := 0, keyGen := s.sec.keyGen } else y
      let kg := if newSets then s.sec.keyGen + 1 else s.sec.keyGen
      let sec1 := { s.sec with parts := tabSet s.sec.parts p z, keyGen := kg }
      let s1 := State.boundary { s with sec := sec1 } (.part p)
      let s2 := gone.foldl (fun st g => st.dropGroup g) (added.foldl (fun st g => st.prepGroup g) s1)
      okNow (if newSets then s2.scrambleSets (partSets x ++ partSets y) else s2)
/-- PART_RECONFIGURE. -/
def execPartReconfigure (mb : MbId) (s : State) : Out := .next (runCmd s mb.val 0x0204 (.exact 1) true cmdPartReconf)

/-- PART_MAILBOX (R428). -/
def cmdPartMailbox (s : State) (r : Req) : CmdOut :=
  let n := bitsOf (r.w 0) 5 0
  let p := bitsOf (r.w 0) 11 8
  if n = 0 ∨ 55 < n ∨ (p ≠ 15 ∧ (8 ≤ p ∨ (s.part? p).isNone)) then failWith s stBadArg
  else if (s.mb n).st ≠ .disabled then failWith s stWrong
  else okNow (s.setMb n { s.mb n with part := if p = 15 then none else some p })
/-- PART_MAILBOX. -/
def execPartMailbox (mb : MbId) (s : State) : Out := .next (runCmd s mb.val 0x0205 (.exact 1) true cmdPartMailbox)

end Sys2Proof.Machine
end

