-- ==== Sys2Proof/Machine/CheckValue.lean ====
section
/-! DEFINITION. The check-value unit (R438 to R446): starting, stopping and ending a scan. -/

namespace Sys2Proof.Machine

/-- A 64-bit register pair of a channel. -/
def State.cvPair (s : State) (c off : Nat) : Nat :=
  (s.reg (.cv c) (off + 4)).toNat * 2 ^ 32 + (s.reg (.cv c) off).toNat
/-- Set a 64-bit register pair. -/
def State.setCvPair (s : State) (c off v : Nat) : State :=
  (s.setReg (.cv c) off (BitVec.ofNat 32 v)).setReg (.cv c) (off + 4) (BitVec.ofNat 32 (v / 2 ^ 32))
/-- Bytes from an address that a channel's owner may scan, up to `n`, range by range (R444). -/
def State.scanFit (s : State) (scope : Option Nat) : Nat → Nat → Nat → Nat
  | 0, _, _ => 0
  | f + 1, a, n =>
    if n = 0 then 0
    else match s.rangeOf a with
      | none => 0
      | some r =>
        if scope ≠ none ∧ r.part ≠ scope then 0
        else
          let k := min n (r.base + r.len - a)
          k + s.scanFit scope f (a + k) (n - k)
/-- Bytes before the first uncorrectable line of a span. -/
def beforeBad (bad : List Nat) (a n : Nat) : Nat :=
  (bad.filter (fun l => decide (l * 64 < a + n) && decide (a < l * 64 + 64))).foldl (fun m l => min m (l * 64 - a)) n

/-- The value a scan starts from: INIT, or CV_RUN with CONT (R442). -/
def State.cvFirst (s : State) (c : Nat) : Nat :=
  let ctrl := s.reg (.cv c) 0x000
  let alg := fld ctrl 27 26
  if flag ctrl 29 then (let r := s.cvPair c 0x018; if alg = 2 then r else r % 2 ^ 32) else crcInit alg
/-- Raise a channel's vector. -/
def State.cvInt (s : State) (c : Nat) : State := s.msi (fld (s.reg (.cv c) 0x000) 23 16)

/-- A scan runs to its end or its fault (R442, R444, R446). -/
def State.cvEnd (s : State) (c : Nat) : State :=
  let v := s.cv c
  let ctrl := s.reg (.cv c) 0x000
  let alg := fld ctrl 27 26
  let a := s.cvPair c 0x008
  let len := s.cvPair c 0x010
  let fit := s.scanFit v.part 16 a len
  let n := beforeBad s.mem.badLines a fit
  let run := crcRun alg (s.cvFirst c) (s.devMem.readN a n)
  let s1 := s.setCvPair c 0x018 run
  if n < len then
    let err := if n < fit then 2 else 1
    let s2 := if n < fit then s1.noteUe (a + n) false else s1
    let s3 := { s2 with free := s2.free + 1 }
    let s4 := s3.setCv c { v with st := 3, err := err, done := n, undef := some s.free }
    if flag ctrl 28 then s4.cvInt c else s4
  else
    let res := crcOut alg run
    let want := if alg = 2 then s.cvPair c 0x028 else s.cvPair c 0x028 % 2 ^ 32
    let mm := v.compat && decide (c < 8) && decide (res ≠ want)
    let s2 := s1.setCv c { v with st := 3, err := 0, done := n, result := res, undef := none, mismatch := v.mismatch || mm }
    if flag ctrl 28 ∨ mm then s2.cvInt c else s2
/-- START on a channel that is not BUSY (R442, R446): the setting of CV_CMP is taken at the start (R57). -/
def State.cvBegin (s : State) (c : Nat) : State :=
  let s1 := s.setCv c { s.cv c with st := 1, err := 0, done := 0, compat := s.compat.getLsbD 0 }
  if s.cvPair c 0x010 = 0 then s1.cvEnd c else s1
/-- STOP on a BUSY channel (R443): the multiple of 64 B at which it takes effect is a free value (log 4);
at or past the last byte the scan completes. -/
def State.cvHalt (s : State) (c : Nat) : State :=
  let (k, s1) := s.draw
  let v := s1.cv c
  let a := s1.cvPair c 0x008
  let len := s1.cvPair c 0x010
  let n := beforeBad s1.mem.badLines a (s1.scanFit v.part 16 a len)
  if n ≤ 64 * k then s1.cvEnd c
  else
    let alg := fld (s1.reg (.cv c) 0x000) 27 26
    let run := crcRun alg (s1.cvFirst c) (s1.devMem.readN a (64 * k))
    (s1.setCvPair c 0x018 run).setCv c { v with st := 2, done := 64 * k }

/-- CV_SCAN_END (R442). -/
def execCvScanEnd (ch : CvId) (s : State) : Out :=
  .next (if (s.cv ch.val).st = 1 then s.cvEnd ch.val else s)

/-- CV_ASSIGN (R439). -/
def cmdCvAssign (s : State) (r : Req) : CmdOut :=
  let c := bitsOf (r.w 0) 3 0
  let p := bitsOf (r.w 0) 11 8
  if 8 ≤ c ∨ (p ≠ 15 ∧ (s.part? p).isNone) then failWith s stBadArg
  else if (s.cv c).st = 1 ∨ (s.cv c).st = 2 then failWith s stWrong
  else
    let owner := if p = 15 then none else some p
    okNow (if (s.cv c).part = owner then s else s.cvGive c owner)
/-- CV_ASSIGN. -/
def execCvAssign (mb : MbId) (s : State) : Out := .next (runCmd s mb.val 0x0901 (.exact 1) true cmdCvAssign)

end Sys2Proof.Machine
end

