-- ==== Sys2Proof/Machine/Bringup.lean ====
section
/-! DEFINITION. The bring-up window (R447 to R464): the step sequence and its twelve steps, the defect
list, and the defect-list commands. A step's effects are made when its BU_STEP write is accepted, and its
outcome shows at BRINGUP_STEP_END (log 15). -/

namespace Sys2Proof.Machine

/-- Causes of BU_ERR (R462). -/
abbrev buHostLink : Nat := 0x01
/-- SIG -/
abbrev buSig : Nat := 0x02
/-- HOST_READ -/
abbrev buHostRead : Nat := 0x03
/-- DEFECT_LIST -/
abbrev buDefect : Nat := 0x04
/-- IDENTITY -/
abbrev buIdentity : Nat := 0x05
/-- POWER -/
abbrev buPower : Nat := 0x06
/-- PLL -/
abbrev buPll : Nat := 0x07
/-- SOLDER -/
abbrev buSolder : Nat := 0x08
/-- MEMORY -/
abbrev buMemory : Nat := 0x09
/-- CORES -/
abbrev buCores : Nat := 0x0A
/-- OPTICS -/
abbrev buOptics : Nat := 0x0B
/-- LIST_FULL -/
abbrev buListFull : Nat := 0x0C
/-- TIMEOUT -/
abbrev buTimeout : Nat := 0x0D
/-- THERMAL -/
abbrev buThermal : Nat := 0x0E
/-- CP -/
abbrev buCp : Nat := 0x0F

/-- An outcome: RESULT (2 DONE, 3 DEGRADED, 4 FAILED), CAUSE, DETAIL. -/
abbrev BuEnd := Nat × Nat × Nat
/-- DONE. -/
def buDone : BuEnd := (2, 0, 0)

/-- Record a direct write's outcome in its page's WSTAT (R47). -/
def State.noteWrite (s : State) (b : Blk) (off status : Nat) : State :=
  { s with wstat := tabSet s.wstat (blkPage b) (off, status) }

/-- A write of BU_STEP (R447): accepted when no step runs, the code is NEXT and 48 V power has not been
cut by a trip; the step's body then runs. -/
def State.buStep (s : State) (code : Nat) (body : State → State × BuEnd) : State :=
  if !s.link.up then s
  else if s.bu.result = 1 ∨ code = 0 ∨ s.bu.next ≠ code ∨ s.power.tripped ∨ !s.power.v48 then s.noteWrite .bu 0 stWrong
  else
    let s1 := s.noteWrite .bu 0 stOk
    let (s2, o) := body { s1 with bu := { s1.bu with result := 1, step := code, progress := 0, startTick := s1.tick } }
    { s2 with bu := { s2.bu with outcome := o } }
/-- NEXT after a step (R447). -/
def buNext (code result : Nat) : Nat :=
  if result = 4 then (if code = 0x02 then 0x02 else 0) else if code < 0x0C then code + 1 else 0
/-- A step ends with an outcome (R449). -/
def State.buEnd (s : State) (o : BuEnd) : State :=
  { s with bu := { s.bu with result := o.1, cause := o.2.1, detail := o.2.2, next := buNext s.bu.step o.1, progress := if o.1 = 4 then s.bu.progress else 100 } }
/-- Set bits of BU_DEGRADED. -/
def State.degrade (s : State) (bits : Nat) : State := { s with bu := { s.bu with degraded := s.bu.degraded ||| bits } }

/-! ### The defect list -/

/-- Same type and location; a physical core has at most one entry, whichever unit it names (R459). -/
def sameDefect (a b : Defect) : Bool :=
  leAt a 0 1 = leAt b 0 1 && (if leAt a 0 1 = 1 then leAt a 8 2 = leAt b 8 2 else leAt a 8 8 = leAt b 8 8)
/-- An entry (R459). -/
def mkDefect (typ source seq : Nat) (loc : List Byte) : Defect :=
  natLE 1 typ ++ natLE 1 source ++ zeros 2 ++ natLE 4 seq ++ pad 8 loc
/-- Every defect in effect this start. -/
def State.allDefects (s : State) : List Defect := s.defects.list ++ s.defects.overflow ++ s.defects.loose
/-- A change of the list writes the copy with the lower generation (R459). -/
def storeList (d : Defects) (l : List Defect) : Defects :=
  if d.copy0.gen < d.copy1.gen then { d with list := l, copy0 := ⟨d.copy1.gen + 1, l⟩ }
  else { d with list := l, copy1 := ⟨d.copy0.gen + 1, l⟩ }
/-- Generation of the list in use. -/
def dlGen (d : Defects) : Nat := max d.copy0.gen d.copy1.gen
/-- Add a newly found defect; with the list full it goes to the overflow, where that has room (R459). The
flag says that the list could not hold it. -/
def State.addDefect (s : State) (e : Defect) : State × Bool :=
  if s.allDefects.any (sameDefect e) then (s, false)
  else if s.defects.list.length < 8192 then
    ({ s with defects := storeList s.defects (s.defects.list ++ [e]), bu := { s.bu with newEntries := s.bu.newEntries + 1 } }, false)
  else
    let others := (s.defects.overflow.filter (fun x => leAt x 0 1 ≠ 1)).length
    let d := if leAt e 0 1 = 1 ∨ others < 4096 then { s.defects with overflow := s.defects.overflow ++ [e] } else { s.defects with loose := s.defects.loose ++ [e] }
    ({ s with defects := d }, true)
/-- Add several; LIST_FULL of BU_DEGRADED is set when one did not fit. -/
def State.addDefects (s : State) (es : List Defect) : State × Bool :=
  let (s1, full) := es.foldl (fun (a : State × Bool) e => let (t, f) := a.1.addDefect e; (t, a.2 || f)) (s, false)
  (if full then s1.degrade (2 ^ 25) else s1, full)
/-- DEGRADED with LIST_FULL when the list filled, else the given outcome (R459). -/
def orFull (full : Bool) (o : BuEnd) : BuEnd := if full ∧ o.1 ≠ 4 then (3, buListFull, 0) else o

/-! ### The steps -/

/-- POWER_HUB (R448, R452, R459). -/
def stepPowerHub (identityOk copy0Bad copy1Bad : Bool) (s : State) : State × BuEnd :=
  let d := s.defects
  let use := if copy0Bad then d.copy1 else if copy1Bad then d.copy0 else if d.copy0.gen < d.copy1.gen then d.copy1 else d.copy0
  let d1 : Defects := { d with list := use.entries, copy0 := if copy0Bad then use else d.copy0, copy1 := if copy1Bad then use else d.copy1, overflow := [], loose := [] }
  let d2 := if copy0Bad ∧ copy1Bad then { d with overflow := [], loose := [] } else d1
  let narrow := s.link.width < 16 || s.link.rate < 6
  let slots := s.store.slots.filter (fun e => e.2.st ≠ 1)
  let bu := { s.bu with startSeq := s.bu.startSeq + 1, degraded := if narrow then 2 ^ 31 else 0, groupsOff := 0, newEntries := 0, copyRepaired := copy0Bad != copy1Bad }
  let s1 := { s with defects := d2, bu := bu, store := { s.store with slots := slots, install := none }, sec := { s.sec with identityOk := identityOk }, power := { s.power with hub := true } }
  let lk := s.link.width * 256 + s.link.rate
  (s1, if s.link.width < 4 then (4, buHostLink, lk)
    else if !identityOk then (4, buIdentity, 0)
    else if copy0Bad ∧ copy1Bad then (4, buDefect, 0)
    else if narrow then (3, buHostLink, lk) else buDone)
/-- POWER_HUB. -/
def execPowerHub (identityOk copy0Bad copy1Bad : Bool) (s : State) : Out :=
  .next (s.buStep 0x01 (stepPowerHub identityOk copy0Bad copy1Bad))

/-- Argument i of the window. -/
def State.buArg (s : State) (i : Nat) : Nat := (s.reg .bu (0x040 + 4 * i)).toNat
/-- An image in host memory with its block below it (R453). -/
def State.buImage (s : State) (lo limit kind : Nat) : Option (Nat × List Byte) :=
  let a := s.buArg lo + 2 ^ 32 * s.buArg (lo + 1)
  let len := s.buArg (lo + 2)
  if a % 64 ≠ 0 ∨ limit < len then none
  else s.verifyImage (s.hostMem.readN (a - 256) 256) (s.hostMem.readN a len) kind none
/-- LOAD_FW (R453, R454). -/
def stepLoadFw (o : LinkOutcome) (s : State) : State × BuEnd :=
  if o ≠ .ok then (s, (4, buHostRead, 0))
  else match s.buImage 0 (8 * 2 ^ 20) 1 with
    | none => (s, (4, buSig, 1))
    | some (k1, m1) => match s.buImage 3 (16 * 2 ^ 20) 2 with
      | none => (s, (4, buSig, 2))
      | some (k2, m2) => ((s.measure ⟨1, 0xFF, k1, 0, m1⟩).measure ⟨2, 0xFF, k2, 0, m2⟩, buDone)
/-- LOAD_FW. -/
def execLoadFw (o : LinkOutcome) (s : State) : Out := .next (s.buStep 0x02 (stepLoadFw o))

/-- The lowest number below n whose bit is set. -/
def lowBit (x n : Nat) : Nat := ((upTo n).find? (fun i => x.testBit i)).getD 0
/-- POWER_DIES (R448): a group powered while PWRBRK_N is asserted is held at duty 1 (R485). -/
def stepPowerDies (fabFail : BitVec 4) (s : State) : State × BuEnd :=
  let s0 := if s.power.pwrbrk then (upTo 32).foldl (fun st g => st.setGrp g { st.grp g with duty := 1, nextDuty := 1 }) s else s
  let s1 := { s0 with power := { s.power with pdFab := 15 - fabFail.toNat, pdPhy := 15, pdG := 2 ^ 32 - 1 } }
  (s1, if fabFail = 0 then buDone else (4, buPower, lowBit fabFail.toNat 4))
/-- POWER_DIES. -/
def execPowerDies (fabFail : BitVec 4) (s : State) : Out := .next (s.buStep 0x03 (stepPowerDies fabFail))

/-- LOCK_CLOCKS (R448): a group whose PLL fails is off for this start. -/
def stepLockClocks (groupFail : BitVec 32) (dieFail : BitVec 4) (s : State) : State × BuEnd :=
  let s1 := { s with groups := tabMap (fun _ (g : Group) => { g with opp := 7, req := 7, change := none }) s.groups }
  if dieFail ≠ 0 then (s1, (4, buPll, lowBit dieFail.toNat 4))
  else if groupFail ≠ 0 then
    let g := lowBit groupFail.toNat 32
    (State.degrade { s1 with bu := { s1.bu with groupsOff := s1.bu.groupsOff ||| groupFail.toNat } } (2 ^ 28), (3, buPll, g * 256 + g / 8))
  else (s1, buDone)
/-- LOCK_CLOCKS. -/
def execLockClocks (groupFail : BitVec 32) (dieFail : BitVec 4) (s : State) : Out :=
  .next (s.buStep 0x04 (stepLockClocks groupFail dieFail))

/-- Failed lanes of a module in every defect in effect. -/
def State.failedLanes (s : State) (b m : Nat) : List Nat :=
  (s.allDefects.filter (fun e => leAt e 0 1 = 3 && leAt e 8 1 = b && leAt e 9 1 = m)).map (fun e => leAt e 10 1)
/-- The worst module of a bridge. -/
def State.worstModule (s : State) (b : Nat) : Nat :=
  (upTo 12).foldl (fun a m => max a (s.failedLanes b m).length) 0
/-- The lane set of a bridge from its defects (R455): 0 full, 1 half, 2 out. -/
def State.bridgeState (s : State) (halfFail : BitVec 4) (b : Nat) : Nat :=
  if s.worstModule b ≤ 4 then 0 else if halfFail.getLsbD b then 2 else 1
/-- TRAIN_SOLDER (R455). -/
def stepTrainSolder (failed : List LaneLoc) (halfFail : BitVec 4) (s : State) : State × BuEnd :=
  let es := failed.map (fun l => mkDefect 3 6 s.bu.startSeq (natLE 1 l.bridge ++ natLE 1 l.module ++ natLE 1 l.lane))
  let (s1, full) := s.addDefects es
  let bst := fun b => s1.bridgeState halfFail b
  let br := fun (b : Nat) => ({ half := bst b = 1, out := bst b = 2, modules := (upTo 12).map (fun m => (m, { retired := s1.failedLanes b m })) } : Bridge)
  let s2 := (upTo 4).foldl (fun st b => st.setBridge b (br b)) s1
  let bits := (upTo 4).foldl (fun a b => a + bst b * 4 ^ b) 0
  let outs := ((upTo 4).filter (fun b => bst b = 2)).length
  let s3 := if bits = 0 then s2 else s2.degrade (2 ^ 30 + bits * 256)
  (s3, if 1 < outs then (4, buSolder, bits * 256) else orFull full (if bits = 0 then buDone else (3, buSolder, bits * 256)))
/-- TRAIN_SOLDER. -/
def execTrainSolder (failed : List LaneLoc) (halfFail : BitVec 4) (s : State) : Out :=
  .next (s.buStep 0x05 (stepTrainSolder failed halfFail))

/-- Mask of the channels that satisfy a test. -/
def chanMask (p : Nat → Bool) : Nat := ((upTo 192).map (fun c => flagAt (p c) c)).foldl (· + ·) 0
/-- Show the excluded channels (R456, R462). -/
def State.exclude (s : State) (ok : Nat) : State :=
  let off := (2 ^ 192 - 1) - ok
  let n := popcount off 192
  let s1 := { s with mem := { s.mem with chanOk := ok, chanOff := off } }
  let clean := s1.bu.degraded - (if s1.bu.degraded.testBit 29 then 2 ^ 29 + s1.bu.degraded % 32 else 0)
  if n = 0 then s1 else { s1 with bu := { s1.bu with degraded := clean + 2 ^ 29 + n % 32 } }
/-- TRAIN_MEMORY (R456): `margins` are the margins after training in 1/64 UI, 0 where training failed. -/
def stepTrainMemory (margins : List Nat) (s : State) : State × BuEnd :=
  let ok := chanMask (fun c => 3 ≤ margins.getD c 0)
  let lost := chanMask (fun c => s.mem.chanPrev.testBit c && !ok.testBit c)
  let hit := fun (r : Region) => (upTo 192).any (fun c => lost.testBit c && r.sets.testBit (c % 16 / 2))
  let regions := s.mem.regions.filter (fun e => !hit e.2)
  let chans := (upTo 192).foldl (fun t c => tabSet t c { tabGet {} t c with weak := false, margin := margins.getD c 0 }) s.inv.chans
  let s1 := { s with mem := { s.mem with regions := regions, trained := true }, inv := { s.inv with chans := chans } }
  let n := popcount ok 192
  (s1.exclude ok, if n < 176 then (4, buMemory, n) else if n < 192 then (3, buMemory, n) else buDone)
/-- TRAIN_MEMORY. -/
def execTrainMemory (margins : List Nat) (s : State) : Out := .next (s.buStep 0x06 (stepTrainMemory margins))

/-- Every slot's contents become undefined, except the retained regions' (R276). -/
def State.loseMemory (s : State) (keepRegions : Bool) : State :=
  let keep := if keepRegions then s.mem.regions.map (fun e => (e.2.base, s.devMem.readN e.2.base e.2.len)) else []
  let s1 := s.scrambleDev 0 dpaEnd
  { s1 with devMem := keep.foldl (fun m e => m.writeL e.1 e.2) s1.devMem }
/-- RETAIN compares a sealed region with its CRC (R276, R458). -/
def State.retainCheck (s : State) (r : Region) : Region :=
  match r.sealed with
  | none => r
  | some crc =>
    match s.devRead r.base r.len with
    | some bs => if crc32c bs = crc then { r with verified := true } else { r with damaged := true, verified := false }
    | none => { r with damaged := true, verified := false }
/-- TEST_MEMORY (R457): `rows` are the failing rows found. -/
def stepTestMemory (mode : Nat) (rows : List RowLoc) (s : State) : State × BuEnd :=
  let live := rows.filter (fun r => s.mem.chanOk.testBit r.channel)
  let many := fun c => decide (64 < (live.filter (fun r => r.channel = c)).length)
  let ok := chanMask (fun c => s.mem.chanOk.testBit c && !many c)
  let es := (live.filter (fun r => !many r.channel)).map (fun r => mkDefect 2 2 s.bu.startSeq (natLE 1 r.channel ++ natLE 1 r.bank ++ natLE 4 r.row))
  let (s1, full) := s.addDefects es
  let s2 := s1.exclude ok
  let s3 := if mode = 2 then
      let s2a := s2.loseMemory true
      let kept := s2a.mem.badLines.filter (fun l => s2a.mem.regions.any (fun e => decide (e.2.base ≤ l * 64) && decide (l * 64 < e.2.base + e.2.len)))
      { s2a with mem := { s2a.mem with badLines := kept, regions := tabMap (fun _ r => s2a.retainCheck r) s2a.mem.regions } }
    else
      let s2a := s2.loseMemory false
      { s2a with mem := { s2a.mem with regions := [], badLines := [] } }
  let s4 := if mode = 0 then s3 else s3.degrade (2 ^ 26)
  let n := popcount ok 192
  let changed := decide (ok ≠ s.mem.chanOk)
  (s4, if n < 176 then (4, buMemory, n) else orFull full (if changed ∨ mode ≠ 0 then (3, buMemory, n) else buDone))
/-- TEST_MEMORY: a reserved mode is ignored with BAD_ARGUMENT. -/
def execTestMemory (mode : BitVec 4) (rows : List RowLoc) (s : State) : Out :=
  if s.link.up ∧ s.bu.next = 0x07 ∧ s.bu.result ≠ 1 ∧ 3 ≤ mode.toNat then .next (s.noteWrite .bu 0 stBadArg)
  else .next (s.buStep 0x07 (stepTestMemory mode.toNat rows))

/-- TEST_CORES (R460): failing physical cores with their first failing unit. -/
def stepTestCores (fails : List (Nat × Nat)) (s : State) : State × BuEnd :=
  let (s1, full) := s.addDefects (fails.map (fun e => mkDefect 1 3 s.bu.startSeq (natLE 2 e.1 ++ natLE 1 e.2)))
  (s1, orFull full buDone)
/-- A CORE entry names its core by the first two bytes of its location alone: cores already named are
not tested again (R460). -/
def State.coreNamed (s : State) (c : Nat) : Bool := s.allDefects.any (fun e => leAt e 0 1 = 1 && leAt e 8 2 = c)
/-- TEST_CORES. -/
def execTestCores (fails : List (Nat × Nat)) (s : State) : Out :=
  .next (s.buStep 0x08 (fun s1 => stepTestCores (fails.filter (fun e => !s1.coreNamed e.1)) s1))

/-- Working physical slots of a group (R16). -/
def State.goodSlots (s : State) (g : Nat) : List Nat :=
  (upTo 72).filter (fun p => !s.coreNamed (72 * g + p))
/-- 2 KiB pieces of a channel that a bank and row hold (R274; log 11). -/
def rowPieces (chan bank row : Nat) : List Nat :=
  (upTo 2359296).filter (fun p => Config.rowOf chan (p * 2048) = (bank, row))
/-- The DPA granules that 2 KiB piece `row` of channel `c` serves in a range: the inverse of R268. -/
def pieceGranule (ok : Nat) (r : Rng) (c row : Nat) : Option Nat :=
  let all := rngChans ok r.sets
  let chs := if r.q = 0 then all else all.filter (fun x => x / 48 = c / 48)
  let n := chs.length
  match chs.findIdx? (fun x => x = c) with
  | none => none
  | some i =>
    let o := (row * n + (i + 5 * row * (n - 1)) % n) * 2048
    let len := if r.q = 0 then r.len else r.q
    if o < len then some ((r.base + (if r.q = 0 then 0 else c / 48 * r.q) + o) / 65536) else none
/-- The granules that a MEM_ROW entry covers. -/
def State.entryGranules (s : State) (e : Defect) : List Nat :=
  let c := leAt e 8 1
  ((rowPieces c (leAt e 9 1) (leAt e 10 4)).flatMap (fun p => s.ranges.filterMap (fun r => pieceGranule s.mem.chanOk r c p))).eraseDups
/-- Put a granule on the lowest free spare of a channel's set (R273). -/
def State.spareFor (s : State) (granule chan : Nat) : State :=
  let set := chan % 16 / 2
  let n := tabGet 0 s.mem.spareNext set
  { s with mem := { s.mem with retired := tabSet s.mem.retired granule (set, n), spareNext := tabSet s.mem.spareNext set (n + 1) } }
/-- Every entry is applied again in the current layout (R274). -/
def State.applyRows (s : State) : State :=
  let s1 := { s with mem := { s.mem with retired := [], spareNext := [] } }
  (s1.allDefects.filter (fun e => leAt e 0 1 = 2)).foldl (fun st e =>
    (st.entryGranules e).foldl (fun t g => if (tabFind t.mem.retired g).isSome then t else t.spareFor g (leAt e 8 1)) st) s1
/-- APPLY_DEFECTS (R16, R17, R274). -/
def stepApplyDefects (s : State) : State × BuEnd :=
  let bad := fun g => s.bu.groupsOff.testBit g || decide ((s.goodSlots g).length < 64)
  let off := ((upTo 32).map (fun g => flagAt (bad g) g)).foldl (· + ·) 0
  let remap := (upTo 32).flatMap (fun g => if bad g then [] else
    ((s.goodSlots g).take 64).zipIdx.map (fun e => (64 * g + e.2, 72 * g + e.1)))
  let n := popcount off 32
  let s1 := State.applyRows { s with remap := remap, bu := { s.bu with groupsOff := off }, power := { s.power with pdG := s.power.pdG &&& (2 ^ 32 - 1 - off) } }
  let s2 := if off = 0 then s1 else s1.degrade (2 ^ 28)
  (s2, if n = 32 then (4, buCores, n) else if n ≠ 0 then (3, buCores, n) else buDone)
/-- APPLY_DEFECTS. -/
def execApplyDefects (s : State) : Out := .next (s.buStep 0x09 stepApplyDefects)

/-- START_OPTICS (R461). -/
def stepStartOptics (engineFail : BitVec 8) (s : State) : State × BuEnd :=
  let lit := fun p => (s.bay (p / 2)).latched && (s.bay (p / 2)).genuine
  let down := ((upTo 8).map (fun p => flagAt (lit p && engineFail.getLsbD p) p)).foldl (· + ·) 0
  let on := ((upTo 8).map (fun p => flagAt (lit p && !engineFail.getLsbD p && (flag (s.reg (.sub (2 * p)) 0x800) 31 || flag (s.reg (.sub (2 * p + 1)) 0x800) 31)) p)).foldl (· + ·) 0
  let s1 := (upTo 16).foldl (fun st i => st.setSub i { st.sub i with counters := [], half := [], barred := down.testBit (i / 2) }) s
  let s2 := (upTo 8).foldl (fun st p => if on.testBit p then st.setPort p { st.port p with rings := [] } else st) s1
  let s3 := { s2 with power := { s2.power with pdOpt := on } }
  (if down = 0 then s3 else s3.degrade (2 ^ 27 + down * 2 ^ 16), if down = 0 then buDone else (3, buOptics, down))
/-- START_OPTICS. -/
def execStartOptics (engineFail : BitVec 8) (s : State) : Out := .next (s.buStep 0x0A (stepStartOptics engineFail))

/-- A new non-zero session id (R312, R448), otherwise free. -/
def State.newSession (s : State) : State :=
  let (x, s1) := s.draw
  let v := 1 + x % (2 ^ 32 - 2)
  { s1 with bu := { s1.bu with session := if v < s.bu.session ∨ s.bu.session = 0 then v else v + 1 } }
/-- START_CP (R448): from here on Constantan honours PWRBRK_N (R382, R485). -/
def stepStartCp (ready : Bool) (s : State) : State × BuEnd :=
  let s0 := if s.power.pwrbrk then (upTo 4).foldl (fun st d => st.setDie d { st.die d with memDuty := 4, linkDuty := 4 }) s else s
  if ready then (State.newSession { s0 with power := { s.power with cp := true, pdG := (s.sec.parts.map (fun e => e.2.groups)).foldl (· ||| ·) 0 } }, buDone) else (s, (4, buCp, 0))
/-- START_CP. -/
def execStartCp (ready : Bool) (s : State) : Out := .next (s.buStep 0x0B (stepStartCp ready))

/-- ATTEST (R448): the operator-scope report to the host address. The cause of a failed host write is a
free value (log 4). -/
def stepAttest (o : LinkOutcome) (s : State) : State × BuEnd :=
  if o = .ok then
    let rep := s.report none ((upTo 8).flatMap (fun i => natLE 4 (s.buArg (8 + i))))
    (s.hostWrite (s.buArg 0 + 2 ^ 32 * s.buArg 1) rep, buDone)
  else let (x, s1) := s.draw; (s1, (4, x % 256, 0))
/-- ATTEST. -/
def execAttest (o : LinkOutcome) (s : State) : Out := .next (s.buStep 0x0C (stepAttest o))

/-- BRINGUP_STEP_END (R447, R449). -/
def execBringupStepEnd (s : State) : Out :=
  .next (if s.bu.result = 1 then s.buEnd s.bu.outcome else s)

/-- Bounds of the steps in seconds (R448). -/
def buBound (code : Nat) : Nat := [0, 5, 20, 5, 5, 10, 30, 600, 60, 10, 10, 20, 5].getD code 0
/-- BRINGUP_TIMEOUT (R448, R485): nothing of LOAD_FW is kept (R454), and START_CP has not completed. -/
def execBringupTimeout (s : State) : Out :=
  if s.bu.result = 1 ∧ !(s.power.pwrbrk && !s.power.cp) ∧ s.bu.startTick + buBound s.bu.step * 100000000 < s.tick then
    let s1 := if s.bu.step = 0x02 then (s.unmeasure 1 0).unmeasure 2 0 else s
    let s2 := if s.bu.step = 0x0B then { s1 with power := { s1.power with cp := false } } else s1
    .next (s2.buEnd (4, buTimeout, s.bu.step))
  else .next s

/-! ### Defect-list commands -/

/-- The stored copy's bytes, over which its CRC-64 is taken (log 16). -/
def dlStored (d : Defects) : List Byte := natLE 8 (dlGen d) ++ natLE 8 d.removeSeq ++ natLE 4 d.list.length ++ d.list.flatten
/-- What DL_READ writes (R463). -/
def State.dlBytes (s : State) : List Byte :=
  let d := s.defects
  natLE 4 0x444C4732 ++ natLE 2 0x0100 ++ natLE 2 d.list.length ++ natLE 4 (dlGen d) ++ natLE 4 s.bu.startSeq ++
  natLE 8 (crc64 (dlStored d)) ++ natLE 2 s.ovfCores.length ++ zeros 38 ++ pad 64 s.defectDigest ++ d.list.flatten ++ s.ovfCores.flatten
/-- DL_READ (R463). -/
def cmdDlRead (s : State) (r : Req) : CmdOut :=
  if r.w 0 % 64 ≠ 0 then failWith s stBadArg
  else match s.outBad r (r.w 0) s.dlBytes.length with
    | some e => failWith s e
    | none => .done (s.r40Write (r.w 0) s.dlBytes) stOk (natLE 2 (s.defects.list.length + s.ovfCores.length))
/-- DL_READ. -/
def execDlRead (mb : MbId) (s : State) : Out := .next (runCmd s mb.val 0x0B01 (.exact 1) true cmdDlRead)
/-- DL_REMOVE (R464). -/
def cmdDlRemove (s : State) (r : Req) : CmdOut :=
  let a := r.arg
  let e := a.take 16
  if a.length ≠ 160 then failWith s stBadArg
  else match s.keyFor (leAt a 24 4) 3 none with
    | none => failWith s stVerify
    | some k =>
      if !Config.ed448Verify k (shake (a.take 44)) ((a.drop 44).take 114) then failWith s stVerify
      else if leAt a 16 8 ≤ s.defects.removeSeq then failWith s stVerify
      else if (a.drop 28).take 16 ≠ serialBytes ∨ !s.defects.list.contains e ∨ leAt e 0 1 = 1 ∨ leAt e 1 1 = 1 then failWith s stBadArg
      else
        let d := storeList s.defects (s.defects.list.filter (fun x => x ≠ e))
        okNow { s with defects := { d with removeSeq := leAt a 16 8 } }
/-- DL_REMOVE. -/
def execDlRemove (mb : MbId) (s : State) : Out := .next (runCmd s mb.val 0x0B10 (.block 0) true cmdDlRemove)
/-- DIAG_CORE_MAP (R463). -/
def cmdDiagCoreMap (s : State) (r : Req) : CmdOut :=
  let c := bitsOf (r.w 0) 10 0
  if s.groupOff (coreGroup c) then failWith s stBadArg
  else .done s stOk (natLE 2 (tabGet 0 s.remap c))
/-- DIAG_CORE_MAP. -/
def execDiagCoreMap (mb : MbId) (s : State) : Out := .next (runCmd s mb.val 0x0B20 (.exact 1) false cmdDiagCoreMap)

end Sys2Proof.Machine
end

