-- ==== Sys2Proof/Machine/Float.lean ====
section
/-! DEFINITION. Number formats (R59 to R62), rounding to nearest even (R65, R75), the FP32 operations of
the vector unit and Bronze (R120, R184, R189), conversion and its range rule (R76, R77). Values are exact
dyadic numbers between roundings. -/

namespace Sys2Proof.Machine

/-- A value between roundings: NaN, infinity, or (-1)^neg * m * 2^e. -/
inductive Fv where
  | nan
  | inf (neg : Bool)
  | fin (neg : Bool) (m : Nat) (e : Int)
deriving DecidableEq, Repr

/-- +0. -/
def fvZero : Fv := .fin false 0 0

/-- An element format: exponent bits, fraction bits, bias, and what the all-ones exponent means:
0 finite only, 1 E4M3 (one NaN code), 2 IEEE 754, 3 two's complement with `bias` fraction bits. -/
structure Fmt where
  ebits : Nat
  fbits : Nat
  bias : Nat
  kind : Nat
deriving DecidableEq, Repr

/-- Formats by the codes of R126 (R60). -/
def fmtOf : Nat → Fmt
  | 0x0 => ⟨2, 1, 1, 0⟩
  | 0x1 => ⟨2, 3, 1, 0⟩
  | 0x2 => ⟨3, 2, 3, 0⟩
  | 0x3 => ⟨4, 3, 7, 1⟩
  | 0x4 => ⟨5, 2, 15, 2⟩
  | 0x5 => ⟨0, 8, 6, 3⟩
  | 0x6 => ⟨4, 3, 7, 1⟩
  | 0x7 => ⟨5, 2, 15, 2⟩
  | 0x8 => ⟨0, 8, 0, 3⟩
  | 0x9 => ⟨8, 7, 127, 2⟩
  | 0xA => ⟨5, 10, 15, 2⟩
  | _ => ⟨8, 23, 127, 2⟩
/-- FP24 column run (R60). -/
def fmt24 : Fmt := ⟨8, 15, 127, 2⟩
/-- FP32. -/
def fmt32 : Fmt := ⟨8, 23, 127, 2⟩
/-- BF16. -/
def fmtBf16 : Fmt := ⟨8, 7, 127, 2⟩

/-- Element width in bits. -/
def fmtWidth (f : Fmt) : Nat := if f.kind = 3 then f.fbits else 1 + f.ebits + f.fbits

/-- Value of an encoding (R60, R61). -/
def decodeF (f : Fmt) (code : Nat) : Fv :=
  if f.kind = 3 then
    let u := code % 2 ^ f.fbits
    if u < 2 ^ (f.fbits - 1) then .fin false u (-(f.bias : Int))
    else .fin true (2 ^ f.fbits - u) (-(f.bias : Int))
  else
    let frac := code % 2 ^ f.fbits
    let ex := (code / 2 ^ f.fbits) % 2 ^ f.ebits
    let neg := code.testBit (f.ebits + f.fbits)
    let top := 2 ^ f.ebits - 1
    if f.kind = 2 ∧ ex = top then (if frac = 0 then .inf neg else .nan)
    else if f.kind = 1 ∧ ex = top ∧ frac = 2 ^ f.fbits - 1 then .nan
    else if ex = 0 then .fin neg frac (1 - (f.bias : Int) - f.fbits)
    else .fin neg (2 ^ f.fbits + frac) ((ex : Int) - f.bias - f.fbits)

/-- m / 2^k rounded to nearest, ties to even. -/
def rneShift (m k : Nat) : Nat :=
  let q := m >>> k
  let r := m - q <<< k
  if 2 * r > 2 ^ k then q + 1 else if 2 * r = 2 ^ k then q + q % 2 else q

/-- Round m * 2^e to a multiple of 2^q: the new significand. -/
def rneTo (m : Nat) (e q : Int) : Nat :=
  if q ≤ e then m <<< (e - q).toNat else rneShift m (q - e).toNat

/-- The exponent of the last place of m * 2^e in a format, its exponent range open at the top. -/
def quantum (f : Fmt) (m : Nat) (e : Int) : Int :=
  if f.kind = 3 then -(f.bias : Int)
  else max (1 - (f.bias : Int) - f.fbits) ((m.log2 : Int) + e - f.fbits)

/-- Round to a format as though its exponent range had no upper limit (R76). -/
def roundF (f : Fmt) : Fv → Fv
  | .fin n m e => if m = 0 then .fin n 0 0 else
    let q := quantum f m e
    .fin n (rneTo m e q) q
  | v => v

/-- The largest finite value of a format, as (m, e). INT8 and MXINT8 output is clamped at 127 (R76, R77). -/
def fmtMax (f : Fmt) : Nat × Int :=
  if f.kind = 3 then (127, -(f.bias : Int))
  else if f.kind = 2 then (2 ^ (f.fbits + 1) - 1, (2 ^ f.ebits : Int) - 2 - f.bias - f.fbits)
  else if f.kind = 1 then (2 ^ (f.fbits + 1) - 2, (2 ^ f.ebits : Int) - 1 - f.bias - f.fbits)
  else (2 ^ (f.fbits + 1) - 1, (2 ^ f.ebits : Int) - 1 - f.bias - f.fbits)

/-- m1 * 2^e1 < m2 * 2^e2. -/
def magLt (m1 : Nat) (e1 : Int) (m2 : Nat) (e2 : Int) : Bool :=
  if e1 ≤ e2 then m1 < m2 <<< (e2 - e1).toNat else m1 <<< (e1 - e2).toNat < m2

/-- The magnitude exceeds the format's largest finite value. -/
def overMax (f : Fmt) : Fv → Bool
  | .fin _ m e => let (mm, me) := fmtMax f; magLt mm me m e
  | .inf _ => true
  | .nan => false

/-- The largest finite value with a sign. -/
def clampF (f : Fmt) (neg : Bool) : Fv := let (m, e) := fmtMax f; .fin neg m e

/-- Sign of a value. -/
def fvNeg : Fv → Bool
  | .nan => false
  | .inf n => n
  | .fin n _ _ => n

/-- Finite. -/
def fvFinite : Fv → Bool
  | .fin _ _ _ => true
  | _ => false

/-- Canonical NaN of a format (R74). -/
def nanCode (f : Fmt) : Nat :=
  if f.kind = 1 then 2 ^ (f.ebits + f.fbits) - 1
  else (2 ^ f.ebits - 1) * 2 ^ f.fbits + 2 ^ (f.fbits - 1)

/-- The encoding of a value that the format holds exactly. -/
def encodeF (f : Fmt) : Fv → Nat
  | .nan => nanCode f
  | .inf n => flagAt n (f.ebits + f.fbits) + (2 ^ f.ebits - 1) * 2 ^ f.fbits
  | .fin n m e =>
    if f.kind = 3 then
      let i := rneTo m e (-(f.bias : Int))
      if n ∧ i ≠ 0 then 2 ^ f.fbits - i else i
    else if m = 0 then flagAt n (f.ebits + f.fbits)
    else
      let top := (m.log2 : Int) + e
      let q := quantum f m e
      let s := rneTo m e q
      flagAt n (f.ebits + f.fbits) +
        (if top < 1 - (f.bias : Int) then s else ((top + f.bias).toNat - 1) * 2 ^ f.fbits + s)

/-- IEEE rounding with overflow to infinity. -/
def roundIeee (f : Fmt) (v : Fv) : Fv :=
  let r := roundF f v
  if overMax f r then (match r with | .fin n _ _ => .inf n | w => w) else r

/-- FP32 word of a value, RNE. -/
def to32 (v : Fv) : Word := BitVec.ofNat 32 (encodeF fmt32 (roundIeee fmt32 v))
/-- Value of an FP32 word. -/
def of32 (w : Word) : Fv := decodeF fmt32 w.toNat
/-- FP32 one. -/
def one32 : Word := 0x3F800000
/-- Canonical FP32 NaN. -/
def nan32 : Word := 0x7FC00000

/-- Negation. -/
def fvNegate : Fv → Fv
  | .nan => .nan
  | .inf n => .inf !n
  | .fin n m e => .fin (!n) m e

/-- Exact sum, IEEE 754 signs and specials. -/
def fvAdd : Fv → Fv → Fv
  | .nan, _ => .nan
  | _, .nan => .nan
  | .inf a, .inf b => if a = b then .inf a else .nan
  | .inf a, _ => .inf a
  | _, .inf b => .inf b
  | .fin a m e, .fin b n f =>
    let q := min e f
    let x := m <<< (e - q).toNat
    let y := n <<< (f - q).toNat
    if a = b then .fin a (x + y) q
    else if x = y then .fin false 0 0
    else if y < x then .fin a (x - y) q else .fin b (y - x) q

/-- Exact product, IEEE 754 signs and specials. -/
def fvMul : Fv → Fv → Fv
  | .nan, _ => .nan
  | _, .nan => .nan
  | .inf a, .inf b => .inf (a != b)
  | .inf a, .fin b m _ => if m = 0 then .nan else .inf (a != b)
  | .fin a m _, .inf b => if m = 0 then .nan else .inf (a != b)
  | .fin a m e, .fin b n f => .fin (a != b) (m * n) (e + f)

/-- Quotient with a sticky last bit, exact enough for one rounding to FP32. -/
def fvDiv : Fv → Fv → Fv
  | .nan, _ => .nan
  | _, .nan => .nan
  | .inf _, .inf _ => .nan
  | .inf a, .fin b _ _ => .inf (a != b)
  | .fin a _ _, .inf b => .fin (a != b) 0 0
  | .fin a m e, .fin b n f =>
    if n = 0 then (if m = 0 then .nan else .inf (a != b))
    else
      let k := 64 + n.log2
      let x := m <<< k
      let q := x / n
      .fin (a != b) (2 * q + (if x % n = 0 then 0 else 1)) (e - f - k - 1)

/-- Integer square root by digits: fuel, remaining bit, value so far. -/
def isqrtGo (x : Nat) : Nat → Nat → Nat
  | 0, r => r
  | k + 1, r => let c := r + 2 ^ k; isqrtGo x k (if c * c ≤ x then c else r)
/-- Largest r with r * r ≤ x. -/
def isqrt (x : Nat) : Nat := isqrtGo x (x.log2 / 2 + 1) 0

/-- Square root with a sticky last bit; negative gives NaN, -0 stays. -/
def fvSqrt : Fv → Fv
  | .nan => .nan
  | .inf n => if n then .nan else .inf false
  | .fin n m e =>
    if m = 0 then .fin n 0 0 else if n then .nan
    else
      let odd := (e % 2).toNat
      let x := m <<< (80 + odd)
      let r := isqrt x
      .fin false (2 * r + (if r * r = x then 0 else 1)) ((e - odd - 80) / 2 - 1)

/-- Numeric order with -0 below +0; false for NaN. -/
def fvLt : Fv → Fv → Bool
  | .nan, _ => false
  | _, .nan => false
  | .inf a, .inf b => a && !b
  | .inf a, _ => a
  | _, .inf b => !b
  | .fin a m e, .fin b n f =>
    match a, b with
    | true, false => true
    | false, true => false
    | false, false => magLt m e n f
    | true, true => magLt n f m e
/-- Value comparison of CMPLT and the sign tests: -0 equals +0. -/
def fvLtNum (x y : Fv) : Bool :=
  match x, y with
  | .fin _ 0 _, .fin _ 0 _ => false
  | .fin _ 0 _, y => fvLt (.fin false 0 0) y
  | x, .fin _ 0 _ => fvLt x (.fin true 0 0)
  | x, y => fvLt x y
/-- Greater than zero. -/
def fvPos (x : Fv) : Bool := fvLtNum fvZero x

/-- FP32 sum, one rounding. -/
def add32 (a b : Word) : Word := to32 (fvAdd (of32 a) (of32 b))
/-- FP32 difference. -/
def sub32 (a b : Word) : Word := to32 (fvAdd (of32 a) (fvNegate (of32 b)))
/-- FP32 product. -/
def mul32 (a b : Word) : Word := to32 (fvMul (of32 a) (of32 b))
/-- Fused multiply-add, one rounding. -/
def fma32 (a b c : Word) : Word := to32 (fvAdd (fvMul (of32 a) (of32 b)) (of32 c))
/-- Correctly rounded quotient. -/
def div32 (a b : Word) : Word := to32 (fvDiv (of32 a) (of32 b))
/-- Correctly rounded square root. -/
def sqrt32 (a : Word) : Word := to32 (fvSqrt (of32 a))
/-- Reciprocal square root: the correctly rounded value, off by at most one last place (R120, R184). -/
def rsqrt32 (a : Word) : Word :=
  let r := to32 (fvDiv (of32 one32) (fvSqrt (of32 a)))
  match of32 a, of32 r with
  | .fin _ _ _, .fin _ m _ =>
    if m = 0 then r
    else (match (Config.rsqrtErr a).val with | 0 => r - 1 | 1 => r | _ => r + 1)
  | _, _ => r
/-- Larger value; NaN when any operand is NaN; -0 below +0 (R189). -/
def max32 (a b : Word) : Word :=
  if of32 a = .nan ∨ of32 b = .nan then nan32 else if fvLt (of32 a) (of32 b) then b else a
/-- Smaller value. -/
def min32 (a b : Word) : Word :=
  if of32 a = .nan ∨ of32 b = .nan then nan32 else if fvLt (of32 b) (of32 a) then b else a
/-- Absolute value. -/
def abs32 (a : Word) : Word := match of32 a with | .nan => nan32 | _ => a &&& 0x7FFFFFFF
/-- SIGN (R184). -/
def sign32 (a : Word) : Word :=
  match of32 a with
  | .nan => nan32
  | v => if fvPos v then one32 else if fvPos (fvNegate v) then 0xBF800000 else 0
/-- Round an FP32 word to BF16 and back: the BF16 lanes (R119 text) and BF16 on the wire (R230). -/
def bf16of (a : Word) : Word := to32 (roundIeee fmtBf16 (of32 a))

/-- Functions with a 2-ULP bound (R76, R120): exact at the operands for which the manual states the
result, free within the bound elsewhere (log 8). Codes: 3 sigmoid, 4 tanh, 5 softplus, 6 ELU's
exponential part, 7 exp, 8 GELU, 9 SiLU, 0x13 log, 0x16 erf. -/
def approxFn (code : Nat) (x : Word) : Word :=
  match code, of32 x with
  | _, .nan => nan32
  | 3, .inf n => if n then 0 else one32
  | 4, .inf n => if n then 0xBF800000 else one32
  | 5, .inf n => if n then 0 else 0x7F800000
  | 7, .inf n => if n then 0 else 0x7F800000
  | 8, .inf n => if n then 0x80000000 else 0x7F800000
  | 9, .inf n => if n then 0x80000000 else 0x7F800000
  | c, _ => Config.approx c x

/-- Convert a value with factor q to a non-MX output format (R76): the code, whether it counts in
QSAT_COUNT, and whether it counts in NONFIN_COUNT. -/
def convOut (fmt : Nat) (q : Word) (v : Word) : Nat × Bool × Bool :=
  let f := fmtOf fmt
  let x := of32 v
  let nf := !fvFinite x
  if fmt = 0xB then (v.toNat, false, nf)
  else if fmt = 0x9 ∨ fmt = 0xA then
    let r := roundIeee f x
    (encodeF f r, false, nf || !fvFinite r)
  else
    let p := fvMul x (of32 q)
    match x, p with
    | .fin _ _ _, .fin n m e =>
      let r := roundF f (.fin n m e)
      if overMax f r then (encodeF f (clampF f n), true, false) else (encodeF f r, false, false)
    | .fin _ _ _, .inf n => (encodeF f (clampF f n), true, false)
    | y, _ =>
      if fmt = 0x8 then (0, false, true)
      else if fmt = 0x6 then (nanCode f, false, true)
      else match y with
        | .inf n => (encodeF f (.inf n), false, true)
        | _ => (nanCode f, false, true)

/-- emax of an MX element format (R77). -/
def mxEmax : Nat → Int
  | 0 => 2 | 1 => 2 | 2 => 4 | 3 => 8 | 4 => 15 | _ => 0

/-- Largest magnitude of a block, as (m, e). -/
def maxMag : List Fv → Nat × Int → Nat × Int
  | [], a => a
  | .fin _ m e :: t, (am, ae) => maxMag t (if magLt am ae m e then (m, e) else (am, ae))
  | _ :: t, a => maxMag t a

/-- Quantise one MX block of values (R77): scale byte, element codes, clamped count, whether step 1
applied. -/
def mxQuant (fmt : Nat) (vs : List Fv) : Nat × List Nat × Nat × Bool :=
  let f := fmtOf fmt
  if vs.any (fun v => !fvFinite v) then (0xFF, vs.map (fun _ => 0), 0, true)
  else
    let (m, e) := maxMag vs (0, 0)
    if m = 0 then (0, vs.map (fun _ => 0), 0, false)
    else
      let x := (m.log2 : Int) + e - mxEmax fmt
      let s := (max 0 (min 254 (x + 127))).toNat
      let go := fun (v : Fv) =>
        let r := roundF f (fvMul v (.fin false 1 (127 - (s : Int))))
        if overMax f r then (encodeF f (clampF f (fvNeg r)), 1) else (encodeF f r, 0)
      let es := vs.map go
      (s, es.map (·.1), (es.map (·.2)).foldl (· + ·) 0, false)

/-- Value of an MX element under its scale byte (R62). -/
def mxVal (fmt scale code : Nat) : Fv :=
  if scale = 0xFF then .nan else fvMul (decodeF (fmtOf fmt) code) (.fin false 1 ((scale : Int) - 127))

/-- Is a format code an MX element format? -/
def isMx (fmt : Nat) : Bool := fmt ≤ 5
/-- Operand family (R59): 0 MX, 1 plain FP8, 2 INT8, 3 BF16, 4 FP16, 5 none. -/
def family (fmt : Nat) : Nat :=
  if fmt ≤ 5 then 0 else if fmt ≤ 7 then 1 else if fmt = 8 then 2 else if fmt = 9 then 3
  else if fmt = 0xA then 4 else 5

/-- Signed value of a 32-bit word. -/
def int32 (w : Word) : Int := w.toInt
/-- Saturating 32-bit sum (R71): the word and whether it saturated. -/
def satAdd32 (a : Word) (x : Int) : Word × Bool :=
  let t := a.toInt + x
  if t > 2147483647 then (0x7FFFFFFF, true)
  else if t < -2147483648 then (0x80000000, true)
  else (BitVec.ofInt 32 t, false)
/-- FP32 of an integer, RNE. -/
def ofInt32 (x : Int) : Word := to32 (.fin (x < 0) x.natAbs 0)

end Sys2Proof.Machine
end

