-- ==== Sys2Proof/Machine/Memory.lean ====
section
/-! DEFINITION. Layouts, retained regions and granule retirement (R262 to R277). -/

namespace Sys2Proof.Machine

/-! ### Layout -/

/-- MEM_LAYOUT (R267): the layout takes effect at once, the contents become undefined, and the defect
list is applied again (R274). -/
def cmdMemLayout (s : State) (r : Req) : CmdOut :=
  let p := bitsOf (r.w 0) 2 0
  let mode := bitsOf (r.w 0) 9 8
  let q := bitsOf (r.w 0) 19 16
  match s.part? p with
  | none => failWith s stBadArg
  | some x =>
    if 2 ≤ mode ∨ x.setCount < q then failWith s stBadArg
    else if s.jobs.any (fun e => e.2.part = p) ∨ s.svcs.any (fun e => e.2.part = p) ∨ s.mem.regions.any (fun e => e.2.part = some p) then failWith s stWrong
    else okNow ((s.setPart p { x with mode := mode, privSets := q }).scrambleSets (partSets x)).applyRows
/-- MEM_LAYOUT. -/
def execMemLayout (mb : MbId) (s : State) : Out := .next (runCmd s mb.val 0x0320 (.exact 1) true cmdMemLayout)

/-! ### Retained regions -/

/-- 2 MiB. -/
abbrev mib2 : Nat := 0x200000
/-- Region id of a command, if it exists and belongs to the mailbox's scope (R26, R275). -/
def State.reqRegion (s : State) (r : Req) : Except Nat (Nat × Region) :=
  let i := bitsOf (r.w 0) 5 0
  match tabFind s.mem.regions i with
  | none => .error stBadArg
  | some x => if r.scope = none ∨ x.part = r.scope then .ok (i, x) else .error stNotPerm
/-- Change region i. -/
def State.setRegion (s : State) (i : Nat) (x : Region) : State :=
  { s with mem := { s.mem with regions := tabSet s.mem.regions i x } }
/-- Mask of set numbers. -/
def setMask (l : List Nat) : Nat := (l.map (fun j => 2 ^ j)).foldl (· + ·) 0
/-- REGION_CREATE (R275): its contents are undefined. -/
def cmdRegionCreate (s : State) (r : Req) : CmdOut :=
  let w := r.w 0
  let len := r.w 1
  let a := addrOf w
  if w.testBit 63 ∨ a % mib2 ≠ 0 ∨ len % mib2 ≠ 0 ∨ len = 0 then failWith s stBadArg
  else if s.span r.scope a len = .foreign ∨ (r.scope ≠ none ∧ s.span r.scope a len = .aperture) then failWith s stNotPerm
  else if s.span r.scope a len ≠ .ok then failWith s stBadArg
  else match s.rangeOf a with
    | none => failWith s stBadArg
    | some rg =>
      match rg.part with
      | none => failWith s stBadArg
      | some p =>
        match s.findRun p 64 1 (s.mem.regions.map (fun e => (e.1, 1))) with
        | none => failWith s stNoRes
        | some i =>
          let pt := (s.part? p).getD {}
          let x : Region := { base := a, len := len, part := some p, sets := setMask rg.sets, mode := pt.mode, privSets := pt.privSets }
          .done ((s.scrambleDev a len).setRegion i x) stOk (natLE 1 i)
/-- REGION_CREATE. -/
def execRegionCreate (mb : MbId) (s : State) : Out := .next (runCmd s mb.val 0x0310 (.exact 2) false cmdRegionCreate)

/-- Is a region the current or pending weights of a service (R258)? -/
def State.svcRegion (s : State) (i : Nat) : Bool :=
  s.svcs.any (fun e => decide (e.2.wregion = i) || decide (e.2.pubRegion = some i) || decide (e.2.pubVerify = some i))
/-- REGION_DESTROY (R275). -/
def cmdRegionDestroy (s : State) (r : Req) : CmdOut :=
  match s.reqRegion r with
  | .error e => failWith s e
  | .ok (i, x) =>
    if s.svcRegion i ∨ 0 < x.writers then failWith s stWrong
    else okNow (State.scrambleDev { s with mem := { s.mem with regions := tabDel s.mem.regions i } } x.base x.len)
/-- REGION_DESTROY. -/
def execRegionDestroy (mb : MbId) (s : State) : Out := .next (runCmd s mb.val 0x0311 (.exact 1) false cmdRegionDestroy)

/-- REGION_SEAL (R275, R271). -/
def cmdRegionSeal (s : State) (r : Req) : CmdOut :=
  match s.reqRegion r with
  | .error e => failWith s e
  | .ok (i, x) =>
    if 0 < x.writers then failWith s stWrong
    else match s.devRead x.base x.len with
      | none => failWith (s.devReadBad x.base x.len) stVerify
      | some bs =>
        let crc := crc32c bs
        .done (s.setRegion i { x with sealed := some crc }) stOk (natLE 4 crc)
/-- REGION_SEAL. -/
def execRegionSeal (mb : MbId) (s : State) : Out := .next (runCmd s mb.val 0x0312 (.exact 1) false cmdRegionSeal)

/-- REGION_ASSIGN (R277). -/
def cmdRegionAssign (s : State) (r : Req) : CmdOut :=
  let p := bitsOf (r.w 0) 10 8
  match s.reqRegion r, s.part? p with
  | .error e, _ => failWith s e
  | .ok _, none => failWith s stWrong
  | .ok (i, x), some pt =>
    let fits := (upTo 8).all (fun j => !x.sets.testBit j || (partSets pt).contains j)
    if !x.orphan ∨ !fits ∨ pt.mode ≠ x.mode ∨ pt.privSets ≠ x.privSets then failWith s stWrong
    else okNow (s.setRegion i { x with part := some p, orphan := false })
/-- REGION_ASSIGN. -/
def execRegionAssign (mb : MbId) (s : State) : Out := .next (runCmd s mb.val 0x0313 (.exact 1) true cmdRegionAssign)

/-- REGION_QUERY (R275). -/
def cmdRegionQuery (s : State) (r : Req) : CmdOut :=
  match s.reqRegion r with
  | .error e => failWith s e
  | .ok (_, x) =>
    .done s stOk (natLE 8 x.base ++ natLE 8 x.len ++ natLE 1 (x.part.getD 0xFF) ++
      natLE 1 (flagAt x.sealed.isSome 0 + flagAt x.verified 1 + flagAt x.damaged 2 + flagAt x.orphan 3) ++ zeros 2 ++
      natLE 4 (x.sealed.getD 0))
/-- REGION_QUERY. -/
def execRegionQuery (mb : MbId) (s : State) : Out := .next (runCmd s mb.val 0x0314 (.exact 1) false cmdRegionQuery)

/-! ### Retirement -/

/-- Bytes 16 to 31 of a MEM_UNCORRECTABLE entry (R273). -/
def ueDetail (dpa chan : Nat) (full : Bool) (lost : Nat) : List Byte :=
  natLE 8 dpa ++ natLE 1 chan ++ natLE 1 (flagAt full 0) ++ natLE 2 lost ++ zeros 4
/-- GRANULE_RETIRE (R273): the granule that an uncorrectable access holds is copied to a spare with zeros
for its lost lines, remapped, listed and reported; regions that hold it become DAMAGED. -/
def State.retire (s : State) (g dpa : Nat) : State :=
  let at_ := s.chanOf dpa
  let chan := at_.1
  let base := g * 65536
  let inG := fun (l : Nat) => decide (l / 1024 = g)
  let lost := s.mem.badLines.filter inG
  let dm := lost.foldl (fun m l => m.writeL (l * 64) (zeros 64)) s.devMem
  let rowCol := Config.rowOf chan at_.2
  let s1 := { s with devMem := dm, mem := { s.mem with badLines := s.mem.badLines.filter (fun l => !inG l), held := s.mem.held.filter (fun h => h.1 ≠ g) } }
  let e := mkDefect 2 4 s.bu.startSeq (natLE 1 chan ++ natLE 1 rowCol.1 ++ natLE 4 rowCol.2)
  let (s2, full) := (s1.spareFor g chan).addDefect e
  let dmg := fun (_ : Nat) (r : Region) => if r.base < base + 65536 ∧ base < r.base + r.len then { r with damaged := true } else r
  let info := flagAt full 31 + flagAt (s.mem.ueInfo.testBit 30) 30 + fieldAt lost.length 11 16 + fieldAt (bitsOf s.mem.ueInfo 15 8) 8 8
  let s3 := { s2 with mem := { s2.mem with regions := tabMap dmg s2.mem.regions, ueInfo := info } }
  let owner := s3.setOwner (base / slotBytes)
  s3.raise 0x2001 owner.toList true (owner.getD 0xFF) (ueDetail dpa chan full lost.length)
/-- GRANULE_RETIRE. -/
def execGranuleRetire (granule : Nat) (s : State) : Out :=
  match s.mem.held.find? (fun h => h.1 = granule) with
  | none => .next s
  | some h => .next (if s.fw then s.retire granule h.2 else s)

end Sys2Proof.Machine
end

