-- ==== Sys2Proof/Machine/WeightStore.lean ====
section
/-! DEFINITION. The weight store: installation, removal, grants, loads (R278 to R286). -/

namespace Sys2Proof.Machine

/-- A layer entry of an image (R279): id, offset, length, CRC-32C. -/
structure WsLayer where
  id : Nat
  off : Nat
  len : Nat
  crc : Nat
deriving DecidableEq, Repr
/-- The layer table of an image. -/
def wsLayers (img : List Byte) : List WsLayer :=
  (upTo (leAt img 6 2)).map (fun i => let b := 256 + 32 * i; ⟨leAt img b 2, leAt img (b + 8) 8, leAt img (b + 16) 8, leAt img (b + 24) 4⟩)
/-- Change slot i. -/
def State.setSlot (s : State) (i : Nat) (w : WsSlot) : State := { s with store := { s.store with slots := tabSet s.store.slots i w } }
/-- Free slot i and its extents. -/
def State.freeSlot (s : State) (i : Nat) : State := { s with store := { s.store with slots := tabDel s.store.slots i, install := none } }
/-- The lowest aperture offset at which n extents are free. -/
def State.findExtents (s : State) (n : Nat) : Option Nat :=
  let used := s.store.slots.map (fun e => (e.2.offset, e.2.extents))
  let fits := fun (b : Nat) => decide (b + n ≤ 1536) && used.all (fun u => decide (b + n ≤ u.1) || decide (u.1 + u.2 ≤ b))
  ((0 :: used.map (fun u => u.1 + u.2)).filter fits).foldl (fun m b => match m with | none => some b | some x => some (min x b)) none
/-- A 16-byte completion record of R280. -/
def wsRecord (status layer done moved : Nat) : List Byte := natLE 2 status ++ natLE 2 layer ++ natLE 4 done ++ natLE 8 moved

/-- WS_INSTALL (R280, R281). -/
def cmdWsInstall (s : State) (r : Req) : CmdOut :=
  let src := r.w 0
  match s.outBad r (r.w 1) 16 with
  | some e => failWith s e
  | none =>
    if s.store.install.isSome then failWith s stWrong
    else match s.outBad r src 256 with
    | some e => failWith s e
    | none =>
    match s.r40Read src 256 with
    | none => if r40Dev src then failWith (s.devReadBad (src % 2 ^ 63) 256) stVerify else failWith s stTimeout
    | some h =>
      let len := leAt h 16 8
      let n := ceilDiv len gib
      match tabFree s.store.slots 32, s.findExtents n with
      | some i, some o =>
        if wsEndurance ≤ s.store.wear then failWith s stNoRes
        else if (s.outBad r src len).isSome then failWith s ((s.outBad r src len).getD stBadArg)
        else if leAt h 0 4 ≠ 0x57534732 ∨ leAt h 4 2 ≠ 0x0100 ∨ leAt h 6 2 = 0 ∨ len < 256 + 32 * leAt h 6 2 then failWith s stBadArg
        else if (s.keyFor (leAt h 24 4) 0 none).isNone then failWith s stNotPerm
        else
          let w : WsSlot := { st := 1, baseId := leAt h 8 8, extents := n, offset := o, len := len, keyId := leAt h 24 4 }
          let s1 := s.setSlot i w
          okNow { s1 with store := { s1.store with install := some ⟨i, src, r.w 1, len⟩ } }
      | _, _ => failWith s stNoRes
/-- WS_INSTALL. -/
def execWsInstall (mb : MbId) (s : State) : Out := .next (runCmd s mb.val 0x0A10 (.exact 2) true cmdWsInstall)

/-- An installation ends before its signature check (R282): the bytes already written count toward wear;
how many they are is a free value (log 4). -/
def State.installAbort (s : State) (n : Install) (status : Nat) : State :=
  let (x, s1) := s.draw
  let (y, s2) := s1.draw
  let moved := x % (n.len + 1)
  let s3 := { s2.freeSlot n.slot with store := { (s2.freeSlot n.slot).store with wear := s2.store.wear + moved } }
  s3.r40Write n.cpl (wsRecord status 0xFFFF (y % 2 ^ 32) moved)
/-- The signature and CRC checks of a whole image (R281): the status, the failing LAYER_ID, layers done. -/
def State.installCheck (s : State) (img : List Byte) : Nat × Nat × Nat :=
  let ls := wsLayers img
  let good := fun (l : WsLayer) => decide (l.off % 4096 = 0) && decide (l.off + l.len ≤ img.length) && decide (crc32c ((img.drop l.off).take l.len) = l.crc)
  match ls.findIdx? (fun l => !good l) with
  | some i => (stVerify, (ls.getD i ⟨0xFFFF, 0, 0, 0⟩).id, i)
  | none =>
    let sigOk := match s.keyFor (leAt img 24 4) 0 none with
      | none => false
      | some k => Config.ed448Verify k (shake (zeroed img 28 114)) ((img.drop 28).take 114)
    (if sigOk then stOk else stVerify, 0xFFFF, ls.length)
/-- WS_INSTALL_COMPLETE (R281, R282). -/
def State.installEnd (s : State) (n : Install) : State :=
  match s.r40Read n.src n.len with
  | none => if r40Dev n.src then (s.devReadBad (n.src % 2 ^ 63) n.len).installAbort n stVerify else s.installAbort n stTimeout
  | some img =>
    let w := tabGet {} s.store.slots n.slot
    let base := w.offset * gib
    let res := s.installCheck img
    let ends := base + n.len
    let bad := s.store.badLines.filter (fun l => !(decide (base ≤ l * 64) && decide (l * 64 + 64 ≤ ends)))
    let st := { s.store with bytes := s.store.bytes.writeL base img, badLines := bad, wear := s.store.wear + n.len, install := none }
    let s1 := { s with store := st }
    let s2 := if res.1 = stOk then
        let dig := shake (zeroed img 28 114)
        (s1.setSlot n.slot { w with st := 2, digest := dig }).measure ⟨5, 0xFF, w.keyId, n.slot, dig⟩
      else s1.freeSlot n.slot
    s2.r40Write n.cpl (wsRecord res.1 res.2.1 res.2.2 n.len)
/-- WS_INSTALL_COMPLETE. -/
def execWsInstallComplete (o : LinkOutcome) (s : State) : Out :=
  match s.store.install with
  | none => .next s
  | some n => .next (match o with
    | .ok => s.installEnd n
    | .timeout => s.installAbort n stTimeout
    | .rejected => s.installAbort n stNotPerm
    | .uncorrectable => s.installAbort n stVerify)

/-- WS_REMOVE (R280). -/
def cmdWsRemove (s : State) (r : Req) : CmdOut :=
  let i := bitsOf (r.w 0) 4 0
  match tabFind s.store.slots i with
  | none => failWith s stBadArg
  | some w =>
    if w.st = 1 ∨ w.granted ≠ 0 ∨ s.store.loads.any (fun e => e.2.slot = i) then failWith s stWrong
    else okNow (State.unmeasure { s with store := { s.store with slots := tabDel s.store.slots i } } 5 i)
/-- WS_REMOVE. -/
def execWsRemove (mb : MbId) (s : State) : Out := .next (runCmd s mb.val 0x0A11 (.exact 1) true cmdWsRemove)

/-- WS_GRANT (R280). -/
def cmdWsGrant (s : State) (r : Req) : CmdOut :=
  let i := bitsOf (r.w 0) 4 0
  let p := bitsOf (r.w 0) 10 8
  match tabFind s.store.slots i with
  | none => failWith s stBadArg
  | some w =>
    if (s.part? p).isNone then failWith s stBadArg
    else if (r.w 0).testBit 16 then okNow (s.setSlot i { w with granted := w.granted ||| 2 ^ p })
    else if s.jobs.any (fun e => e.2.part = p) ∨ s.store.loads.any (fun e => e.2.part = some p) then failWith s stWrong
    else okNow (s.setSlot i { w with granted := w.granted &&& (255 - 2 ^ p) })
/-- WS_GRANT. -/
def execWsGrant (mb : MbId) (s : State) : Out := .next (runCmd s mb.val 0x0A12 (.exact 1) true cmdWsGrant)

/-- The base image of a slot. -/
def State.wsImage (s : State) (w : WsSlot) (len : Nat) : List Byte := s.store.bytes.readN (w.offset * gib) len
/-- The layers that a load names: `count` consecutive table entries from LAYER_ID `first` (R283). -/
def State.wsPick (s : State) (w : WsSlot) (first count : Nat) : Option (List WsLayer) :=
  let n := leAt (s.wsImage w 256) 6 2
  let ls := wsLayers (s.wsImage w (256 + 32 * n))
  match ls.findIdx? (fun l => l.id = first) with
  | none => none
  | some i =>
    let got := (ls.drop i).take count
    if count ≠ 0 ∧ got.length = count ∧ (got.zipIdx.all (fun e => decide (e.1.id = first + e.2))) then some got else none
/-- Bytes that a load covers at its destination. -/
def wsSpan (ls : List WsLayer) : Nat :=
  let o := (ls.head?.map (·.off)).getD 0
  ls.foldl (fun m l => max m (l.off + l.len - o)) 0
/-- WS_LOAD (R280, R283). -/
def cmdWsLoad (s : State) (r : Req) : CmdOut :=
  let i := bitsOf (r.w 0) 4 0
  let first := bitsOf (r.w 0) 31 16
  let count := bitsOf (r.w 0) 47 32
  let w := tabGet {} s.store.slots i
  let granted := match r.scope with | none => true | some p => w.granted.testBit p
  if !granted then failWith s stNotPerm
  else match s.outBad r (r.w 2) 16 with
  | some e => failWith s e
  | none =>
    if w.st < 2 ∨ (r.w 1).testBit 63 then failWith s stBadArg
    else match s.wsPick w first count with
    | none => failWith s stBadArg
    | some ls =>
      let sp := s.span r.scope (addrOf (r.w 1)) (max 1 (wsSpan ls))
      if sp = .foreign ∨ sp = .aperture then failWith s stNotPerm
      else if sp = .hole then failWith s stBadArg
      else if w.st = 3 then failWith s stVerify
      else
        let ld : WsLoad := ⟨r.scope, i, first, count, addrOf (r.w 1), r.w 2⟩
        okNow { s with store := { s.store with loads := tabSet s.store.loads s.store.nextLoad ld, nextLoad := s.store.nextLoad + 1 } }
/-- WS_LOAD. -/
def execWsLoad (mb : MbId) (s : State) : Out := .next (runCmd s mb.val 0x0A13 (.exact 3) false cmdWsLoad)

/-- Copy layers in turn (R283): the state, the failing LAYER_ID if one failed, layers done, bytes moved. -/
def State.loadLayers (s : State) (base dest o : Nat) : List WsLayer → Nat → Nat → State × Option Nat × Nat × Nat
  | [], d, m => (s, none, d, m)
  | l :: t, d, m =>
    match s.devRead (apBase + base + l.off) l.len with
    | none => (s.devReadBad (apBase + base + l.off) l.len, some l.id, d, m)
    | some bs =>
      let s1 := s.devWrite (dest + (l.off - o)) bs
      if crc32c bs = l.crc then s1.loadLayers base dest o t (d + 1) (m + l.len) else (s1, some l.id, d, m + l.len)
/-- A load ends (R283). An uncorrectable read that the command brings meets a layer that is a free value. -/
def State.loadEnd (s : State) (id : Nat) (ld : WsLoad) (o : LinkOutcome) : State :=
  let w := tabGet {} s.store.slots ld.slot
  let ls := (s.wsPick w ld.first ld.count).getD []
  let base := w.offset * gib
  let o0 := (ls.head?.map (·.off)).getD 0
  let s0 := { s with store := { s.store with loads := tabDel s.store.loads id } }
  if o = .uncorrectable then
    let (x, s1) := s0.draw
    let k := x % (max 1 ls.length)
    let (s2, bad, d, m) := s1.loadLayers base ld.dest o0 (ls.take k) 0 0
    let l := ls.getD k ⟨0xFFFF, 0, 0, 0⟩
    let (y, s3) := s2.draw
    let f := (base + l.off) / 64 + y % max 1 (l.len / 64)
    let s4 := (s3.noteUe (apBase + f * 64) true).setSlot ld.slot { w with st := 3 }
    State.r40Write { s4 with store := { s4.store with badLines := f :: s4.store.badLines } } ld.cpl (wsRecord stVerify (bad.getD l.id) d m)
  else
    let (s2, bad, d, m) := s0.loadLayers base ld.dest o0 ls 0 0
    s2.r40Write ld.cpl (wsRecord (if bad.isNone then stOk else stVerify) (bad.getD 0xFFFF) d m)
/-- WS_LOAD_COMPLETE. -/
def execWsLoadComplete (load : Nat) (o : LinkOutcome) (s : State) : Out :=
  match tabFind s.store.loads load with
  | none => .next s
  | some ld => .next (s.loadEnd load ld o)

/-- WS_STATUS (R280). -/
def cmdWsStatus (s : State) (r : Req) : CmdOut :=
  let w := tabGet {} s.store.slots (bitsOf (r.w 0) 4 0)
  .done s stOk (natLE 8 w.baseId ++ natLE 2 w.st ++ natLE 2 w.extents ++ natLE 4 w.offset ++ natLE 4 w.granted)
/-- WS_STATUS. -/
def execWsStatus (mb : MbId) (s : State) : Out := .next (runCmd s mb.val 0x0A14 (.exact 1) false cmdWsStatus)

/-- May a task of a partition read a span of the aperture (R284)? -/
def State.apertureOk (s : State) (part a len : Nat) : Bool :=
  s.store.slots.any (fun e => decide (2 ≤ e.2.st) && e.2.granted.testBit part &&
    decide (apBase + e.2.offset * gib ≤ a) && decide (a + len ≤ apBase + e.2.offset * gib + e.2.len))

end Sys2Proof.Machine
end

