-- ==== Sys2Proof/Machine/HostLink.lean ====
section
/-! DEFINITION. Host coupling: host accesses to device memory and page bias (R293 to R301), host DMA
(R307), the session (R314, R315), losing the host (R311 to R316), starting a Pewter program (R309). -/

namespace Sys2Proof.Machine

/-! ### Host accesses -/

/-- Pages that a span touches. -/
def pagesOf (a len : Nat) : List Nat := if len = 0 then [] else (upTo ((a + len - 1) / 4096 - a / 4096 + 1)).map (· + a / 4096)
/-- Is any page of a span in HOST bias (R297)? -/
def State.hostBias (s : State) (a len : Nat) : Bool :=
  s.link.bias.any (fun e => e.2 && decide (a < (e.1 + 1) * 4096) && decide (e.1 * 4096 < a + len))
/-- Set a page's bias. -/
def State.setBias (s : State) (p : Nat) (host : Bool) : State :=
  { s with link := { s.link with bias := if host then tabSet s.link.bias p true else tabDel s.link.bias p } }
/-- Count a refused host access (R293, R295). -/
def State.deny (s : State) : State := { s with link := { s.link with denied := satAdd 0xFF s.link.denied 1 } }
/-- Count a hole access (R269). -/
def State.holeHit (s : State) : State := { s with mem := { s.mem with hole := satAdd 0xFF s.mem.hole 1 } }
/-- All-ones bytes. -/
def ones (n : Nat) : List Byte := List.replicate n 0xFF
/-- The host may not reach the set of an address, or the device is DETACHED (R295). -/
def State.hostRefused (s : State) (a : Nat) : Bool :=
  s.link.detached || !(s.rf .mem 0x068 7 0).testBit (a / slotBytes)
/-- Length of an access. -/
def accLen (a : HostAccess) : Nat := if a.isWrite then a.data.length else a.len
/-- A host access at a DPA (R269, R271, R295); `flip` flips DEVICE pages to HOST first (R299). -/
def State.hostTouch (s : State) (dpa : Nat) (a : HostAccess) (flip : Bool) : State :=
  let n := accLen a
  if n = 0 then s
  else if dpa + n ≤ dpaEnd ∧ s.hostRefused dpa then (if a.isWrite then s.deny else { s.deny with busOut := ones n })
  else if s.span none dpa n ≠ .ok then (if a.isWrite then s.holeHit else { s.holeHit with busOut := ones n })
  else
    let fresh := if flip then (pagesOf dpa n).filter (fun p => !tabGet false s.link.bias p) else []
    let s1 := fresh.foldl (fun st p => (st.setBias p true)) s
    let s2 := { s1 with link := { s1.link with auto := satAdd 0xFFFF s1.link.auto fresh.length } }
    if a.isWrite then s2.devWrite dpa a.data
    else match s2.devRead dpa n with
      | some bs => { s2 with busOut := bs }
      | none => { s2.devReadBad dpa n with busOut := ones n }
/-- CXL_MEM_ACCESS (R289, R293, R299). -/
def execCxlMemAccess (a : HostAccess) (s : State) : Out :=
  .next (if s.link.up ∧ s.link.cxl ∧ 4 ≤ s.link.width then s.hostTouch a.addr a true else s)
/-- MEM_WIN (R294, R296). -/
def State.memWin (s : State) : Nat := s.rf .mem 0x064 7 0 * 2 ^ 32 + s.rf .mem 0x060 31 30 * 2 ^ 30
/-- BAR4_ACCESS (R293, R294). -/
def execBar4Access (a : HostAccess) (s : State) : Out :=
  if !s.link.up ∨ s.link.width < 4 ∨ 2 ^ s.link.bar4Log2 < a.addr + accLen a then .next s
  else if s.link.requester ≠ some a.requester then .next s.deny
  else .next (s.hostTouch (s.memWin + a.addr) a false)

/-! ### Bias commands -/

/-- Check the span of a bias command (R301). -/
def State.biasSpan (s : State) (r : Req) (a len : Nat) : Nat :=
  if (r.w 0).testBit 63 ∨ a % 4096 ≠ 0 then stBadArg
  else match s.span none a len with
    | .hole => stBadArg
    | .aperture => stBadArg
    | _ => if s.span r.scope a len = .ok then stOk else stNotPerm
/-- BIAS_SET (R300, R301). -/
def cmdBiasSet (s : State) (r : Req) : CmdOut :=
  let a := addrOf (r.w 0)
  let len := bitsOf (r.w 1) 39 0
  let host := (r.w 1).testBit 40
  if len % 4096 ≠ 0 ∨ len = 0 ∨ gib < len then failWith s stBadArg
  else if s.biasSpan r a len ≠ stOk then failWith s (s.biasSpan r a len)
  else if host ∧ !s.link.cxl then failWith s stWrong
  else okNow ((pagesOf a len).foldl (fun st p => st.setBias p host) s)
/-- BIAS_SET. -/
def execBiasSet (mb : MbId) (s : State) : Out := .next (runCmd s mb.val 0x0302 (.exact 2) false cmdBiasSet)
/-- BIAS_QUERY (R301). -/
def cmdBiasQuery (s : State) (r : Req) : CmdOut :=
  let a := addrOf (r.w 0)
  if s.biasSpan r a 4096 ≠ stOk then failWith s (s.biasSpan r a 4096)
  else .done s stOk (natLE 1 (if tabGet false s.link.bias (a / 4096) then 1 else 0))
/-- BIAS_QUERY. -/
def execBiasQuery (mb : MbId) (s : State) : Out := .next (runCmd s mb.val 0x0303 (.exact 1) false cmdBiasQuery)

/-! ### Host DMA -/

/-- May a request signal a counter: its job or service lies in the mailbox's partition (R26). -/
def State.ctrOk (s : State) (r : Req) (c : Nat) : Bool :=
  decide (c < 16384) && (r.scope = none || s.ctrPart c = r.scope)
/-- Are the outstanding commands of a mailbox's share 256, or an isolated partition's 32 (R307, R433)? -/
def State.dmaFull (s : State) (scope : Option Nat) : Bool :=
  let p := scope.getD 8
  decide (s.share p 256 ≤ (s.link.dma.filter (fun e => s.sameShare p (e.2.part.getD 8))).length)
/-- HOST_DMA (R307). -/
def cmdHostDma (s : State) (r : Req) : CmdOut :=
  let w := r.w 0
  let sig := bitsOf w 29 16
  let inc := bitsOf w 47 32
  let dev := addrOf (r.w 2)
  let len := r.w 3
  let sp := s.span r.scope dev len
  if bitsOf w 15 2 ≠ 0 ∨ bitsOf w 31 30 ≠ 0 ∨ bitsOf w 63 48 ≠ 0 ∨ r.w 1 % 64 ≠ 0 ∨ (r.w 2).testBit 63 ∨ len % 64 ≠ 0 ∨ len < 64 ∨ 4 * gib < len ∨ r.w 4 % 16 ≠ 0 then failWith s stBadArg
  else if 56 ≤ r.mb ∨ sp = .foreign ∨ sp = .aperture ∨ (inc ≠ 0 ∧ !s.ctrOk r sig) then failWith s stNotPerm
  else if sp = .hole then failWith s stBadArg
  else match s.outBad r (r.w 4) 16 with
  | some e => failWith s e
  | none =>
    if s.dmaFull r.scope then failWith s stNoRes
    else
      let d : Dma := ⟨w.testBit 0, w.testBit 1, sig, inc, r.w 1, dev, len, r.w 4, r.scope⟩
      okNow { s with link := { s.link with dma := tabSet s.link.dma s.link.nextDma d, nextDma := s.link.nextDma + 1 } }
/-- HOST_DMA. -/
def execHostDma (mb : MbId) (s : State) : Out := .next (runCmd s mb.val 0x0330 (.exact 5) false cmdHostDma)

/-- The completion record of a host DMA command (R307). -/
def dmaRecord (status crc moved : Nat) : List Byte := natLE 2 status ++ zeros 2 ++ natLE 4 crc ++ natLE 8 moved
/-- A command that fails: how many bytes had moved is a free value (log 4). -/
def State.dmaFail (s : State) (id : Nat) (d : Dma) (status : Nat) : State :=
  let (x, s1) := s.draw
  State.r40Write { s1 with link := { s1.link with dma := tabDel s1.link.dma id } } d.cpl (dmaRecord status 0 (x % (d.len + 1)))
/-- A command that succeeds: the data, the record, then the signal. -/
def State.dmaOk (s : State) (id : Nat) (d : Dma) (bs : List Byte) : State :=
  let s0 := { s with link := { s.link with dma := tabDel s.link.dma id } }
  let s1 := if d.toHost then s0.hostWrite d.host bs else s0.devWrite d.dev bs
  let s2 := s1.r40Write d.cpl (dmaRecord stOk (if d.crc then crc32c bs else 0) d.len)
  if d.inc = 0 then s2 else s2.addCtr d.sig d.inc
/-- HOST_DMA_COMPLETE. -/
def execHostDmaComplete (cmd : Nat) (o : LinkOutcome) (s : State) : Out :=
  match tabFind s.link.dma cmd with
  | none => .next s
  | some d => .next (match o with
    | .timeout => s.dmaFail cmd d stTimeout
    | .rejected => s.dmaFail cmd d stNotPerm
    | .uncorrectable => (s.lineFails d.dev d.len).dmaFail cmd d stVerify
    | .ok =>
      if d.toHost then
        match s.devRead d.dev d.len with
        | some bs => s.dmaOk cmd d bs
        | none => (s.devReadBad d.dev d.len).dmaFail cmd d stVerify
      else s.dmaOk cmd d (s.hostMem.readN d.host d.len))

/-! ### The session -/

/-- Jobs loaded on a Pewter mailbox (R310). -/
def State.autoJobs (s : State) : List (Nat × Job) := s.jobs.filter (fun e => decide (56 ≤ e.2.mailbox))
/-- ATTACH (R315). -/
def cmdAttach (s : State) (r : Req) : CmdOut :=
  let recent := s.link.fails.filter (fun t => decide (s.tick ≤ t + 6000000000))
  if !s.link.detached then failWith s stWrong
  else if bitsOf (r.w 0) 31 0 ≠ s.bu.session then failWith s stBadArg
  else match s.link.cred with
  | none => failWith s stNotPerm
  | some dig =>
    if 8 ≤ recent.length then failWith s stNotPerm
    else if Config.shake256 ((upTo 4).flatMap (fun i => natLE 8 (r.w (1 + i)))) 32 ≠ dig then
      failWith { s with link := { s.link with fails := s.tick :: s.link.fails } } stVerify
    else
      .done { s with link := { s.link with detached := false, fails := [] } } stOk
        (natLE 4 s.bu.session ++ natLE 2 s.autoJobs.length ++ natLE 2 s.svcs.length ++ natLE 8 s.link.lossTick)
/-- ATTACH. -/
def execAttach (mb : MbId) (s : State) : Out := .next (runCmd s mb.val 0x0105 (.exact 5) true cmdAttach)
/-- SESSION_CRED (R315). -/
def cmdSessionCred (s : State) (r : Req) : CmdOut :=
  let dig := (upTo 4).flatMap (fun i => natLE 8 (r.w i))
  if dig = zeros 32 then failWith s stBadArg else okNow { s with link := { s.link with cred := some dig } }
/-- SESSION_CRED. -/
def execSessionCred (mb : MbId) (s : State) : Out := .next (runCmd s mb.val 0x0106 (.exact 4) true cmdSessionCred)

/-! ### Link-up and loss -/

/-- HOST_CONFIG_WRITE (R293): the first after link-up names the host. -/
def execHostConfigWrite (requester : Nat) (s : State) : Out :=
  .next (if s.link.up ∧ s.link.requester = none then { s with link := { s.link with requester := some requester } } else s)
/-- HOST_LINK_UP (R288, R452): the link trains once 48 V is present and PERST_N is released. -/
def execHostLinkUp (width rate : Nat) (cxl : Bool) (s : State) : Out :=
  .next (if s.link.up ∨ s.power.perst ∨ !s.power.v48 then s
    else { s with link := { s.link with up := true, cxl := cxl, width := width, rate := rate, requester := none } })

/-- Every HOST page becomes DEVICE with undefined contents (R312). -/
def State.clearBias (s : State) : State :=
  let ps := (s.link.bias.filter (·.2)).map (·.1)
  let s1 := ps.foldl (fun st p => st.scrambleDev (p * 4096) 4096) s
  { s1 with link := { s1.link with bias := [] } }
/-- A held response that is due in host memory is discarded (R312). -/
def State.mbForget (s : State) (n : Nat) : State :=
  if flag (s.reg (.mb n) 0x020) 29 then s else s.setMb n { s.mb n with held := none }
/-- What a loss of the host link does (R312, R314, R316). -/
def State.hostLost (s : State) : State :=
  let s0 := { s with link := { s.link with up := false, cxl := false, width := 0, rate := 0 } }
  if !s.fw then s0
  else
    let s1 := State.newSession { s0 with link := { s0.link with detached := true, lossTick := s.tick } }
    let hostJobs := (s1.jobs.filter (fun e => decide (e.2.mailbox < 56) && jobRuns e.2)).map (·.1)
    let s2 := hostJobs.foldl (fun st j => st.fence j 0x0A 0 0 0 0) s1
    let s3 := s2.clearBias
    let s4 := (upTo 56).foldl (fun st n => if (st.mb n).st = .disabled then st else
      ((st.setReg (.mb n) 0x020 (st.reg (.mb n) 0x020 &&& 0x7FFFFFFF)).mbForget n).mbDisable n) s3
    let s5 := s4.link.dma.foldl (fun st e => st.dmaFail e.1 e.2 stTimeout) s4
    let s6 := match s5.store.install with | none => s5 | some n => s5.installAbort n stTimeout
    s6.raise 0x2004 s6.partIds true 0xFF (natLE 8 s.tick ++ natLE 2 hostJobs.length ++ natLE 2 ((s6.jobs.filter (fun e => jobRuns e.2)).length))
/-- HOST_LINK_LOSS (R311). -/
def execHostLinkLoss (s : State) : Out := .next (if s.link.up then s.hostLost else s)

/-! ### Pewter programs -/

/-- PEWTER_START (R309): the signature block lies in the 256 B below the image (R413). -/
def cmdPewterStart (s : State) (r : Req) : CmdOut :=
  let a := addrOf (r.w 0)
  let len := r.w 1
  let p := match r.scope with | none => bitsOf (r.w 2) 2 0 | some p => p
  if (r.w 0).testBit 63 ∨ a % 4096 ≠ 0 ∨ len < 4096 ∨ 0x4000000 < len ∨ (s.part? p).isNone then failWith s stBadArg
  else if a < 256 ∨ s.span (some p) (a - 256) (len + 256) ≠ .ok then failWith s stNotPerm
  else match s.devRead (a - 256) 256, s.devRead a len with
    | some blk, some img =>
      match s.verifyImage blk img 3 (some p), tabFree s.pewter 8 with
      | none, _ => failWith s stVerify
      | some _, none => failWith s stNoRes
      | some (key, dig), some h =>
        let s1 := { s with pewter := tabSet s.pewter h { part := p, base := a, len := len } }
        let s2 := (s1.setMb (56 + h) { part := some p }).measure ⟨3, p, key, h, dig⟩
        .done s2 stOk (natLE 1 (56 + h))
    | _, _ => failWith (s.devReadBad (a - 256) (len + 256)) stVerify
/-- PEWTER_START. -/
def execPewterStart (mb : MbId) (s : State) : Out := .next (runCmd s mb.val 0x0120 (.exact 3) false cmdPewterStart)

end Sys2Proof.Machine
end

