-- ==== Sys2Proof/Machine/Transport.lean ====
section
/-! DEFINITION. The device transport: paths and packets (R341 to R350), work requests (R351 to R354),
acknowledgement and retransmission (R355 to R358), congestion control (R359), regions (R360, R361),
triggers (R362 to R364), keepalives and notices (R471 to R474), and the 0x08xx commands (R367). -/

namespace Sys2Proof.Machine

/-! ### Paths and contexts -/

/-- Is a path DOWN (R346)? -/
def State.pathDown (s : State) (q : Qp) (j : Nat) : Bool := !(s.sub (pathSub q j)).link || q.down.contains j
/-- Paths that are UP, ascending. -/
def State.upPaths (s : State) (q : Qp) : List Nat := (upTo q.npath).filter (fun j => !s.pathDown q j)
/-- The next UP path after a path, in ascending order round the ring (R345). -/
def State.nextPath (s : State) (q : Qp) (j : Nat) : Option Nat :=
  let up := s.upPaths q
  match up.find? (fun k => decide (j < k)) with
  | some k => some k
  | none => up.head?
/-- The path for a control packet: the lowest UP path (log 17). -/
def State.ctlPath (s : State) (q : Qp) : Nat := (s.upPaths q).headD 0
/-- A path for a retransmission: the next UP one, which is another unless only one is UP (R345). -/
def State.otherPath (s : State) (q : Qp) (j : Nat) : Option Nat := s.nextPath q j

/-- The context is idle (R349). -/
def State.qpIdle (s : State) (qpn : Nat) (q : Qp) : Bool :=
  q.unacked = [] && q.wrs = [] && !(s.xp.miss.any (fun e => e.2.any (fun m => m.2.1.dstQpn = qpn)))
/-- Mark a context used now (R349). -/
def State.touchQp (s : State) (qpn : Nat) : State :=
  match s.qp? qpn with
  | none => s
  | some q =>
    let s1 := s.setQp qpn { q with lru := s.xp.nextLru }
    { s1 with xp := { s1.xp with nextLru := s.xp.nextLru + 1 } }
/-- Is the cache of 4,096 contexts full for a partition (R349, R433)? -/
def State.cacheFull (s : State) (p : Nat) : Bool :=
  decide (s.share p 4096 ≤ (s.xp.qps.filter (fun e => e.2.cached && s.sameShare p e.2.part)).length)
/-- Are 1,024 contexts pinned, or an isolated partition's 128 (R349, R433)? -/
def State.pinFull (s : State) (p : Nat) : Bool :=
  decide (s.share p 1024 ≤ (s.xp.qps.filter (fun e => e.2.pin && s.sameShare p e.2.part)).length)
/-- Bring a context into the cache, evicting the least recently used idle one that is not pinned; none
when every cached context is busy (R349). -/
def State.cacheIn (s : State) (qpn : Nat) : Option State :=
  match s.qp? qpn with
  | none => none
  | some q =>
    if q.cached then some s
    else if !s.cacheFull q.part then some ((s.setQp qpn { q with cached := true }).touchQp qpn)
    else
      let idle := s.xp.qps.filter (fun e => e.2.cached && !e.2.pin && s.qpIdle e.1 e.2 && s.sameShare q.part e.2.part)
      match idle.foldl (fun (m : Option (Nat × Qp)) e => match m with | none => some e | some x => if e.2.lru < x.2.lru then some e else some x) none with
      | none => none
      | some v => some (((s.setQp v.1 { v.2 with cached := false }).setQp qpn { q with cached := true }).touchQp qpn)

/-! ### Rates -/

/-- Nanoseconds between two ticks. -/
def nsSince (now t : Nat) : Nat := (now - t) * 10
/-- Sum of the line rates of the QP's sub-ports that are UP, in Mb/s (R359). -/
def State.rateMax (s : State) (q : Qp) : Nat :=
  ((maskSubs q.mask).map (fun i => if (s.sub i).link then (if s.mode1 (i / 2) then 400000 else 800000) else 0)).foldl (· + ·) 0
/-- RTO in ns (R357). -/
def qpRto (q : Qp) : Nat :=
  match q.srtt with
  | none => 200000
  | some r => max 50000 (r + 4 * q.rttvar)
/-- Smoothing with gains 1/8 and 1/4 (R357). -/
def smooth (q : Qp) (r : Nat) : Qp :=
  match q.srtt with
  | none => { q with srtt := some r, rttvar := r / 2 }
  | some m =>
    let d := if m ≤ r then r - m else m - r
    { q with srtt := some ((7 * m + r) / 8), rttvar := (3 * q.rttvar + d) / 4 }
/-- One sample of R359: `new` and `ece` are those of the acknowledgement, 0 for a probe reply. Quotients
are rounded down (log 18). -/
def State.pace (s : State) (q0 : Qp) (r new ece : Nat) : Qp :=
  let keep := q0.samples.filter (fun e => decide (s.tick ≤ e.1 + 1000000))
  let q := { smooth q0 r with samples := (s.tick, r) :: keep }
  let base := q.samples.foldl (fun m e => min m e.2) r
  let srtt := q.srtt.getD r
  let cc := s.reg (.xp q.job) 0x004
  let rmin := fld cc 7 0 * 1000
  let thigh := fld cc 31 24 * 1000
  let beta := fld cc 15 8
  let ai := fld cc 23 16 * 1000
  let due := decide (srtt ≤ nsSince s.tick q.lastDec)
  if 0 < new ∧ 0 < ece ∧ due then
    let al := q.alpha * 15 / 16 + ece * 65536 / new / 16
    { q with alpha := al, rate := max (q.rate * (131072 - al) / 131072) rmin, lastDec := s.tick, lastChange := s.tick, clean := 0 }
  else if base + thigh < r ∧ due then
    { q with rate := max (q.rate - q.rate * beta * (r - (base + thigh)) / (256 * r)) rmin, lastDec := s.tick, lastChange := s.tick, clean := 0 }
  else if srtt ≤ nsSince s.tick q.lastChange then
    { q with clean := q.clean + 1, rate := min (q.rate + (if 5 < q.clean + 1 then 5 else 1) * ai) (s.rateMax q), lastChange := s.tick }
  else q

/-! ### Work requests -/

/-- Field of a WQE word. -/
def wq (w : List Nat) (i hi lo : Nat) : Nat := bitsOf (w.getD i 0) hi lo
/-- OP of a WQE. -/
def wqOp (w : List Nat) : Nat := wq w 0 3 0
/-- A WQE keeps the form of R351 for its QP. -/
def wqeOk (qpn : Nat) (w : List Nat) : Bool :=
  let op := wqOp w
  let len := wq w 2 63 0
  decide (op < 4) && wq w 0 7 4 = 0 && wq w 0 15 10 = 0 && wq w 0 63 48 = 0 && wq w 1 63 48 = 0 &&
  wq w 3 63 48 = 0 && wq w 4 47 46 = 0 && wq w 7 63 48 = 0 && wq w 7 47 32 = qpn &&
  (if op = 1 ∨ op = 2 then len % 64 = 0 && decide (64 ≤ len) && decide (len ≤ gib) && wq w 3 47 0 % 64 = 0
   else len = 0) && (op ≠ 2 || wq w 4 63 48 = 0)
/-- The addresses and counters of a WQE lie in the QP's partition (R358, LOCAL_ACCESS). -/
def State.wqeLocal (s : State) (q : Qp) (w : List Nat) (trig : Bool) : Bool :=
  let op := wqOp w
  (if op = 1 ∨ op = 2 then s.span (some q.part) (wq w 1 47 0) (wq w 2 39 0) = .ok else true) &&
  (wq w 0 47 32 = 0 || s.ctrPart (wq w 0 29 16) = some q.part) &&
  (!trig || s.ctrPart (wq w 5 13 0) = some q.part) &&
  (w.getD 6 0 = 0 || (!(w.getD 6 0).testBit 63 && s.span (some q.part) (addrOf (w.getD 6 0)) 16 = .ok))
/-- Payload bytes of a full packet (R341). -/
def State.mtu (s : State) (q : Qp) : Nat := if flag (s.reg (.xp q.job) 0x000) 31 then 8192 else 4096
/-- Packets of a WRITE or ADD, without their data (R342, R353). -/
def State.wrPackets (s : State) (qpn : Nat) (q : Qp) (w : List Nat) : List Packet :=
  let len := wq w 2 39 0
  let m := s.mtu q
  let n := max 1 (ceilDiv len m)
  let base := { mkPkt qpn q (if wqOp w = 1 then 1 else 4) with msn := q.msn, msgPsn0 := q.psn, msgPkts := n, rkey := if wqOp w = 1 then wq w 4 31 0 else 0, rctrEn := (w.getD 0 0).testBit 9 || wqOp w = 3, rctr := wq w 4 45 32, rinc := wq w 4 63 48 }
  (upTo n).map (fun k => { base with psn := (q.psn + k) % 2 ^ 32, taddr := if wqOp w = 1 then wq w 3 47 0 + k * m else 0 })
/-- The READ_REQ of a READ (R343, R354). -/
def readReq (qpn : Nat) (q : Qp) (wr : Wr) : Packet :=
  { mkPkt qpn q 2 with msn := wr.num % 2 ^ 32, msgPkts := 1, taddr := wq wr.w 3 47 0, rkey := wq wr.w 4 31 0, rctrEn := (wr.w.getD 0 0).testBit 9, rctr := wq wr.w 4 45 32, payload := natLE 8 (wq wr.w 1 47 0) ++ natLE 8 (wq wr.w 2 39 0) }
/-- Change a WR of a QP. -/
def qpMapWr (q : Qp) (num : Nat) (f : Wr → Wr) : Qp := { q with wrs := q.wrs.map (fun x => if x.num = num then f x else x) }
/-- A WR completes: its record, then LCTR (R353). -/
def State.wrDone (s : State) (qpn : Nat) (wr : Wr) : State :=
  match s.qp? qpn with
  | none => s
  | some q =>
    let s1 := s.setQp qpn { q with wrs := q.wrs.filter (fun x => x.num ≠ wr.num) }
    let s2 := s1.wrRecord q qpn wr.w 0 (wq wr.w 2 39 0)
    if wq wr.w 0 47 32 = 0 then s2 else s2.addCtr (wq wr.w 0 29 16) (wq wr.w 0 47 32)
/-- Is a started WR finished: every packet sent and acknowledged, every byte read? -/
def wrEnded (wr : Wr) : Bool :=
  wr.started && (match wqOp wr.w with | 2 => wr.readLeft = 0 | 0 => false | _ => wr.toSend = [] && wr.outstanding = 0)
/-- Complete every WR that has ended, and NOPs at the head, oldest first. -/
def State.settle (s : State) (qpn : Nat) : Nat → State
  | 0 => s.reapQp qpn
  | n + 1 =>
    match s.qp? qpn with
    | none => s
    | some q =>
      match q.wrs.find? wrEnded with
      | some wr => (s.wrDone qpn wr).settle qpn n
      | none =>
        match q.wrs with
        | wr :: _ => if wr.started ∧ wqOp wr.w = 0 then (s.wrDone qpn wr).settle qpn n else s.reapQp qpn
        | [] => s.reapQp qpn
/-- As many rounds as a QP can have WRs to complete. -/
def State.settleAll (s : State) (qpn : Nat) : State :=
  s.settle qpn (((s.qp? qpn).map (fun q => q.wrs.length)).getD 0 + 1)

/-- WR_START (R351, R352). -/
def State.wrStart (s : State) (qpn : Nat) : State :=
  match s.qp? qpn with
  | none => s
  | some q =>
    if q.st ≠ .rts ∨ !q.cached then s
    else match q.wrs.find? (fun w => !w.started) with
    | none => s
    | some wr =>
      let first := (q.wrs.head?.map (·.num)) = some wr.num
      if (wr.w.getD 0 0).testBit 8 ∧ !first then s
      else
        let qr := if wr.ring then { q with sqCons := (q.sqCons + 1) % 2 ^ (q.sqLog2 + 1) } else q
        let qc := { qr with lru := s.xp.nextLru }
        let s0 := (s.setQp qpn qr).touchQp qpn
        if wr.body.isNone ∧ !wqeOk qpn wr.w then s0.qpFail qpn 4 (some wr.num)
        else if wr.body.isNone ∧ !s.wqeLocal q wr.w (!wr.ring) then s0.qpFail qpn 5 (some wr.num)
        else match wqOp wr.w with
        | 0 => (s0.setQp qpn (qpMapWr qc wr.num (fun x => { x with started := true }))).settleAll qpn
        | 2 =>
          let q1 := qpMapWr qc wr.num (fun x => { x with started := true, readLeft := wq x.w 2 39 0, readTick := s.tick })
          let s1 := s0.setQp qpn q1
          s1.sendPkt qpn (s1.ctlPath q1) q1.cls (readReq qpn q1 wr)
        | _ =>
          let ps := s.wrPackets qpn qc wr.w
          let q1 := qpMapWr qc wr.num (fun x => { x with started := true, toSend := ps, msn := qc.msn })
          s0.setQp qpn { q1 with psn := (qc.psn + ps.length) % 2 ^ 32, msn := (qc.msn + 1) % 2 ^ 32 }
/-- WR_START. -/
def execWrStart (qpn : Nat) (s : State) : Out := .next (s.wrStart qpn)

/-- Packets between two PSNs, modulo 2^32. -/
def psnOff (psn base : Nat) : Nat := (psn + 2 ^ 32 - base) % 2 ^ 32
/-- DATA_PACKET_SEND (R345, R354, R355): owed READ responses first, then the next packet of the oldest WR
with packets to send, within the window of 1,024. -/
def State.dataSend (s : State) (qpn : Nat) : State :=
  match s.qp? qpn with
  | none => s
  | some q =>
    if q.st ≠ .rts ∨ !q.cached then s
    else match s.nextPath q q.lastPath with
    | none => s
    | some j =>
      match q.resp with
      | p :: t => (s.setQp qpn { q with resp := t, lastPath := j }).sendPkt qpn j q.cls p
      | [] =>
        match q.wrs.find? (fun w => w.toSend ≠ []) with
        | none => s
        | some wr =>
          match wr.toSend with
          | [] => s
          | p :: t =>
            let oldest := (q.unacked.head?.map (fun u => u.pkt.psn)).getD p.psn
            if 1024 ≤ psnOff p.psn oldest then s
            else
              let off := p.taddr - wq wr.w 3 47 0
              let len := if p.typ = 1 then min (s.mtu q) (wq wr.w 2 39 0 - off) else 0
              let src := wq wr.w 1 47 0 + off
              let data := match wr.body with | some bs => some ((bs.drop off).take len) | none => if len = 0 then some [] else s.devRead src len
              match data with
              | none => (s.devReadBad src len).qpFail qpn 6 (some wr.num)
              | some bs =>
                let p1 := { p with payload := bs }
                let q1 := qpMapWr q wr.num (fun x => { x with toSend := t, outstanding := x.outstanding + 1 })
                let u : Unacked := { pkt := { p1 with path := j, txc := q.txc }, path := j, sentTick := s.tick, rto := qpRto q, wr := wr.num }
                (s.setQp qpn { q1 with unacked := q.unacked ++ [u], lastPath := j }).sendPkt qpn j q.cls p1
/-- DATA_PACKET_SEND. -/
def execDataPacketSend (qpn : Nat) (s : State) : Out := .next (s.dataSend qpn)

/-! ### Retransmission -/

/-- RETRY_LIMIT of a QP's job. -/
def State.retryLimit (s : State) (q : Qp) : Nat := s.rf (.xp q.job) 0x000 27 24
/-- Count a retransmission (R368). -/
def State.countRetx (s : State) (j : Nat) : State :=
  match s.job? j with
  | none => s
  | some x => s.setJob j { x with retx := satAdd 0xFFFFFFFF x.retx 1 }
/-- Send an unacknowledged packet again, on another path, with RETX set (R345, R357); `dbl` doubles its
RTO. With every path DOWN it waits, its timer running, and its expiries count (R346, R475; log 18). -/
def State.resend (s : State) (qpn psn : Nat) (dbl : Bool) : State :=
  match s.qp? qpn with
  | none => s
  | some q =>
    match q.unacked.find? (fun u => u.pkt.psn = psn) with
    | none => s
    | some u =>
      if s.retryLimit q ≤ u.tries then s
      else
        let rto := if dbl then 2 * u.rto else u.rto
        match s.otherPath q u.path with
        | none =>
          if dbl then s.setQp qpn { q with unacked := q.unacked.map (fun x => if x.pkt.psn = psn then { x with sentTick := s.tick, rto := rto, tries := x.tries + 1 } else x) } else s
        | some j =>
          let p1 := { u.pkt with retx := true, path := j, txc := q.txc }
          let un := q.unacked.map (fun x => if x.pkt.psn = psn then { x with pkt := p1, path := j, sentTick := s.tick, rto := rto, tries := x.tries + 1 } else x)
          ((s.setQp qpn { q with unacked := un }).sendPkt qpn j q.cls p1).countRetx q.job
/-- A path goes DOWN: what was last sent on it goes out again at once on other paths (R346). -/
def State.pathFell (s : State) (qpn : Nat) (lost : Nat → Bool) : State :=
  match s.qp? qpn with
  | none => s
  | some q => ((q.unacked.filter (fun u => lost u.path)).map (fun u => u.pkt.psn)).foldl (fun st n => st.resend qpn n false) s
/-- A sub-port's LINK bit became 0: every path that leaves from it is DOWN (R346). -/
def State.subFell (s : State) (i : Nat) : State :=
  s.xp.qps.foldl (fun st e => if e.2.st = .rts ∧ e.2.mask.testBit i then st.pathFell e.1 (fun j => pathSub e.2 j = i) else st) s

/-- RTO_EXPIRE (R346, R354, R357). -/
def State.rtoExpire (s : State) (qpn : Nat) : State :=
  match s.qp? qpn with
  | none => s
  | some q =>
    if q.st ≠ .rts then s
    else match q.unacked.find? (fun u => decide (u.rto ≤ nsSince s.tick u.sentTick)) with
    | some u =>
      if s.retryLimit q ≤ u.tries then s.qpFail qpn 3 (some u.wr)
      else
        let j := u.path
        let fell := q.strikes.contains j && !q.down.contains j
        let q1 := if q.strikes.contains j then { q with down := if q.down.contains j then q.down else j :: q.down } else { q with strikes := j :: q.strikes }
        let s1 := (s.setQp qpn q1).resend qpn u.pkt.psn true
        if fell then s1.pathFell qpn (fun k => k = j) else s1
    | none =>
      match q.wrs.find? (fun w => w.started && wqOp w.w = 2 && decide (0 < w.readLeft) && decide (qpRto q ≤ nsSince s.tick w.readTick)) with
      | none => s
      | some w =>
        if s.retryLimit q ≤ w.readTries then s.qpFail qpn 3 (some w.num)
        else
          let q1 := qpMapWr q w.num (fun x => { x with readTick := s.tick, readTries := x.readTries + 1 })
          let s1 := s.setQp qpn q1
          (s1.sendPkt qpn (s1.ctlPath q1) q1.cls { readReq qpn q1 w with retx := true }).countRetx q.job
/-- RTO_EXPIRE. -/
def execRtoExpire (qpn : Nat) (s : State) : Out := .next (s.rtoExpire qpn)

/-- PATH_PROBE (R346, R359): on a DOWN path, or on an UP path while packets are unacknowledged, each 100 us. -/
def execPathProbe (qpn path : Nat) (s : State) : Out :=
  match s.qp? qpn with
  | none => .next s
  | some q =>
    let recent := q.probes.any (fun e => e.1 = path && decide (s.tick < e.2.2 + 10000))
    if q.st ≠ .rts ∨ q.npath ≤ path ∨ recent ∨ (!s.pathDown q path ∧ q.unacked = []) then .next s
    else .next ((s.setQp qpn { q with probes := (path, q.txc, s.tick) :: q.probes.filter (fun e => e.1 ≠ path) }).sendPkt qpn path 3 (mkPkt qpn q 7))

/-! ### Receiving -/

/-- Count in NO_QP (R343, R347). -/
def State.noQp (s : State) : State := { s with xp := { s.xp with noQp := satAdd 0xFFFF s.xp.noQp 1 } }
/-- Change a job if it is loaded. -/
def State.onJob (s : State) (j : Nat) (f : Job → Job) : State :=
  match s.job? j with
  | none => s
  | some x => s.setJob j (f x)
/-- Send an ACK (R355): the packet that completed a waiting message is not shown (R353). -/
def State.sendAck (s : State) (qpn : Nat) : State :=
  match s.qp? qpn with
  | none => s
  | some q =>
    let held := q.msgs.filterMap (·.last)
    let bits := (upTo 1024).foldl (fun a i => let n := (q.cum + i) % 2 ^ 32; if q.placed.contains n ∧ !held.contains n then a + 2 ^ i else a) 0
    let pay := natLE 4 q.cum ++ natLE 2 q.ece ++ natLE 2 q.newCnt ++ natLE 8 q.echo ++ natLE 128 bits
    let s1 := s.setQp qpn { q with ece := 0, newCnt := 0, ackTick := none }
    s1.sendPkt qpn (s1.ctlPath q) 3 { mkPkt qpn q 5 with payload := pay }
/-- Send a NAK (R343, R360). -/
def State.sendNak (s : State) (qpn : Nat) (p : Packet) (reason : Nat) : State :=
  match s.qp? qpn with
  | none => s
  | some q =>
    let s1 := s.onJob q.job (fun x => { x with nakSent := satAdd 0xFF x.nakSent 1 })
    s1.sendPkt qpn (s1.ctlPath q) 3 { mkPkt qpn q 6 with payload := natLE 4 p.psn ++ natLE 4 p.msn ++ natLE 1 reason ++ zeros 3 }
/-- Is a PSN already placed (R356)? -/
def psnSeen (q : Qp) (psn : Nat) : Bool := decide (2 ^ 31 ≤ psnOff psn q.cum) || q.placed.contains psn
/-- Raise the cumulative PSN over what is placed. -/
def cumUp (q : Qp) : Nat → Qp
  | 0 => q
  | n + 1 => if q.placed.contains q.cum then cumUp { q with cum := (q.cum + 1) % 2 ^ 32, placed := q.placed.filter (fun x => x ≠ q.cum) } n else q
/-- Every packet of a message is placed. -/
def msgWhole (q : Qp) (m : InMsg) : Bool := (upTo m.pkts).all (fun k => psnSeen q ((m.psn0 + k) % 2 ^ 32))
/-- Credit complete messages strictly in MSN order (R353). -/
def State.creditMsgs (s : State) (qpn : Nat) : Nat → State
  | 0 => s
  | n + 1 =>
    match s.qp? qpn with
    | none => s
    | some q =>
      match q.msgs.find? (fun m => m.msn = q.rmsn && msgWhole q m) with
      | none => s
      | some m =>
        let s1 := s.setQp qpn { q with rmsn := (q.rmsn + 1) % 2 ^ 32, msgs := q.msgs.filter (fun x => x.msn ≠ m.msn) }
        (if m.inc = 0 then s1 else s1.addCtr m.ctr m.inc).creditMsgs qpn n
/-- A new data packet has been placed: its message, credits, and the acknowledgement (R353, R355). -/
def State.placedPkt (s : State) (qpn : Nat) (p : Packet) (ce : Bool) : State :=
  match s.qp? qpn with
  | none => s
  | some q =>
    let m : InMsg := ⟨p.msn, p.msgPsn0, p.msgPkts, p.rctr, if p.rctrEn then p.rinc else 0, none⟩
    let msgs := if q.msgs.any (fun x => x.msn = p.msn) then q.msgs else q.msgs ++ [m]
    let q1 := { q with placed := p.psn :: q.placed, msgs := msgs, newCnt := q.newCnt + 1, ece := q.ece + (if ce then 1 else 0), echo := p.txc, ackTick := some (q.ackTick.getD s.tick) }
    let q2 := { q1 with msgs := q1.msgs.map (fun x => if x.msn = p.msn ∧ msgWhole q1 x then { x with last := some p.psn } else x) }
    let s1 := (s.setQp qpn (cumUp q2 (q2.placed.length + 1))).creditMsgs qpn (q2.msgs.length + 1)
    if 8 ≤ q1.newCnt then s1.sendAck qpn else s1
/-- A region key names a region this QP may use (R360, checks 2 to 4): its device address. -/
def State.rkeyAddr (s : State) (q : Qp) (key taddr len : Nat) (isWrite : Bool) : Option Nat :=
  let r := tabGet {} s.xp.regions (key / 2 ^ 18)
  if r.valid ∧ r.gen = key % 2 ^ 18 ∧ r.job = q.job ∧ (if isWrite then r.write else r.read) ∧ taddr + len ≤ r.len then some (r.base + taddr) else none
/-- Check 5 of R360. -/
def State.rctrBad (s : State) (q : Qp) (p : Packet) : Bool := p.rctrEn && s.ctrPart p.rctr ≠ some q.part
/-- WRITE (R353, R356, R360). -/
def State.recvWrite (s : State) (qpn : Nat) (q : Qp) (p : Packet) (ce : Bool) : State :=
  if q.st ≠ .rts then s.sendNak qpn p 3
  else if psnSeen q p.psn then s.sendAck qpn
  else if 1024 ≤ psnOff p.psn q.cum then s
  else match s.rkeyAddr q p.rkey p.taddr p.payload.length true with
  | none => s.sendNak qpn p 1
  | some a => if s.rctrBad q p then s.sendNak qpn p 2 else (s.devWrite a p.payload).placedPkt qpn p ce
/-- ADD (R353, R360): checks 2 to 4 are skipped. -/
def State.recvAdd (s : State) (qpn : Nat) (q : Qp) (p : Packet) (ce : Bool) : State :=
  if q.st ≠ .rts then s.sendNak qpn p 3
  else if psnSeen q p.psn then s.sendAck qpn
  else if 1024 ≤ psnOff p.psn q.cum then s
  else if s.rctrBad q p then s.sendNak qpn p 2
  else s.placedPkt qpn p ce
/-- READ_REQ (R354): the whole range is checked and the responses are owed. -/
def State.recvReadReq (s : State) (qpn : Nat) (q : Qp) (p : Packet) : State :=
  let dest := leAt p.payload 0 8
  let len := leAt p.payload 8 8
  if q.st ≠ .rts then s.sendNak qpn p 3
  else match s.rkeyAddr q p.rkey p.taddr len false with
  | none => s.sendNak qpn p 1
  | some a =>
    if s.rctrBad q p then s.sendNak qpn p 2
    else match s.devRead a len with
    | none => (s.devReadBad a len).qpFail qpn 6 none
    | some bs =>
      let m := s.mtu q
      let rs := (upTo (ceilDiv len m)).map (fun k => { mkPkt qpn q 3 with psn := k, msn := p.msn, msgPkts := ceilDiv len m, taddr := dest + k * m, payload := (bs.drop (k * m)).take m })
      s.setQp qpn { q with resp := q.resp ++ rs }
/-- READ_RESP (R354): placed once; the READ completes with its last byte. -/
def State.recvReadResp (s : State) (qpn : Nat) (q : Qp) (p : Packet) : State :=
  match q.wrs.find? (fun w => w.started && wqOp w.w = 2 && w.num % 2 ^ 32 = p.msn) with
  | none => s
  | some w =>
    let lo := wq w.w 1 47 0
    if q.st ≠ .rts ∨ w.readGot.contains p.psn ∨ p.taddr < lo ∨ lo + wq w.w 2 39 0 < p.taddr + p.payload.length then s
    else
      let q1 := qpMapWr q w.num (fun x => { x with readGot := p.psn :: x.readGot, readLeft := x.readLeft - p.payload.length })
      ((s.setQp qpn q1).devWrite p.taddr p.payload).settleAll qpn
/-- ACK (R355, R357, R359). -/
def State.recvAck (s : State) (qpn : Nat) (q : Qp) (p : Packet) : State :=
  let cum := leAt p.payload 0 4
  let ece := leAt p.payload 4 2
  let new := leAt p.payload 6 2
  let echo := leAt p.payload 8 8
  let bits := leAt p.payload 16 128
  let acked := fun (u : Unacked) => let o := psnOff u.pkt.psn cum; decide (2 ^ 31 ≤ o) || (decide (o < 1024) && bits.testBit o)
  if q.st ≠ .rts then s
  else
    let gone := q.unacked.filter acked
    let kept := q.unacked.filter (fun u => !acked u)
    let newest := gone.foldl (fun m u => max m u.sentTick) q.ackedSent
    let cnt := fun (n : Nat) => (gone.filter (fun u => u.wr = n)).length
    let wrs := q.wrs.map (fun w => { w with outstanding := w.outstanding - cnt w.num })
    let strikes := q.strikes.filter (fun j => !gone.any (fun u => u.path = j))
    let q1 := { q with unacked := kept, wrs := wrs, ackedSent := newest, strikes := strikes }
    let q2 := match q.unacked.find? (fun u => u.pkt.txc = echo) with
      | none => q1
      | some u => s.pace q1 (nsSince s.tick u.sentTick) new (if new = 0 then 0 else ece)
    let reorder := s.rf (.xp q.job) 0x000 23 16 * 100
    let late := (kept.filter (fun u => decide (u.sentTick + reorder ≤ newest) && decide (gone ≠ []))).map (fun u => u.pkt.psn)
    let s1 := late.foldl (fun st n => st.resend qpn n false) (s.setQp qpn q2)
    s1.settleAll qpn
/-- NAK (R358): the WR it names fails with REMOTE_ACCESS. -/
def State.recvNak (s : State) (qpn : Nat) (q : Qp) (p : Packet) : State :=
  let msn := leAt p.payload 4 4
  let s1 := s.onJob q.job (fun x => { x with nakRecv := satAdd 0xFF x.nakRecv 1 })
  if q.st ≠ .rts then s1
  else
    let hit := q.wrs.find? (fun w => w.started && (if wqOp w.w = 2 then w.num % 2 ^ 32 = msn && leAt p.payload 0 4 = 0 else w.msn = msn))
    s1.qpFail qpn 2 (hit.map (·.num))
/-- PROBE (R359): answered at once, on the path it names. -/
def State.recvProbe (s : State) (qpn : Nat) (q : Qp) (p : Packet) : State :=
  if q.st ≠ .rts then s else s.sendPkt qpn p.path 3 { mkPkt qpn q 8 with payload := natLE 8 p.txc }
/-- PROBE_REPLY (R346, R359). -/
def State.recvProbeReply (s : State) (qpn : Nat) (q : Qp) (p : Packet) : State :=
  match q.probes.find? (fun e => e.2.1 = leAt p.payload 0 8) with
  | none => s
  | some e =>
    if q.st ≠ .rts then s
    else
      let up := (s.sub (pathSub q e.1)).link
      let q1 := { q with down := if up then q.down.filter (fun j => j ≠ e.1) else q.down, strikes := q.strikes.filter (fun j => j ≠ e.1) }
      s.setQp qpn (s.pace q1 (nsSince s.tick e.2.2) 0 0)
/-- CTRL (R473, R474). -/
def State.recvCtrl (s : State) (q : Qp) (p : Packet) : State :=
  if leAt p.payload 0 1 = 2 ∧ leAt p.payload 4 4 = p.epoch ∧ ((s.job? q.job).map jobRuns).getD false then
    s.fence q.job 0x0C (leAt p.payload 2 1) (leAt p.payload 1 1) 0 0
  else s
/-- A packet whose context is at hand (R347, R348, R366, R472). -/
def State.recvPacket (s : State) (p : Packet) (ce authentic : Bool) : State :=
  let qpn := p.dstQpn
  match s.qp? qpn with
  | none => s.noQp
  | some q0 =>
    if q0.st = .init then s.noQp
    else if ((s.job? q0.job).map (fun x => x.fencedEpochs.contains p.epoch)).getD false then
      s.onJob q0.job (fun x => { x with epochDrop := satAdd 0xFF x.epochDrop 1 })
    else if !authentic then s.onJob q0.job (fun x => { x with authFail := satAdd 0xFF x.authFail 1 })
    else
      let s1 := (s.onJob q0.job (fun x => if p.epoch = x.epoch then { x with heard := tabSet x.heard q0.peer s.tick } else x)).touchQp qpn
      match s1.qp? qpn with
      | none => s1
      | some q =>
        match p.typ with
        | 1 => s1.recvWrite qpn q p ce
        | 2 => s1.recvReadReq qpn q p
        | 3 => s1.recvReadResp qpn q p
        | 4 => s1.recvAdd qpn q p ce
        | 5 => s1.recvAck qpn q p
        | 6 => s1.recvNak qpn q p
        | 7 => s1.recvProbe qpn q p
        | 8 => s1.recvProbeReply qpn q p
        | 9 => s1.recvCtrl q p
        | _ => s1.noQp
/-- Bytes of a port's miss buffer in use: header, payload and tag of each packet. -/
def missBytes (l : List (Nat × Packet × Bool × Bool)) : Nat := (l.map (fun m => 72 + m.2.1.payload.length)).foldl (· + ·) 0
/-- A packet reaches the transport: processed, or held in its port's miss buffer (R350). -/
def State.arrive (s : State) (i : Nat) (p : Packet) (ce authentic : Bool) : State :=
  match s.qp? p.dstQpn with
  | none => s.noQp
  | some q =>
    if q.cached then s.recvPacket p ce authentic
    else
      let l := tabGet [] s.xp.miss (i / 2)
      if 262144 < missBytes l + 72 + p.payload.length then { s with xp := { s.xp with missDrop := satAdd 0xFFFF s.xp.missDrop 1 } }
      else { s with xp := { s.xp with miss := tabSet s.xp.miss (i / 2) (l ++ [(i, p, ce, authentic)]) } }
/-- CONTEXT_FETCH (R349, R350): the context arrives and the buffered packets are processed in order. -/
def execContextFetch (qpn : Nat) (s : State) : Out :=
  match s.qp? qpn with
  | none => .next s
  | some q =>
    if q.cached then .next s
    else match s.cacheIn qpn with
    | none => .next s
    | some s1 =>
      let mine := s1.xp.miss.flatMap (fun e => e.2.filter (fun m => m.2.1.dstQpn = qpn))
      let rest := (s1.xp.miss.map (fun e => (e.1, e.2.filter (fun m => m.2.1.dstQpn ≠ qpn)))).filter (fun e => e.2 ≠ [])
      .next (mine.foldl (fun st m => st.recvPacket m.2.1 m.2.2.1 m.2.2.2) { s1 with xp := { s1.xp with miss := rest } })

/-- ACK_TIMER (R355): 1 us after the first unacknowledged arrival. -/
def execAckTimer (qpn : Nat) (s : State) : Out :=
  match s.qp? qpn with
  | none => .next s
  | some q =>
    match q.ackTick with
    | none => .next s
    | some t => .next (if q.st = .rts ∧ t + 100 ≤ s.tick then s.sendAck qpn else s)

/-! ### Triggers, revocation, keepalives -/

/-- A WR becomes ready on its QP (R352). -/
def State.readyWr (s : State) (qpn : Nat) (w : List Nat) (ring : Bool) : State :=
  match s.qp? qpn with
  | none => s
  | some q => s.setQp qpn { q with wrs := q.wrs ++ [{ num := q.wrNum, w := w, ring := ring }], wrNum := q.wrNum + 1 }
/-- Is a trigger satisfied (R362)? -/
def State.trigReady (s : State) (t : Trigger) : Bool := t.armed && reached (s.ctr t.ctr).toNat t.thresh
/-- TRIGGER_FIRE (R362, R363): triggers on one counter fire in ascending id. -/
def execTriggerFire (trig : Nat) (s : State) : Out :=
  match tabFind s.xp.triggers trig with
  | none => .next s
  | some t =>
    if !s.trigReady t ∨ s.xp.triggers.any (fun e => decide (e.1 < trig) && decide (e.2.ctr = t.ctr) && s.trigReady e.2) then .next s
    else
      let tr := if t.rearm = 0 then tabDel s.xp.triggers trig else tabSet s.xp.triggers trig { t with thresh := (t.thresh + t.rearm) % 2 ^ 32 }
      .next (State.readyWr { s with xp := { s.xp with triggers := tr } } (wq t.w 7 47 32) t.w false)
/-- REVOKE_DRAINED (R361). -/
def execRevokeDrained (region : Nat) (s : State) : Out :=
  match tabFind s.xp.regions region with
  | none => .next s
  | some r =>
    if !r.revoking then .next s
    else
      let s1 := { s with xp := { s.xp with regions := tabSet s.xp.regions region { r with revoking := false } } }
      .next (s1.answerWhere (fun w => w.op = 0x0829 && w.what = region) stOk [])
/-- KEEPALIVE (R471): nothing sent to the peer on the rail for 10 ms. -/
def execKeepalive (job peer rail : Nat) (s : State) : Out :=
  match s.job? job with
  | none => .next s
  | some x =>
    match (s.jobRails job).find? (fun r => r.1 = peer && r.2.1 = rail) with
    | none => .next s
    | some r =>
      if !jobRuns x ∨ s.tick < tabGet x.startTick x.sentTick (peer * 16 + rail) + 1000000 then .next s
      else .next (s.sendCtrl r.2.2 rail (ctrlPayload 1 0 0 (selfIdx x) x.epoch x.step s.tick))
/-- PEER_LOST (R472). -/
def execPeerLost (job peer : Nat) (s : State) : Out :=
  match s.job? job with
  | none => .next s
  | some x =>
    let ms := s.rf (.xp job) 0x008 12 0
    if jobRuns x ∧ (s.rtsQps job).any (fun e => e.2.peer = peer) ∧ max x.startTick (tabGet 0 x.heard peer) + ms * 100000 ≤ s.tick then
      .next (s.fence job 0x0B 0 0 0 0)
    else .next s

/-! ### Commands -/

/-- XP_ADDR_SET (R340, R367). -/
def cmdXpAddrSet (s : State) (r : Req) : CmdOut :=
  let i := bitsOf (r.w 0) 3 0
  if !s.subExists i then failWith s stBadArg
  else
    let hop := tabSet s.xp.hop i (bitsOf (r.w 3) 47 0)
    let xp := if (r.w 0).testBit 8 then { s.xp with addr6 := tabSet s.xp.addr6 i (natLE 8 (r.w 1) ++ natLE 8 (r.w 2)), hop := hop } else { s.xp with addr4 := tabSet s.xp.addr4 i (bitsOf (r.w 1) 31 0), hop := hop }
    okNow { s with xp := xp }
/-- XP_ADDR_SET. -/
def execXpAddrSet (mb : MbId) (s : State) : Out := .next (runCmd s mb.val 0x0810 (.exact 4) true cmdXpAddrSet)

/-- The lowest QPN that may be assigned to a partition (R347, R433). -/
def State.freeQpn (s : State) (p : Nat) : Option Nat :=
  let barred := s.xp.retired.filter (fun e => match s.job? e.2.1 with | some x => x.epoch = e.2.2 | none => false)
  s.findRun p 65536 1 (((s.xp.qps.map (·.1)) ++ (barred.map (·.1))).map (fun n => (n, 1)))
/-- XP_QP_CREATE (R347, R349, R367). -/
def cmdXpQpCreate (s : State) (r : Req) : CmdOut :=
  let w := r.w 0
  let j := bitsOf w 15 0
  let peer := bitsOf w 21 16
  let cls := bitsOf w 23 22
  let mask := bitsOf w 63 48
  let lg := bitsOf (r.w 2) 3 0
  let sq := addrOf (r.w 1)
  if mask = 0 ∨ (maskSubs mask).any (fun i => !s.subExists i) ∨ cls = 3 ∨ lg < 6 ∨ 12 < lg ∨ (r.w 1).testBit 63 ∨ sq % 4096 ≠ 0 then failWith s stBadArg
  else match s.job? j with
  | none => failWith s stWrong
  | some x =>
    if r.scope ≠ none ∧ r.scope ≠ some x.part then failWith s stNotPerm
    else match s.span (some x.part) sq (64 * 2 ^ lg) with
    | .foreign => failWith s stNotPerm
    | .aperture => failWith s stNotPerm
    | .hole => failWith s stBadArg
    | .ok =>
      if (tabFind x.keys peer).isNone then failWith s stWrong
      else if w.testBit 24 ∧ s.pinFull x.part then failWith s stNoRes
      else match s.freeQpn x.part with
      | none => failWith s stNoRes
      | some n =>
        let q : Qp := { job := j, part := x.part, peer := peer, cls := cls, pin := w.testBit 24, npath := bitsOf w 39 32 + 1, mask := mask, sqBase := sq, sqLog2 := lg, epoch := x.epoch }
        let s1 := s.setQp n q
        .done ((s1.cacheIn n).getD s1) stOk (natLE 2 n)
/-- XP_QP_CREATE. -/
def execXpQpCreate (mb : MbId) (s : State) : Out := .next (runCmd s mb.val 0x0818 (.exact 3) false cmdXpQpCreate)

/-- The QP a request names, in its scope (R26). -/
def State.reqQp (s : State) (r : Req) (qpn free : Nat) : Except Nat Qp :=
  match s.qp? qpn with
  | none => .error free
  | some q => if r.scope = none ∨ r.scope = some q.part then .ok q else .error stNotPerm
/-- The connection's key and salts (R348). -/
def connKey (x : Job) (q : Qp) (qpn peerQpn : Nat) : List Byte :=
  let me := selfIdx x
  let qa := if me < q.peer then qpn else peerQpn
  let qb := if me < q.peer then peerQpn else qpn
  Config.shake256 (tabGet [] x.keys q.peer ++ natLE 4 0x47325150 ++ natLE 4 qa ++ natLE 4 qb ++ natLE 4 q.epoch) 40
/-- XP_QP_CONNECT (R348, R367). -/
def cmdXpQpConnect (s : State) (r : Req) : CmdOut :=
  let n := bitsOf (r.w 0) 15 0
  match s.reqQp r n stWrong with
  | .error e => failWith s e
  | .ok q =>
    match s.job? q.job with
    | none => failWith s stWrong
    | some x =>
      if q.st ≠ .init ∨ x.epoch ≠ q.epoch ∨ (tabFind x.keys q.peer).isNone then failWith s stWrong
      else if r.arg.length ≠ roundUp (16 * (maskSubs q.mask).length) 8 then failWith s stBadArg
      else
        let pq := bitsOf (r.w 1) 15 0
        let addrs := (upTo (maskSubs q.mask).length).map (fun i => (r.arg.drop (16 * i)).take 16)
        let q1 := { q with st := .rts, peerQpn := pq, addrs := addrs, key := some (connKey x q n pq), rate := s.rateMax q }
        okNow ((s.setQp n q1).onJob q.job (fun y => if jobRuns y ∧ (tabFind y.heard q.peer).isNone then { y with heard := tabSet y.heard q.peer s.tick } else y))
/-- XP_QP_CONNECT. -/
def execXpQpConnect (mb : MbId) (s : State) : Out := .next (runCmd s mb.val 0x0819 (.block 2) false cmdXpQpConnect)

/-- XP_QP_DESTROY (R367). -/
def cmdXpQpDestroy (s : State) (r : Req) : CmdOut :=
  let n := bitsOf (r.w 0) 15 0
  match s.reqQp r n stBadArg with
  | .error e => failWith s e
  | .ok q =>
    if q.wrs = [] ∧ q.unacked = [] then okNow (s.freeQp n q)
    else .wait (s.setQp n { q with dying := true }) n 0
/-- XP_QP_DESTROY. -/
def execXpQpDestroy (mb : MbId) (s : State) : Out := .next (runCmd s mb.val 0x081A (.exact 1) false cmdXpQpDestroy)

/-- XP_QP_QUERY (R367). -/
def cmdXpQpQuery (s : State) (r : Req) : CmdOut :=
  let n := bitsOf (r.w 0) 15 0
  match s.reqQp r n stBadArg with
  | .error e => failWith s e
  | .ok q =>
    let st := match q.st with | .init => 0 | .rts => 1 | .error => 2
    .done s stOk (natLE 1 st ++ natLE 1 q.cause ++ natLE 2 q.sqCons ++ natLE 4 q.rate ++ natLE 4 (q.srtt.getD 0) ++
      natLE 1 (s.upPaths q).length ++ natLE 1 (flagAt q.cached 0))
/-- XP_QP_QUERY. -/
def execXpQpQuery (mb : MbId) (s : State) : Out := .next (runCmd s mb.val 0x081B (.exact 1) false cmdXpQpQuery)

/-- The eight words of a WQE. -/
def wqeWords (bs : List Byte) : List Nat := (upTo 8).map (fun k => leAt bs (8 * k) 8)
/-- XP_POST (R352): the entries up to the new producer index become ready in order (log 19). -/
def cmdXpPost (s : State) (r : Req) : CmdOut :=
  let n := bitsOf (r.w 0) 15 0
  let prod := bitsOf (r.w 0) 28 16
  match s.reqQp r n stWrong with
  | .error e => failWith s e
  | .ok q =>
    let m := 2 ^ (q.sqLog2 + 1)
    let dist := (prod + m - q.sqCons) % m
    let prev := (q.sqProd + m - q.sqCons) % m
    if q.st ≠ .rts then failWith s stWrong
    else if m ≤ prod ∨ 2 ^ q.sqLog2 < dist ∨ dist < prev then failWith s stBadArg
    else
      let at_ := fun (i : Nat) => q.sqBase + 64 * ((q.sqProd + i) % 2 ^ q.sqLog2)
      match (upTo (dist - prev)).find? (fun i => (s.devRead (at_ i) 64).isNone) with
      | some i => failWith (s.devReadBad (at_ i) 64) stVerify
      | none =>
        let ws := (upTo (dist - prev)).map (fun i => wqeWords ((s.devRead (at_ i) 64).getD []))
        okNow (ws.foldl (fun st w => st.readyWr n w true) (s.setQp n { q with sqProd := prod }))
/-- XP_POST. -/
def execXpPost (mb : MbId) (s : State) : Out := .next (runCmd s mb.val 0x0820 (.exact 1) false cmdXpPost)

/-- The lowest run of n free trigger ids for a partition (R362, R433). -/
def State.freeTrigs (s : State) (p n : Nat) : Option Nat := s.findRun p 65536 n (s.xp.triggers.map (fun e => (e.1, 1)))
/-- The partition whose share a request's triggers use: the mailbox's, or on mailbox 0 that of the first QP. -/
def State.trigPart (s : State) (scope : Option Nat) (qpn : Nat) : Nat := scope.getD (((s.qp? qpn).map (·.part)).getD 8)
/-- XP_TRIG_POST (R362, R367). -/
def cmdXpTrigPost (s : State) (r : Req) : CmdOut :=
  let n := r.arg.length / 64
  let ws := (upTo n).map (fun i => wqeWords ((r.arg.drop (64 * i)).take 64))
  if r.arg.length % 64 ≠ 0 ∨ n = 0 ∨ 256 < n then failWith s stBadArg
  else match s.freeTrigs (s.trigPart r.scope (wq (ws.headD []) 7 47 32)) n with
  | none => failWith s stNoRes
  | some b =>
    if ws.any (fun w => !wqeOk (wq w 7 47 32) w || wq w 5 15 14 ≠ 0) then failWith s stBadArg
    else match ws.find? (fun w => match s.reqQp r (wq w 7 47 32) stWrong with | .error _ => true | .ok q => q.st ≠ .rts) with
    | some w => failWith s (match s.reqQp r (wq w 7 47 32) stWrong with | .error e => e | .ok _ => stWrong)
    | none =>
      let tr := ws.zipIdx.foldl (fun t e => tabSet t (b + e.2) (⟨e.1, wq e.1 5 13 0, wq e.1 5 47 16, wq e.1 5 63 48, true⟩ : Trigger)) s.xp.triggers
      .done { s with xp := { s.xp with triggers := tr } } stOk (natLE 4 b)
/-- XP_TRIG_POST. -/
def execXpTrigPost (mb : MbId) (s : State) : Out := .next (runCmd s mb.val 0x0821 (.block 0) false cmdXpTrigPost)
/-- XP_TRIG_CANCEL (R364). -/
def cmdXpTrigCancel (s : State) (r : Req) : CmdOut :=
  let b := bitsOf (r.w 0) 15 0
  let n := bitsOf (r.w 0) 31 16
  let bad := (upTo n).find? (fun i => match tabFind s.xp.triggers (b + i) with
    | none => true
    | some t => match s.reqQp r (wq t.w 7 47 32) stBadArg with | .error e => decide (e = stNotPerm) | .ok _ => false)
  match bad with
  | some i => failWith s (if (tabFind s.xp.triggers (b + i)).isNone then stBadArg else stNotPerm)
  | none => okNow { s with xp := { s.xp with triggers := s.xp.triggers.filter (fun e => !(decide (b ≤ e.1) && decide (e.1 < b + n))) } }
/-- XP_TRIG_CANCEL. -/
def execXpTrigCancel (mb : MbId) (s : State) : Out := .next (runCmd s mb.val 0x0822 (.exact 1) false cmdXpTrigCancel)

/-- The lowest free region index for a partition (R360, R433). -/
def State.freeRegion (s : State) (p : Nat) : Option Nat :=
  s.findRun p 16384 1 ((s.xp.regions.filter (fun e => e.2.valid || e.2.revoking)).map (fun e => (e.1, 1)))
/-- XP_REG (R360, R367). -/
def cmdXpReg (s : State) (r : Req) : CmdOut :=
  let a := addrOf (r.w 0)
  let len := bitsOf (r.w 1) 39 0
  match s.reqJob r (bitsOf (r.w 2) 15 0) with
  | .error e => failWith s e
  | .ok x =>
    if (r.w 0).testBit 63 ∨ a % 4096 ≠ 0 ∨ len % 4096 ≠ 0 ∨ len = 0 then failWith s stBadArg
    else match s.span (some x.part) a len with
    | .foreign => failWith s stNotPerm
    | .hole => failWith s stBadArg
    | .aperture => failWith s stBadArg
    | .ok =>
      match s.freeRegion x.part with
      | none => failWith s stNoRes
      | some i =>
        let g := ((tabGet {} s.xp.regions i).gen + 1) % 2 ^ 18
        let rg : XpRegion := ⟨true, false, g, bitsOf (r.w 2) 15 0, x.part, a, len, (r.w 2).testBit 16, (r.w 2).testBit 17⟩
        .done { s with xp := { s.xp with regions := tabSet s.xp.regions i rg } } stOk (natLE 4 (i * 2 ^ 18 + g))
/-- XP_REG. -/
def execXpReg (mb : MbId) (s : State) : Out := .next (runCmd s mb.val 0x0828 (.exact 3) false cmdXpReg)
/-- XP_REVOKE (R361): it answers when the accesses have drained. -/
def cmdXpRevoke (s : State) (r : Req) : CmdOut :=
  let key := bitsOf (r.w 0) 31 0
  let i := key / 2 ^ 18
  let rg := tabGet {} s.xp.regions i
  if !rg.valid ∨ rg.gen ≠ key % 2 ^ 18 then failWith s stWrong
  else if r.scope ≠ none ∧ r.scope ≠ some rg.part then failWith s stNotPerm
  else .wait { s with xp := { s.xp with regions := tabSet s.xp.regions i { rg with valid := false, revoking := true } } } i 0
/-- XP_REVOKE. -/
def execXpRevoke (mb : MbId) (s : State) : Out := .next (runCmd s mb.val 0x0829 (.exact 1) false cmdXpRevoke)

end Sys2Proof.Machine
end

