-- ==== Sys2Proof/Machine/Ports.lean ====
section
/-! DEFINITION. Optical ports and the frame MAC (R317 to R339): lasers and links, reception in the order
of its checks, flow control, transmission and its boundaries, and handing packets to the transport. -/

namespace Sys2Proof.Machine

/-! ### Light and links -/

/-- ENABLE of a sub-port. -/
def State.subEnabled (s : State) (i : Nat) : Bool := flag (s.reg (.sub i) 0x800) 31
/-- Sub-ports of a bay: those of ports 2k and 2k + 1. -/
def baySubs (k : Nat) : List Nat := [4 * k, 4 * k + 1, 4 * k + 2, 4 * k + 3]
/-- The module of a bay is lit while it is latched, genuine, in service, powered, and a port of the bay is
enabled; PD_OPTp follows (R318, R320, R385, R492). -/
def State.relight (s : State) (k : Nat) : State :=
  let b := s.bay k
  let able := b.present && b.latched && b.genuine && !b.faulted && s.power.hub
  let on := fun (p : Nat) => able && (s.subEnabled (2 * p) || s.subEnabled (2 * p + 1)) && !(s.sub (2 * p)).barred
  let s1 := s.setBay k { b with lit := able && (baySubs k).any s.subEnabled }
  let bit := fun (p : Nat) (w : Nat) => if on p then w ||| 2 ^ p else w &&& (255 - 2 ^ p)
  { s1 with power := { s1.power with pdOpt := bit (2 * k + 1) (bit (2 * k) s1.power.pdOpt) } }
/-- Lanes of a sub-port as a mask (R321). -/
def State.subLanes (s : State) (i : Nat) : Nat := if s.mode1 (i / 2) then (if i % 2 = 0 then 0x0F else 0xF0) else 0xFF
/-- An event of the ports (R339): port, sub-port and cause byte (log 20). -/
def State.portEvent (s : State) (i code cause : Nat) : State :=
  s.raise code (s.portParts (i / 2)) true 0xFF (natLE 1 (i / 2) ++ natLE 1 (i % 2) ++ natLE 1 cause)
/-- Discard what is queued and in transmission, counted in TX_DISCARD (R324). -/
def State.txFlush (s : State) (i : Nat) : State :=
  let n := (s.sub i).txQ.length + (if (s.sub i).tx.isSome then 1 else 0)
  let s1 := s.setSub i { s.sub i with txQ := [], tx := none, underrun := false }
  if n = 0 then s1 else s1.bump i 73 n
/-- LINK becomes 0 (R324): PORT_DOWN with its cause, and the paths over it go DOWN (R346). -/
def State.linkDown (s : State) (i cause : Nat) : State :=
  let s1 := s.txFlush i
  let s2 := s1.setSub i { s1.sub i with link := false }
  let p := s2.port (i / 2)
  let s3 := s2.setPort (i / 2) { p with lanes := p.lanes &&& (255 - s2.subLanes i) }
  (s3.portEvent i 0x1001 cause).subFell i
/-- PORT_UP (R321, R324). -/
def execPortUp (sub : SubId) (s : State) : Out :=
  let i := sub.val
  let x := s.sub i
  if x.link ∨ !s.subExists i ∨ !s.subEnabled i ∨ x.barred ∨ !(s.bay (i / 4)).lit then .next s
  else
    let p := s.port (i / 2)
    let s1 := (s.setSub i { x with link := true }).setPort (i / 2) { p with lanes := p.lanes ||| s.subLanes i }
    .next (s1.portEvent i 0x1002 0)
/-- LINK_FAULT (R324). -/
def execLinkFault (sub : SubId) (s : State) : Out := .next (if (s.sub sub.val).link then s.linkDown sub.val 2 else s)
/-- LANE_LOCK_LOSS (R321, R324): only a lane of the sub-port takes it down. -/
def execLaneLockLoss (sub : SubId) (lane : Fin 8) (s : State) : Out :=
  .next (if (s.sub sub.val).link ∧ (s.subLanes sub.val).testBit lane.val then s.linkDown sub.val 3 else s)
/-- PCS_FAULT_CLEAR (R324): no event, counted in RX_PCS_ERR. -/
def execPcsFaultClear (sub : SubId) (s : State) : Out := .next (if s.subExists sub.val then s.bump sub.val 19 1 else s)
/-- PORT_DEGRADED (R325): at most once every 10 s; the codeword counts are free values (log 4). -/
def execPortDegraded (sub : SubId) (s : State) : Out :=
  let i := sub.val
  let x := s.sub i
  let soon := match x.degradedTick with | none => false | some t => decide (s.tick < t + 1000000000)
  if !x.link then .next s
  else
    let (a, s1) := s.draw
    let (b, s2) := s1.draw
    let c := if a % 2 ^ 32 = 0 ∧ b % 2 ^ 32 = 0 then 1 else a % 2 ^ 32
    let s3 := (s2.bump i 17 c).bump i 18 (b % 2 ^ 32)
    if soon then .next s3
    else .next ((s3.setSub i { s3.sub i with degradedTick := some s.tick }).portEvent i 0x1003 0)

/-- Both ports of a bay go down with cause LASER (R319, R320). -/
def State.bayDown (s : State) (k : Nat) : State :=
  (baySubs k).foldl (fun st i => if (st.sub i).link then st.linkDown i 4 else st) s
/-- LASER_LATCH_RELEASE (R319). -/
def execLaserLatchRelease (bay : BayId) (s : State) : Out :=
  let k := bay.val
  if !(s.bay k).latched then .next s
  else .next (((s.bayDown k).setBay k { s.bay k with present := false, latched := false, genuine := true, lit := false, faulted := false }).relight k)
/-- LASER_FAULT of both ports' partitions and the operator (R320, R339). -/
def State.laserEvent (s : State) (k : Nat) : State :=
  let ps := (s.portParts (2 * k) ++ (s.portParts (2 * k + 1))).eraseDups
  (s.raise 0x1004 ps true 0xFF (natLE 1 (2 * k) ++ natLE 1 0 ++ natLE 1 4)).alertOn 4
/-- LASER_LATCH (R319, R492): a module that is no TSG2-LSM-A1 stays dark and LASER_FAULT is raised. -/
def execLaserLatch (bay : BayId) (genuine : Bool) (s : State) : Out :=
  let k := bay.val
  if (s.bay k).latched then .next s
  else
    let s1 := s.setBay k { s.bay k with present := true, latched := true, genuine := genuine, faulted := false, bias := [], trimTick := [] }
    if genuine then .next (s1.relight k) else .next (s1.laserEvent k)
/-- LASER_FAULT (R320): dark until a module is inserted again. -/
def execLaserFault (bay : BayId) (s : State) : Out :=
  let k := bay.val
  if !(s.bay k).present ∨ (s.bay k).faulted then .next s
  else
    let s1 := (s.setBay k { s.bay k with faulted := true }).relight k
    .next ((s1.bayDown k).laserEvent k)

/-! ### Boundaries (R48, R53) -/

/-- Bits of a MAC register that take effect at a boundary of a direction; VLAN_MODE and VID act in both,
and count here under transmit (reception follows `rxVlan`). -/
def txBits (off : Nat) : Word :=
  match off with
  | 0x800 => 0x60000000
  | 0x804 => 0x3FFF
  | 0x808 => 0xFFF
  | 0x80C => 0xFF00
  | 0x810 => 0
  | _ => 0xFFFFFFFF
/-- The block number that counts a sub-port's receive boundaries. -/
def rxSeq (i : Nat) : Nat := blkNum (.sub i) + 16
/-- VLAN_MODE and VID of a transmit register image. -/
def vlanOf (ctrl vid : Word) : Bool × Nat := (flag ctrl 29, fld vid 11 0)
/-- VLAN_MODE and VID as the transmitter uses them. -/
def State.txVlan (s : State) (i : Nat) : Bool × Nat := vlanOf (s.reg (.sub i) 0x800) (s.reg (.sub i) 0x808)
/-- As they will be when pending values apply. -/
def State.newVlan (s : State) (i : Nat) : Bool × Nat :=
  let p := fun (off : Nat) => mergeBits (s.reg (.sub i) off) (s.pending? (.sub i) off).1 (s.pending? (.sub i) off).2
  vlanOf (p 0x800) (p 0x808)
/-- As the receiver uses them. -/
def State.rxVlanOf (s : State) (i : Nat) : Bool × Nat := (s.sub i).rxVlan.getD (s.txVlan i)
/-- Apply the pending bits of one direction to the registers. -/
def State.applyDir (s : State) (i : Nat) (tx : Bool) : State :=
  let mine := s.pend.filter (fun e => keyBlk e.1 = blkNum (.sub i))
  mine.foldl (fun st e =>
    let off := e.1 % 65536
    let m := e.2.1 &&& (if tx then txBits off else ~~~(txBits off))
    let rest := e.2.1 &&& ~~~m
    let s1 := if m = 0 then st else st.setReg (.sub i) off (mergeBits (st.reg (.sub i) off) m e.2.2)
    { s1 with pend := if rest = 0 then tabDel s1.pend e.1 else tabSet s1.pend e.1 (rest, e.2.2) }) s
/-- A frame boundary of one direction (R48, R51). -/
def State.macBoundary (s : State) (i : Nat) (tx : Bool) : State :=
  let seq := if tx then blkNum (.sub i) else rxSeq i
  let rx := s.rxVlanOf i
  let nv := s.newVlan i
  let s1 := s.applyDir i tx
  let keep := if tx then rx else nv
  let s2 := s1.setSub i { s1.sub i with rxVlan := if keep = s1.txVlan i then none else some keep }
  { s2 with bseq := tabSet s2.bseq seq (tabGet 0 s2.bseq seq + 1) }
/-- Does a direction have a pending value? -/
def State.macPending (s : State) (i : Nat) (tx : Bool) : Bool :=
  (s.pend.any (fun e => decide (keyBlk e.1 = blkNum (.sub i)) && decide (e.2.1 &&& (if tx then txBits (e.1 % 65536) else ~~~(txBits (e.1 % 65536))) ≠ 0))) ||
  (!tx && s.rxVlanOf i ≠ s.newVlan i)
/-- MAC_IDLE_BOUNDARY (R48): reception is idle between frames, transmission while no frame is in flight. -/
def execMacIdleBoundary (sub : SubId) (tx : Bool) (s : State) : Out :=
  .next (if s.macPending sub.val tx ∧ (!tx ∨ (s.sub sub.val).tx.isNone) then s.macBoundary sub.val tx else s)

/-! ### Flow control -/

/-- Quanta in ticks, rounded up: 0.64 ns each at 800 Gb/s, 1.28 ns at 400 Gb/s (R330; log 21). -/
def State.quantaTicks (s : State) (i q : Nat) : Nat := ceilDiv (q * (if s.mode1 (i / 2) then 128 else 64)) 1000
/-- Send a PFC frame for a priority, ahead of held frames: PFC frames are never held (R330, R331). -/
def State.sendPfc (s : State) (i p q : Nat) : State :=
  if (s.sub i).link then
    s.setSub i { s.sub i with txQ := { len := 64, cls := 3, isIp := false, pfc := some (p, q) } :: (s.sub i).txQ }
  else s.bump i 73 1
/-- Buffered bytes of a priority. -/
def State.bufOf (s : State) (i p : Nat) : Nat := tabGet 0 (s.sub i).buf p
/-- XOFF when the level is reached, quanta 0 when it falls below XON, for a priority whose GEN bit is 1
(R331). -/
def State.pfcCheck (s : State) (i p : Nat) : State :=
  let xon := s.rf (.sub i) 0x810 27 16 * 1024
  let xoff := s.rf (.sub i) 0x810 12 0 * 1024
  let gen := (s.rf (.sub i) 0x80C 7 0).testBit p
  let b := s.bufOf i p
  match tabFind (s.sub i).xoff p with
  | none =>
    if gen ∧ xoff ≤ b then (s.setSub i { s.sub i with xoff := tabSet (s.sub i).xoff p s.tick }).sendPfc i p (s.rf (.sub i) 0x80C 31 16) else s
  | some _ =>
    let off := s.setSub i { s.sub i with xoff := tabDel (s.sub i).xoff p }
    if !gen then off else if b < xon then off.sendPfc i p 0 else s
/-- PFC_REPEAT (R331): half of QUANTA has elapsed with the buffer at or above XON. -/
def execPfcRepeat (sub : SubId) (prio : Fin 8) (s : State) : Out :=
  let i := sub.val
  let p := prio.val
  let q := s.rf (.sub i) 0x80C 31 16
  match tabFind (s.sub i).xoff p with
  | none => .next s
  | some t =>
    if (s.rf (.sub i) 0x80C 7 0).testBit p ∧ s.rf (.sub i) 0x810 27 16 * 1024 ≤ s.bufOf i p ∧ t + s.quantaTicks i (q / 2) ≤ s.tick then
      .next ((s.setSub i { s.sub i with xoff := tabSet (s.sub i).xoff p s.tick }).sendPfc i p q)
    else .next (s.pfcCheck i p)
/-- PFC_PAUSE_EXPIRE (R330). -/
def execPfcPauseExpire (sub : SubId) (prio : Fin 8) (s : State) : Out :=
  match tabFind (s.sub sub.val).paused prio.val with
  | none => .next s
  | some t => .next (if t ≤ s.tick then s.setSub sub.val { s.sub sub.val with paused := tabDel (s.sub sub.val).paused prio.val } else s)

/-! ### Reception -/

/-- Size bin of a frame, 0 to 9 (R336). -/
def sizeBin (n : Nat) : Nat :=
  if n ≤ 64 then 0 else if n < 128 then 1 else if n < 256 then 2 else if n < 512 then 3 else if n < 1024 then 4
  else if n ≤ 1518 then 5 else if n < 2048 then 6 else if n < 4096 then 7 else if n ≤ 9216 then 8 else 9
/-- Add a frame's length to a running sum of OCT64_OK (R336). -/
def State.oct64 (s : State) (i n : Nat) (tx : Bool) : State :=
  let x := s.sub i
  let r := (if tx then x.oct.2 else x.oct.1) + n
  let s1 := s.setSub i { x with oct := if tx then (x.oct.1, r % 64) else (r % 64, x.oct.2) }
  if r / 64 = 0 then s1 else s1.bump i (if tx then 65 else 1) (r / 64)
/-- Check 4 of R327 (R328). -/
def State.vlanOk (s : State) (i : Nat) (f : Frame) : Bool :=
  let v := s.rxVlanOf i
  match f.tag with
  | none => !v.1
  | some (vid, _) => if v.1 then vid = v.2 else vid = 0
/-- Priority of a received frame (R329). -/
def State.framePrio (s : State) (i : Nat) (f : Frame) : Nat :=
  if (s.rxVlanOf i).1 then ((f.tag.map (·.2)).getD 0) else f.dscp.toNat / 8
/-- Receive buffer (R331). -/
def State.bufSize (s : State) (i : Nat) : Nat := if s.mode1 (i / 2) then 2048 * 1024 else 4096 * 1024
/-- Bytes buffered in all. -/
def State.bufUsed (s : State) (i : Nat) : Nat := ((upTo 8).map (s.bufOf i)).foldl (· + ·) 0
/-- Is it a transport frame (R323)? -/
def isTransportFrame (f : Frame) : Bool := f.toMe && f.isTransport && f.cast = 0
/-- A PFC frame acts on the transmitter (R330) and is counted. -/
def State.takePfc (s : State) (i : Nat) (en : BitVec 8) (q : List Nat) : State :=
  let s1 := (upTo 8).foldl (fun st p => if en.getLsbD p ∧ q.getD p 0 ≠ 0 then st.bump i (30 + p) 1 else st) (s.bump i 6 1)
  let hon := s1.rf (.sub i) 0x80C 15 8
  let hold := fun (t : Tab Nat) (p : Nat) =>
    if en.getLsbD p ∧ hon.testBit p then
      (if q.getD p 0 = 0 then tabDel t p else tabSet t p (s1.tick + s1.quantaTicks i (q.getD p 0)))
    else t
  s1.setSub i { s1.sub i with paused := (upTo 8).foldl hold (s1.sub i).paused }
/-- A frame that passes checks 1 to 5 is a transport frame: checks 6 to 8, then the transport (R327). -/
def State.takeTransport (s : State) (i : Nat) (f : Frame) : State :=
  let prio := s.framePrio i f
  if !f.ipv6 ∧ !f.ip4CsumOk then s.bump i 12 1
  else if (if f.udpCsumZero then f.ipv6 else !f.udpCsumOk) then s.bump i 13 1
  else if s.bufSize i < s.bufUsed i + f.len then s.bump i 14 1
  else
    let s1 := (s.bump i 0 1).oct64 i f.len false
    let s2 := if f.ce then s1.bump i 7 1 else s1
    match f.packet with
    | none => s2
    | some p =>
      if p.version ≠ 2 ∨ p.typ = 0 ∨ 9 < p.typ then s2.noQp
      else
        let x := s2.sub i
        (s2.setSub i { x with rxQ := x.rxQ ++ [(p, f.ce, prio, f.len, f.authentic)], buf := tabSet x.buf prio (tabGet 0 x.buf prio + f.len) }).pfcCheck i prio
/-- A received frame, checked in the order of R327; the receive boundary follows it (R48). -/
def State.recvFrame (s : State) (i : Nat) (f : Frame) : State :=
  if !(s.sub i).link then s
  else
    let maxF := s.rf (.sub i) 0x800 13 0
    let s0 := if 64 ≤ f.len then s.bump i (20 + sizeBin f.len) 1 else s
    let good := f.fcsOk && decide (64 ≤ f.len) && decide (f.len ≤ maxF)
    let s1 := if good then s0.bump i (2 + f.cast % 3) 1 else s0
    let s2 := if good ∧ f.tag.isSome then s1.bump i 5 1 else s1
    let s3 :=
      if f.len < 64 then s2.bump i (if f.fcsOk then 9 else 10) 1
      else if !f.fcsOk then s2.bump i 8 1
      else if maxF < f.len then s2.bump i 11 1
      else match f.pfc with
      | some (en, q) => ((s2.takePfc i en q).bump i 0 1).oct64 i f.len false
      | none =>
        if !s2.vlanOk i f then s2.bump i 15 1
        else if !isTransportFrame f then s2.bump i 16 1
        else s2.takeTransport i f
    if s3.macPending i false then s3.macBoundary i false else s3
/-- FRAME_RECEIVE (R327). -/
def execFrameReceive (sub : SubId) (f : Frame) (s : State) : Out := .next (s.recvFrame sub.val f)
/-- PFC_FRAME_RECEIVE (R330). -/
def execPfcFrameReceive (sub : SubId) (f : Frame) (s : State) : Out :=
  .next (if f.pfc.isSome then s.recvFrame sub.val f else s)

/-- The transport takes the oldest packet of a sub-port, if it is of the type the command names; its
buffer space is free again (R323, R331). -/
def State.xpTake (s : State) (i typ : Nat) : State :=
  match (s.sub i).rxQ with
  | [] => s
  | (p, ce, prio, len, auth) :: t =>
    if p.typ ≠ typ then s
    else
      let x := s.sub i
      let s1 := (s.setSub i { x with rxQ := t, buf := tabSet x.buf prio (tabGet 0 x.buf prio - len) }).pfcCheck i prio
      s1.arrive i p ce auth
/-- WRITE (R353). -/
def execXpWrite (sub : SubId) (s : State) : Out := .next (s.xpTake sub.val 1)
/-- READ_REQ (R354). -/
def execXpReadReq (sub : SubId) (s : State) : Out := .next (s.xpTake sub.val 2)
/-- READ_RESP (R354). -/
def execXpReadResp (sub : SubId) (s : State) : Out := .next (s.xpTake sub.val 3)
/-- ADD (R353). -/
def execXpAdd (sub : SubId) (s : State) : Out := .next (s.xpTake sub.val 4)
/-- ACK (R355). -/
def execXpAck (sub : SubId) (s : State) : Out := .next (s.xpTake sub.val 5)
/-- NAK (R358). -/
def execXpNak (sub : SubId) (s : State) : Out := .next (s.xpTake sub.val 6)
/-- PROBE (R346). -/
def execXpProbe (sub : SubId) (s : State) : Out := .next (s.xpTake sub.val 7)
/-- PROBE_REPLY (R346). -/
def execXpProbeReply (sub : SubId) (s : State) : Out := .next (s.xpTake sub.val 8)
/-- CTRL (R473). -/
def execXpCtrl (sub : SubId) (s : State) : Out := .next (s.xpTake sub.val 9)

/-! ### Transmission -/

/-- Priority by which PFC holds a frame (R329). -/
def State.txPrio (s : State) (i : Nat) (f : TxFrame) : Nat := s.rf (.sub i) (0x820 + 4 * f.cls) 10 8
/-- May a frame start now (R330)? -/
def State.txFree (s : State) (i : Nat) (f : TxFrame) : Bool :=
  f.pfc.isSome || (tabFind (s.sub i).paused (s.txPrio i f)).isNone
/-- TX_FRAME_START (R326, R328, R329, R333, R334): the first frame that is not held starts once THRESH
bytes, or all of it, are buffered. -/
def execTxFrameStart (sub : SubId) (buffered : Nat) (s : State) : Out :=
  let i := sub.val
  let x := s.sub i
  match x.txQ.findIdx? (s.txFree i) with
  | none => .next s
  | some k =>
    match x.txQ[k]? with
    | none => .next s
    | some f =>
      if !x.link ∨ x.tx.isSome ∨ buffered < min f.len (s.rf (.sub i) 0x804 13 0) then .next s
      else .next (s.setSub i { x with txQ := x.txQ.eraseIdx k, tx := some f, underrun := false })
/-- TX_UNDERRUN (R334): cannot happen to a frame that was buffered whole. -/
def execTxUnderrun (sub : SubId) (s : State) : Out :=
  let i := sub.val
  let x := s.sub i
  match x.tx with
  | none => .next s
  | some f =>
    if x.underrun ∨ f.len ≤ s.rf (.sub i) 0x804 13 0 then .next s
    else .next ((s.setSub i { x with underrun := true }).bump i 72 1)
/-- Count a frame sent without underrun (R336). -/
def State.txCount (s : State) (i : Nat) (f : TxFrame) : State :=
  let fits := decide (f.len ≤ s.rf (.sub i) 0x800 13 0)
  let s0 := ((s.bump i 64 1).oct64 i f.len true).bump i (74 + sizeBin f.len) 1
  let s1 := if fits then s0.bump i (if f.pfc.isSome then 67 else 66) 1 else s0
  let s2 := if fits ∧ f.pfc.isNone ∧ (s1.txVlan i).1 then s1.bump i 69 1 else s1
  let s3 := if f.ect ∧ f.isIp then s2.bump i 71 1 else s2
  match f.pfc with
  | none => s3
  | some (p, q) => let s4 := s3.bump i 70 1; if q = 0 then s4 else s4.bump i (84 + p) 1
/-- The frame in transmission ends: counted and on the fibre, or cut short by an underrun. -/
def State.txEnd (s : State) (i : Nat) : State :=
  match (s.sub i).tx with
  | none => s
  | some f =>
    let under := (s.sub i).underrun
    let s1 := s.setSub i { s.sub i with tx := none, underrun := false }
    if under then
      let t := s1.rf (.sub i) 0x804 13 0
      s1.setReg (.sub i) 0x804 (BitVec.ofNat 32 (min (t + 1024) 9216))
    else
      let s2 := s1.txCount i f
      s2.setSub i { s2.sub i with wire := f :: (s2.sub i).wire }
/-- TX_FRAME_END (R334, R53): the device's raise of THRESH applies first, then the pending values. -/
def execTxFrameEnd (sub : SubId) (s : State) : Out :=
  .next (if (s.sub sub.val).tx.isSome then (s.txEnd sub.val).macBoundary sub.val true else s)

/-! ### ENABLE and MODE -/

/-- ENABLE set to 0 (R324, R54): the frame in transmission finishes, pending values apply. -/
def State.portOff (s : State) (i : Nat) : State :=
  let s1 := s.txEnd i
  let s2 := s1.linkDown i 1
  let s3 := (s2.setSub i { s2.sub i with rxVlan := none }).boundary (.sub i)
  s3.relight (i / 4)
/-- A change of MODE zeroes every counter and HALF bit of both sub-ports (R321). -/
def State.modeChanged (s : State) (p : Nat) : State :=
  [2 * p, 2 * p + 1].foldl (fun st i => st.setSub i { st.sub i with counters := [], half := [], oct := (0, 0) }) s

end Sys2Proof.Machine
end

