-- ==== Sys2Proof/Machine/Power.lean ====
section
/-! DEFINITION. Constantan (R370 to R391): operating points and how they change, droop, duty, the power
cap, PWRBRK_N, heat, energy accounts, and what a partition sees. -/

namespace Sys2Proof.Machine

/-! ### Operating points -/

/-- Voltage of an operating point in mV (R370). -/
def oppMv (o : Nat) : Nat := [800, 770, 740, 710, 680, 650, 620, 600].getD o 600
/-- ACLK of an operating point in units of 10 MHz (R370). -/
def oppFreq (o : Nat) : Nat := [160, 150, 140, 130, 120, 105, 93, 80].getD o 80
/-- Does Constantan drive a group: START_CP has completed and the group is powered (R385)? -/
def State.grpOn (s : State) (g : Nat) : Bool := s.power.cp && s.power.pdG.testBit g
/-- The rail now, at 10 mV per us on its way to its target (R372). -/
def railNow (g : Group) (tick : Nat) : Nat :=
  match g.change with
  | none => g.mv
  | some c =>
    let t := oppMv c.target
    let left := ceilDiv (c.railTick - tick) 10
    if g.mv < t then max g.mv (t - left)
    else if c.switched then min g.mv (t + left) else g.mv
/-- A notice to Invar: a freeze of the group's die begins or goes on (R407). -/
def State.notice (s : State) (g : Nat) : State :=
  let d := s.die (g / 8)
  let s1 := s.setDie (g / 8) { d with freezeUntil := some (max (d.freezeUntil.getD 0) s.tick) }
  { s1 with inv := { s1.inv with freezes := (s1.inv.freezes + 1) % 65536 } }
/-- The freeze lasts at least TAIL_US from now (R407). -/
def State.tail (s : State) (g : Nat) : State :=
  let d := s.die (g / 8)
  s.setDie (g / 8) { d with freezeUntil := some (max (d.freezeUntil.getD 0) (s.tick + 100 * s.rf .iv 0x000 23 16)) }
/-- Start a change of a group's operating point (R372); it replaces one that has not switched, and takes
the place of the rest of one that has. The standby PLL needs no lock for 0.80 GHz. -/
def State.startChange (s : State) (g target : Nat) (forced : Bool) : State :=
  let x := s.grp g
  let mv := railNow x s.tick
  let up := mv < oppMv target
  let c : Change := { target := target, notice := s.tick, forced := forced, pllLocked := target = 7, railTick := if up then s.tick + 10 * (oppMv target - mv) else s.tick }
  (s.setGrp g { x with mv := mv, change := some c, frozen := true }).notice g
/-- Where a group is bound for: its change's target, or its point. -/
def grpTarget (x : Group) : Nat := match x.change with | some c => c.target | none => x.opp
/-- A change ends when the switch is made, the rail stands at the target and the old PLL is standby. -/
def grpSettle (x : Group) : Group :=
  match x.change with
  | none => x
  | some c => if c.switched ∧ c.pllLocked ∧ x.mv = oppMv c.target then { x with change := none } else x

/-- PLL_LOCK (R372): before the switch the standby PLL reaches the target; after it the old PLL reaches
0.80 GHz. -/
def execPllLock (group : GroupId) (s : State) : Out :=
  let x := s.grp group.val
  match x.change with
  | none => .next s
  | some c =>
    if s.grpOn group.val ∧ !c.pllLocked then .next (s.setGrp group.val (grpSettle { x with change := some { c with pllLocked := true } }))
    else .next s

/-- Is a switch due (R372)? Rail and lock are there, and a voluntary one has waited out its notice. -/
def switchDue (s : State) (x : Group) (c : Change) : Bool :=
  !c.switched && c.pllLocked && decide (oppMv c.target ≤ x.mv) && c.retryTick.isNone &&
  (c.forced || decide (c.notice + 100 * s.rf .pw 0x000 23 16 ≤ s.tick))
/-- MUX_SWITCH (R372, R374): a switch that falls due during a stretch waits. -/
def execMuxSwitch (group : GroupId) (s : State) : Out :=
  let g := group.val
  let x := s.grp g
  match x.change with
  | none => .next s
  | some c =>
    if !s.grpOn g ∨ !switchDue s x c then .next s
    else if x.stretch then
      .next (s.setGrp g { x with change := some { c with waitTick := some (c.waitTick.getD s.tick) } })
    else
      let fall := x.mv - oppMv c.target
      let c1 := { c with switched := true, pllLocked := decide (x.opp = 7), railTick := s.tick + 10 * fall, waitTick := none }
      let x1 := { x with opp := c.target, switches := (x.switches + 1) % 65536, change := some c1 }
      .next ((s.setGrp g (grpSettle x1)).tail g)
/-- RAIL_SETTLE (R372): the rail has had the time that 10 mV per us takes. -/
def execRailSettle (group : GroupId) (s : State) : Out :=
  let g := group.val
  let x := s.grp g
  match x.change with
  | none => .next s
  | some c =>
    if s.grpOn g ∧ c.railTick ≤ s.tick ∧ x.mv ≠ oppMv c.target ∧ (c.switched ∨ x.mv < oppMv c.target) then
      .next ((s.setGrp g (grpSettle { x with mv := oppMv c.target })).tail g)
    else .next s
/-- SWITCH_ABANDON (R374): a voluntary switch that has waited 2 us on a stretch. -/
def execSwitchAbandon (group : GroupId) (s : State) : Out :=
  let g := group.val
  let x := s.grp g
  match x.change with
  | none => .next s
  | some c =>
    match c.waitTick with
    | none => .next s
    | some t =>
      if s.grpOn g ∧ !c.forced ∧ x.stretch ∧ t + 200 ≤ s.tick then
        .next (s.setGrp g { x with abandon := (x.abandon + 1) % 65536, change := some { c with waitTick := none, retryTick := some (s.tick + 5000) } })
      else .next s
/-- SWITCH_RETRY (R374): 50 us later the switch is due again. -/
def execSwitchRetry (group : GroupId) (s : State) : Out :=
  let x := s.grp group.val
  match x.change with
  | none => .next s
  | some c =>
    match c.retryTick with
    | none => .next s
    | some r =>
      if s.grpOn group.val ∧ r ≤ s.tick then .next (s.setGrp group.val { x with change := some { c with retryTick := none } })
      else .next s

/-! ### Droop and duty -/

/-- DROOP_DETECT (R373): the next edge of the group is stretched. -/
def execDroopDetect (group : GroupId) (_detector : Fin 16) (s : State) : Out :=
  if s.grpOn group.val then .next (s.setGrp group.val { s.grp group.val with stretch := true }) else .next s
/-- STRETCH_END (R373): the stretch has lasted its 64 quiet cycles and a free number of earlier ones; the
stretched cycles count (log 4). -/
def execStretchEnd (group : GroupId) (s : State) : Out :=
  let x := s.grp group.val
  if s.grpOn group.val ∧ x.stretch then
    let n := s.draw.1
    .next (s.draw.2.setGrp group.val { x with stretch := false, stretchCnt := (x.stretchCnt + 64 + n) % 2 ^ 32 })
  else .next s
/-- DUTY_FRAME (R375): a changed duty takes effect at the frame boundary. -/
def execDutyFrame (group : GroupId) (s : State) : Out :=
  let x := s.grp group.val
  if s.grpOn group.val then .next (s.setGrp group.val { x with duty := x.nextDuty }) else .next s

/-! ### Requests and predictions -/

/-- Preferred point of a phase (0 F, 1 B, 2 W, 3 U, 4 C, 5 S, 6 I) of a partition. -/
def State.pref (s : State) (p ph : Nat) : Nat := s.rf .pw (0x010 + 4 * p) (3 * ph + 2) (3 * ph)
/-- The highest guaranteed point among the services that reserve in a group. -/
def State.guarantee (s : State) (g : Nat) : Option Nat :=
  s.svcs.foldl (fun m e => if e.2.blocks.any (fun x => x.1 = g) then some (min (m.getD 7) e.2.gopp) else m) none
/-- The requested point of a group (R371); a proving run holds its groups at exactly the guaranteed point
(R243). -/
def State.request (s : State) (g : Nat) (cores : List Nat) : Nat :=
  match s.groupPart g with
  | none => 7
  | some p =>
    let here := (upTo 7).filter (fun ph => 8 ≤ cores.getD ph 0)
    let want := if here = [] then s.pref p 6 else (here.map (s.pref p)).foldl min 7
    if s.svcs.any (fun e => decide (e.2.st = .proving) && e.2.blocks.any (fun x => x.1 = g)) then (s.guarantee g).getD want
    else match s.guarantee g with
    | none => want
    | some o => min want o
/-- The settings of every control (R377). -/
structure Ctl where
  opp : List Nat
  duty : List Nat
  mem : List Nat
  link : List Nat
deriving DecidableEq, Repr
/-- The settings in force or on their way. -/
def State.ctl (s : State) : Ctl :=
  { opp := (upTo 32).map (fun g => grpTarget (s.grp g)), duty := (upTo 32).map (fun g => (s.grp g).nextDuty), mem := (upTo 4).map (fun d => (s.die d).memDuty), link := (upTo 4).map (fun d => (s.die d).linkDuty) }
/-- The settings of full demand: requested points, no control lowered. -/
def State.fullCtl (s : State) : Ctl :=
  { opp := (upTo 32).map (fun g => (s.grp g).req), duty := List.replicate 32 8, mem := List.replicate 4 8, link := List.replicate 4 8 }
/-- What one interval measured, and the domain that an apportioning serves: 8 is the shared cap, p the slice
of isolated partition p (R389). -/
structure Dom where
  id : Nat
  groups : List Nat
  budget : Nat
  measured : Nat
  gen : Nat
  phases : List (List Nat)
/-- Groups of a domain that are a control: not reserved. -/
def Dom.free (s : State) (d : Dom) : List Nat := d.groups.filter (fun g => !s.reserved g)
/-- Predicted power of a group in mW from the learned coefficients (R378). -/
def grpPower (d : Dom) (g opp duty : Nat) : Nat :=
  ((upTo 7).map (fun ph => (d.phases.getD g []).getD ph 0 * Config.groupPower (32 * d.gen + g) opp duty ph)).foldl (· + ·) 0
/-- Predicted input power of a domain in mW. -/
def predict (d : Dom) (c : Ctl) : Nat :=
  (d.groups.map (fun g => grpPower d g (c.opp.getD g 7) (c.duty.getD g 8))).foldl (· + ·) (Config.basePower d.gen d.id) +
  (if d.id = 8 then ((upTo 4).map (fun i => Config.trafficPower d.gen i (c.mem.getD i 8) +
    Config.trafficPower d.gen (4 + i) (c.link.getD i 8))).foldl (· + ·) 0 else 0)

/-- One control of R377. -/
inductive Knob where
  | grp (g : Nat) | mem (d : Nat) | link (d : Nat)
deriving DecidableEq, Repr
/-- The controls of a domain, in the order in which ties go. -/
def Dom.knobs (s : State) (d : Dom) : List Knob :=
  (d.free s).map .grp ++ (if d.id = 8 then (upTo 4).map .mem ++ (upTo 4).map .link else [])
/-- One step down; none at the floor. -/
def stepDown (c : Ctl) : Knob → Option Ctl
  | .grp g =>
    if c.opp.getD g 7 < 7 then some { c with opp := c.opp.set g (c.opp.getD g 7 + 1) }
    else if 1 < c.duty.getD g 1 then some { c with duty := c.duty.set g (c.duty.getD g 1 - 1) }
    else none
  | .mem d => if 4 < c.mem.getD d 4 then some { c with mem := c.mem.set d (c.mem.getD d 4 - 1) } else none
  | .link d => if 4 < c.link.getD d 4 then some { c with link := c.link.set d (c.link.getD d 4 - 1) } else none
/-- One step up toward the requested point; none at the top. -/
def stepUp (s : State) (c : Ctl) : Knob → Option Ctl
  | .grp g =>
    if tabGet false s.con.groupThrottle g then none
    else if c.duty.getD g 8 < 8 then some { c with duty := c.duty.set g (c.duty.getD g 8 + 1) }
    else if (s.grp g).req < c.opp.getD g 0 then some { c with opp := c.opp.set g (c.opp.getD g 0 - 1) }
    else none
  | .mem d => if c.mem.getD d 8 < 8 then some { c with mem := c.mem.set d (c.mem.getD d 8 + 1) } else none
  | .link d => if c.link.getD d 8 < 8 then some { c with link := c.link.set d (c.link.getD d 8 + 1) } else none
/-- Throughput that a setting of a control gives (R379). -/
def thruput (d : Dom) (c : Ctl) : Knob → Nat
  | .grp g =>
    let ph := d.phases.getD g []
    oppFreq (c.opp.getD g 7) * c.duty.getD g 8 * ((upTo 6).map (fun i => ph.getD i 0)).foldl (· + ·) 0
  | .mem i => c.mem.getD i 8 * Config.trafficUse d.gen i
  | .link i => c.link.getD i 8 * Config.trafficUse d.gen (4 + i)
/-- A candidate step: saved or added power, lost or gained throughput, settings after it. -/
abbrev Cand := Nat × Nat × Ctl
/-- The first candidate with the greatest ratio of the first over the second number. -/
def bestBy (num den : Cand → Nat) : List Cand → Option Cand
  | [] => none
  | c :: cs =>
    match bestBy num den cs with
    | none => some c
    | some b => if num c * den b < num b * den c then some b else some c
/-- Classes from highest to lowest priority: 0 memory, 1 links, 2 compute (PW_CTRL.ORDER). -/
def classOrder (o : Nat) : List Nat :=
  [[0, 1, 2], [0, 2, 1], [1, 0, 2], [1, 2, 0], [2, 0, 1], [2, 1, 0]].getD o [0, 1, 2]
/-- Class of a control. -/
def knobClass : Knob → Nat | .mem _ => 0 | .link _ => 1 | .grp _ => 2
/-- How high a control stands, in steps above its floor. -/
def knobLevel (c : Ctl) : Knob → Nat
  | .grp g => if c.opp.getD g 7 < 7 then 8 + (7 - c.opp.getD g 7) else c.duty.getD g 1
  | .mem d => c.mem.getD d 4
  | .link d => c.link.getD d 4
/-- The first of the controls with the greatest level. -/
def topKnob (c : Ctl) : List Knob → Option Knob
  | [] => none
  | k :: ks =>
    match topKnob c ks with
    | none => some k
    | some b => if knobLevel c k < knobLevel c b then some b else some k
/-- The next lowering step by the chosen method (R379). -/
def lowerStep (s : State) (d : Dom) (c : Ctl) : Option Ctl :=
  let ks := (d.knobs s).filter (fun k => (stepDown c k).isSome)
  if flag (s.reg .pw 0x000) 31 then
    let cls := (classOrder (s.rf .pw 0x000 30 28)).reverse.find? (fun q => ks.any (fun k => knobClass k = q))
    (topKnob c (ks.filter (fun k => some (knobClass k) = cls))).bind (stepDown c)
  else
    let cand := ks.filterMap (fun k => (stepDown c k).map (fun c2 => (predict d c - predict d c2, thruput d c k - thruput d c2 k, c2)))
    (bestBy (·.1) (·.2.1) cand).map (·.2.2)
/-- The next raising step: the reverse (R379). -/
def raiseStep (s : State) (d : Dom) (c : Ctl) : Option Ctl :=
  let ks := (d.knobs s).filter (fun k => (stepUp s c k).isSome)
  if flag (s.reg .pw 0x000) 31 then
    let cls := (classOrder (s.rf .pw 0x000 30 28)).find? (fun q => ks.any (fun k => knobClass k = q))
    let mine := (ks.filter (fun k => some (knobClass k) = cls)).reverse
    let low := mine.foldl (fun m k => match m with | none => some k | some b => if knobLevel c k < knobLevel c b then some k else m) none
    low.bind (stepUp s c)
  else
    let cand := ks.filterMap (fun k => (stepUp s c k).map (fun c2 => (predict d c2 - predict d c, thruput d c2 k - thruput d c k, c2)))
    (bestBy (·.2.1) (·.1) cand).map (·.2.2)
/-- Lower until the prediction meets the budget or every control is at its floor (R378). -/
def lowerAll (s : State) (d : Dom) : Nat → Ctl → Ctl
  | 0, c => c
  | n + 1, c =>
    if predict d c ≤ 1000 * d.budget then c
    else match lowerStep s d c with
      | none => c
      | some c2 => lowerAll s d n c2
/-- Raise while the prediction stays at or below 97% of the budget. -/
def raiseAll (s : State) (d : Dom) : Nat → Ctl → Ctl
  | 0, c => c
  | n + 1, c =>
    match raiseStep s d c with
    | none => c
    | some c2 => if predict d c2 * 100 ≤ 97000 * d.budget then raiseAll s d n c2 else c

/-! ### Moves -/

/-- Magnitudes of the voluntary moves of the last millisecond on a die, in mW (R406). -/
def slewSum (d : DieS) (tick : Nat) : Nat :=
  ((d.moves.filter (fun m => tick < m.1 + 100000)).map (·.2)).foldl (· + ·) 0
/-- May a voluntary move of this magnitude be made now? A single step may stand alone in an empty window. -/
def slewFits (d : DieS) (tick mag : Nat) (single : Bool) : Bool :=
  slewSum d tick + mag ≤ 1000 * d.effective || (single && slewSum d tick = 0)
/-- Note a voluntary move. -/
def State.slewNote (s : State) (die mag : Nat) : State :=
  let d := s.die die
  s.setDie die { d with moves := (s.tick, mag) :: d.moves.filter (fun m => s.tick < m.1 + 100000) }
/-- Distance of two numbers. -/
def gap (a b : Nat) : Nat := (a - b) + (b - a)
/-- Put a group at a point and a duty: a new change only when the point differs. -/
def State.placeGrp (s : State) (g opp duty : Nat) (forced : Bool) : State :=
  let s1 := if grpTarget (s.grp g) = opp then s else s.startChange g opp forced
  s1.setGrp g { s1.grp g with nextDuty := duty }
/-- One step from a setting toward another: point first on the way down, duty first on the way up. -/
def oneStep (opp duty opp2 duty2 : Nat) : Nat × Nat :=
  if opp < opp2 then (opp + 1, duty) else if duty2 < duty then (opp, duty - 1)
  else if duty < duty2 then (opp, duty + 1) else if opp2 < opp then (opp - 1, duty) else (opp, duty)
/-- Move a group voluntarily within the slew budget (R406). -/
def State.moveGrp (s : State) (d : Dom) (g opp duty : Nat) : State :=
  let x := s.grp g
  let o := grpTarget x
  if (o = opp ∧ x.nextDuty = duty) ∨ x.change.isSome then s
  else
    let here := grpPower d g o x.nextDuty
    let die := s.die (g / 8)
    let whole := gap here (grpPower d g opp duty)
    if slewFits die s.tick whole false then (s.slewNote (g / 8) whole).placeGrp g opp duty false
    else if whole ≤ 1000 * die.effective then s
    else
      let st := oneStep o x.nextDuty opp duty
      let mag := gap here (grpPower d g st.1 st.2)
      if slewFits die s.tick mag true then (s.slewNote (g / 8) mag).placeGrp g st.1 st.2 false else s
/-- Set a die's memory or link duty. -/
def State.placeTraffic (s : State) (link : Bool) (i v : Nat) : State :=
  s.setDie i (if link then { s.die i with linkDuty := v } else { s.die i with memDuty := v })
/-- Move a die's memory or link duty voluntarily, one step at a time where the whole does not fit. -/
def State.moveTraffic (s : State) (d : Dom) (link : Bool) (i v : Nat) : State :=
  let die := s.die i
  let cur := if link then die.linkDuty else die.memDuty
  let k := if link then 4 + i else i
  if cur = v then s
  else
    let whole := gap (Config.trafficPower d.gen k cur) (Config.trafficPower d.gen k v)
    let nxt := if cur < v then cur + 1 else cur - 1
    let one := gap (Config.trafficPower d.gen k cur) (Config.trafficPower d.gen k nxt)
    if slewFits die s.tick whole false then (s.slewNote i whole).placeTraffic link i v
    else if whole ≤ 1000 * die.effective then s
    else if slewFits die s.tick one true then (s.slewNote i one).placeTraffic link i nxt else s
/-- Apportion one domain's power (R378; log 22). -/
def State.apportion (s : State) (d : Dom) : State :=
  let cur := s.ctl
  let want := s.fullCtl
  -- reserved groups are not a control: they follow their requested points at full duty
  let s0 := (d.groups.filter (fun g => s.reserved g && !tabGet false s.con.groupThrottle g)).foldl (fun st g =>
    if (s.guarantee g).getD 7 < cur.opp.getD g 7 ∨ cur.duty.getD g 8 < 8 then st.placeGrp g ((s.grp g).req) 8 false
    else st.moveGrp d g (s.grp g).req 8) s
  let start := { want with opp := (upTo 32).map (fun g => if (d.free s).contains g then want.opp.getD g 7 else cur.opp.getD g 7) }
  let low := lowerAll s d 512 start
  let forced := decide (1000 * d.budget < predict d cur)
  let capped := { opp := (upTo 32).map (fun g => max (cur.opp.getD g 7) (low.opp.getD g 7)), duty := (upTo 32).map (fun g => min (cur.duty.getD g 8) (low.duty.getD g 8)), mem := (upTo 4).map (fun i => min (cur.mem.getD i 8) (low.mem.getD i 8)), link := (upTo 4).map (fun i => min (cur.link.getD i 8) (low.link.getD i 8)) : Ctl }
  let plan := if !forced ∧ d.measured * 100 < 97 * d.budget then raiseAll s d 512 capped else capped
  let s1 := (d.free s).foldl (fun st g =>
    let o := plan.opp.getD g 7
    let u := plan.duty.getD g 8
    if tabGet false s.con.groupThrottle g then st
    else if forced then (if grpTarget (st.grp g) < o ∨ u < (st.grp g).nextDuty then st.placeGrp g o u true else st)
    else st.moveGrp d g o u) s0
  if d.id ≠ 8 then s1
  else (upTo 4).foldl (fun st i =>
    if forced then (st.placeTraffic false i (plan.mem.getD i 8)).placeTraffic true i (plan.link.getD i 8)
    else (st.moveTraffic d false i (plan.mem.getD i 8)).moveTraffic d true i (plan.link.getD i 8)) s1
/-- Does every control of a domain stand at its floor? -/
def State.atFloor (s : State) (d : Dom) : Bool :=
  (d.free s).all (fun g => (s.grp g).opp = 7 && (s.grp g).duty = 1) &&
  (d.id ≠ 8 || (upTo 4).all (fun i => (s.die i).memDuty = 4 && (s.die i).linkDuty = 4))
/-- Average of a list of samples. -/
def average (l : List Nat) : Nat := l.foldl (· + ·) 0 / max 1 l.length
/-- Judge a domain's cap (R380): an episode begins once with its event, and ends after 10 ms at or below it. -/
def State.judgeCap (s : State) (d : Dom) : State :=
  let avg := if d.id = 8 then s.con.avgW else average (tabGet [] s.con.partW d.id)
  match tabFind s.con.unatt d.id with
  | none =>
    if s.atFloor d ∧ d.budget < d.measured then
      let s1 := { s with con := { s.con with unatt := tabSet s.con.unatt d.id 0 } }
      s1.raise 0x4001 [] true (if d.id = 8 then 0xFF else d.id) (natLE 2 d.budget ++ natLE 2 avg)
    else s
  | some n =>
    let met := if avg ≤ d.budget then n + 1 else 0
    { s with con := { s.con with unatt := if 100 ≤ met then tabDel s.con.unatt d.id else tabSet s.con.unatt d.id met } }

/-- Slice of an isolated partition as it counts now (R433). -/
def State.sliceNow (s : State) (x : Partn) : Nat :=
  let sum := ((s.sec.parts.filter (fun e => e.2.isolated)).map (fun e => e.2.slice)).foldl (· + ·) 0
  let cap := s.rf .pw 0x004 10 0
  if cap < sum then x.slice * cap / sum else x.slice
/-- Groups of a partition that are powered. -/
def State.partGroups (s : State) (x : Partn) : List Nat := (upTo 32).filter (fun g => x.groups.testBit g && s.power.pdG.testBit g)
/-- The domains of this interval: each isolated partition's slice, and the rest of the cap (R389). -/
def State.domains (s : State) (i : IntervalInput) : List Dom :=
  let iso := s.sec.parts.filter (fun e => e.2.isolated)
  let isoW := (iso.map (fun e => (tabGet [] s.con.partW e.1).headD 0)).foldl (· + ·) 0
  let isoB := (iso.map (fun e => s.sliceNow e.2)).foldl (· + ·) 0
  { id := 8, groups := (s.sec.parts.filter (fun e => !e.2.isolated)).flatMap (fun e => s.partGroups e.2), budget := s.rf .pw 0x004 10 0 - isoB, measured := i.watts - isoW, gen := s.con.coeffGen, phases := i.phaseCores }
  :: iso.map (fun e => { id := e.1, groups := s.partGroups e.2, budget := s.sliceNow e.2, measured := (tabGet [] s.con.partW e.1).headD 0, gen := s.con.coeffGen, phases := i.phaseCores })
/-- Is a group below its requested point or duty (PW_GROUPg.THROTTLED)? -/
def grpThrottled (x : Group) : Bool := decide (x.req < x.opp) || decide (x.duty < 8)
/-- Note external throttling of partitions (R388); a slice that cannot carry full demand is no external cause. -/
def State.noteExt (s : State) (doms : List Dom) : State :=
  let f := fun (p : Nat) (x : Partn) =>
    let below := (s.partGroups x).any (fun g => grpThrottled (s.grp g))
    let hot := s.power.pwrbrk || (s.partGroups x).any (fun g => tabGet false s.con.groupThrottle g)
    let own := x.isolated && doms.any (fun d => d.id = p && decide (1000 * d.budget < predict d s.fullCtl))
    if below && (hot || !own) then { x with extNow := true } else x
  { s with sec := { s.sec with parts := tabMap f s.sec.parts } }
/-- Answer a PW_CAP_SET that waits: once the prediction meets the cap, or at the 1 ms bound (R376, R381). -/
def State.answerCap (s : State) (d : Dom) : State :=
  let met := decide (predict d s.ctl ≤ 1000 * d.budget)
  let st := if s.con.unatt = [] then stOk else stUnattain
  s.answerWhere (fun w => w.op = 0x0701 && (met || decide (w.arg + 100000 < s.tick + 10000))) st []
/-- CONTROL_INTERVAL (R371, R378 to R380): once per 100 us. -/
def execControlInterval (i : IntervalInput) (s : State) : Out :=
  if !s.power.cp then .next s
  else
    let roll := fun (t : Tab (List Nat)) (e : Nat × Partn) =>
      tabSet t e.1 ((tabGet 0 s.con.partUj e.1 / 100 :: tabGet [] t e.1).take 20)
    let con := { s.con with coeffGen := s.con.coeffGen + 1, partW := s.sec.parts.foldl roll s.con.partW, partUj := [] }
    let s1 := ((upTo 32).filter s.grpOn).foldl (fun st g => st.setGrp g { st.grp g with req := s.request g (i.phaseCores.getD g []) }) { s with con := con }
    let s2 := (upTo 4).foldl (fun st d =>
      let b := st.rf .iv (0x010 + 4 * d) 7 0
      st.setDie d { st.die d with effective := if (st.die d).lowHeadroom then b / 2 else b }) s1
    let doms := s2.domains i
    let s3 := if s.power.pwrbrk then s2 else doms.foldl (fun st d => st.apportion d) s2
    let s4 := doms.foldl (fun st d => st.judgeCap d) s3
    let s5 := s4.noteExt doms
    .next ((doms.take 1).foldl (fun st d => st.answerCap d) s5)

/-! ### Measurement and heat -/

/-- Sum of the amounts whose number satisfies a test. -/
def sumWhere (p : Nat → Bool) (l : List (Nat × Nat)) : Nat := ((l.filter (fun e => p e.1)).map (·.2)).foldl (· + ·) 0
/-- What an account counts of a sample (R386). -/
def acctShare (e : EnergyInput) (a : Acct) : Nat :=
  match a.kind with
  | 1 => e.device
  | 2 => sumWhere (· = a.first) e.byPart
  | 3 => sumWhere (· = a.first) e.byJob
  | 4 => sumWhere (· = a.first) e.byService
  | 5 => sumWhere (fun q => decide (a.first ≤ q) && decide (q ≤ a.last)) e.byQpn
  | 6 => sumWhere (· = a.first) e.byGroup
  | _ => 0
/-- POWER_SAMPLE (R376, R386): the 2 ms average holds 200 samples. -/
def execPowerSample (e : EnergyInput) (s : State) : Out :=
  if !s.power.cp then .next s
  else
    let smp := e.watts :: s.con.samples.take 199
    let accts := tabMap (fun _ (a : Acct) => { a with uj := (a.uj + acctShare e a) % 2 ^ 64 }) s.con.accts
    let pu := s.sec.parts.foldl (fun t p => tabSet t p.1 (tabGet 0 t p.1 + sumWhere (· = p.1) e.byPart)) s.con.partUj
    let s1 := { s with con := { s.con with samples := smp, avgW := average smp, accts := accts, partUj := pu } }
    .next ((upTo 4).foldl (fun st d => st.setDie d { st.die d with watts := e.dieWatts.getD d 0 }) s1)

/-- Periods that run on a group carry LAPSE (R24, R253). -/
def State.lapseOn (s : State) (p : Nat → Bool) : State :=
  { s with svcs := tabMap (fun _ (v : Svc) => if (v.ph ≠ .idle ∨ v.st = .proving) ∧ v.blocks.any (fun b => p b.1) then { v with lapse := true } else v) s.svcs }
/-- PWRBRK_ASSERT (R382): duty 1 and 4/8 everywhere, every group to OPP7, all forced. Before START_CP the
window holds duty 1 and the running step's bound stands still (R485). -/
def execPwrbrkAssert (s : State) : Out :=
  if s.power.pwrbrk then .next s
  else
    let s1 := { s with power := { s.power with pwrbrk := true, brkTick := s.tick } }
    let on := (upTo 32).filter (fun g => s.power.pdG.testBit g)
    if !s.power.cp then .next (on.foldl (fun st g => st.setGrp g { st.grp g with duty := 1, nextDuty := 1 }) s1)
    else
      let s2 := on.foldl (fun st g => st.placeGrp g 7 1 true) s1
      let s3 := (upTo 4).foldl (fun st d => st.setDie d { st.die d with memDuty := 4, linkDuty := 4 }) s2
      .next ((s3.noteExt []).lapseOn (fun _ => true))
/-- PWRBRK_RELEASE (R382): the next intervals raise voluntarily; a bring-up step's time stood still (R485). -/
def execPwrbrkRelease (s : State) : Out :=
  if !s.power.pwrbrk then .next s
  else
    let s1 := { s with power := { s.power with pwrbrk := false } }
    if s.power.cp then .next s1
    else
      let s2 := (upTo 32).foldl (fun st g => if s.power.pdG.testBit g then st.setGrp g { st.grp g with duty := 8, nextDuty := 8 } else st) s1
      if s.bu.result ≠ 1 then .next s2
      else .next { s2 with bu := { s2.bu with startTick := s2.bu.startTick + (s.tick - max s.power.brkTick s.bu.startTick) } }

/-- Sensors of group g in a reading. -/
def grpTemps (t : TempReading) (g : Nat) : List Nat := (upTo 4).map (fun k => t.die.getD (4 * g + k) 0)
/-- Greatest of a list. -/
def listMax (l : List Nat) : Nat := l.foldl max 0
/-- Bytes of a THERMAL_WARN entry (R391, log 20). -/
def warnDetail (level unit temp : Nat) : List Byte := natLE 1 level ++ natLE 1 unit ++ natLE 2 temp
/-- Warnings of the die sensors: raised at 95 degrees, again only after 92 (R383). -/
def State.warnSensors (s : State) (t : TempReading) : State :=
  let s1 := (upTo 128).foldl (fun st i =>
    let v := t.die.getD i 0
    if 760 ≤ v ∧ !st.con.warned.contains i then
      ({ st with con := { st.con with warned := i :: st.con.warned } }.raise 0x4002 [] true 0xFF (warnDetail 1 (i / 32) v)).alertOn 0
    else if v ≤ 736 then { st with con := { st.con with warned := st.con.warned.filter (· ≠ i) } } else st) s
  { s1 with con := { s1.con with warnNow := t.die.any (fun v => 760 ≤ v) } }
/-- The throttle of one group (R383): from 100 degrees one point lower, then one duty step lower, each
interval; held until 97. -/
def State.throttleGrp (s : State) (t : TempReading) (g : Nat) : State :=
  let hot := listMax (grpTemps t g)
  let was := tabGet false s.con.groupThrottle g
  let setT := fun (st : State) (b : Bool) => { st with con := { st.con with groupThrottle := if b then tabSet st.con.groupThrottle g true else tabDel st.con.groupThrottle g } }
  if 800 ≤ hot then
    let s1 := if was then s else (setT s true).raise 0x4002 [] true 0xFF (warnDetail 2 (g / 8) hot)
    let x := s1.grp g
    let b := max x.opp (grpTarget x)
    let s2 := if b < 7 then s1.placeGrp g (b + 1) x.nextDuty true
      else s1.setGrp g { x with nextDuty := max 1 (x.nextDuty - 1) }
    s2.lapseOn (· = g)
  else if hot ≤ 776 then (if was then setT s false else s)
  else if was then s.lapseOn (· = g) else s
/-- The throttle of a memory device (R383). -/
def State.throttleMem (s : State) (t : TempReading) (m : Nat) : State :=
  let v := t.mem.getD m 0
  let was := tabGet false s.con.memThrottle m
  if 760 ≤ v ∧ !was then
    ({ s with con := { s.con with memThrottle := tabSet s.con.memThrottle m true } }.raise 0x4002 [] true 0xFF (warnDetail 3 m v)).alertOn 1
  else if v ≤ 736 ∧ was then { s with con := { s.con with memThrottle := tabDel s.con.memThrottle m } }
  else s
/-- A trip (R384): THERM_N is driven and the trip is recorded for the next start. -/
def State.trip (s : State) (die : Bool) (src temp : Nat) : State :=
  let s0 := if s.bu.result = 1 then s.buEnd (4, buThermal, 0) else s
  let s1 := { s0 with power := { s0.power with therm := true, tripped := true }, bu := { s0.bu with tripDie := s0.bu.tripDie || die, tripMem := s0.bu.tripMem || !die, tripSource := src, tripTemp := temp } }
  (s1.alertOn 5).lapseOn (fun _ => true)
/-- Index of the first greatest entry. -/
def argMax (l : List Nat) : Nat := (upTo l.length).find? (fun i => l.getD i 0 = listMax l) |>.getD 0
/-- Trip points of a reading (R383, R384). -/
def State.tripIf (s : State) (t : TempReading) : State :=
  if 880 ≤ listMax t.die then s.trip true (argMax t.die / 32) (listMax t.die)
  else if 840 ≤ listMax t.mem then s.trip false (argMax t.mem) (listMax t.mem)
  else s
/-- The hottest sensor of each die (R390, R486). -/
def State.takeTemps (s : State) (t : TempReading) : State :=
  (upTo 4).foldl (fun st d =>
    let l := (t.die.drop (32 * d)).take 32
    st.setDie d { st.die d with tempHot := listMax l, tempSensor := argMax l }) s
/-- What the sensors bring to the telemetry and the throttles (R383). -/
def State.thermal (s : State) (t : TempReading) : State :=
  let s1 := s.takeTemps t
  let s2 := { s1 with con := { s1.con with memTemp := (upTo 12).map (fun m => (m, t.mem.getD m 0)) } }
  let s3 := s2.warnSensors t
  let s4 := ((upTo 32).filter (fun g => s.power.pdG.testBit g)).foldl (fun st g => st.throttleGrp t g) s3
  ((upTo 12).foldl (fun st m => st.throttleMem t m) s4).noteExt []
/-- THERMAL_SAMPLE (R383, R384): before START_CP Constantan does not run (R450): the readings reach the
SMBus endpoint (R486), and only a trip acts. -/
def execThermalSample (t : TempReading) (s : State) : Out :=
  if s.power.tripped ∨ s.power.pdFab = 0 then .next s
  else .next ((if s.power.cp then s.thermal t else s.takeTemps t).tripIf t)

/-! ### Tenants -/

/-- Bytes 12 to 15 of PW_TENANT_STATUS for a partition: multiples of 5 degrees (R388). -/
def State.tjSeen (s : State) (x : Partn) : List Nat :=
  (upTo 4).map (fun d => if (upTo 8).any (fun g => x.groups.testBit (8 * d + g)) then (s.die d).tempHot / 40 * 5 else 0xFF)
/-- EXTERNAL_THROTTLE (R388): the 1 s window of a partition ends. -/
def execExternalThrottle (part : PartId) (s : State) : Out :=
  match s.part? part.val with
  | none => .next s
  | some x =>
    if !s.power.cp then .next s
    else
      let s1 := s.setPart part.val { x with extThrottle := x.extNow, extNow := false, tjDie := s.tjSeen x }
      let s2 := s1.noteExt []
      if x.extNow ∧ !x.extThrottle then .next (s2.raise 0x4003 [part.val] false part.val []) else .next s2

/-! ### Commands -/

/-- PW_CAP_SET (R381): the answer comes once the cap has taken effect. -/
def cmdPwCapSet (s : State) (r : Req) : CmdOut :=
  let w := bitsOf (r.w 0) 10 0
  if w < 200 ∨ 1500 < w then failWith s stBadArg
  else
    let s1 := s.setReg .pw 0x004 (BitVec.ofNat 32 w)
    .wait { s1 with con := { s1.con with unatt := [] } } w s.tick
/-- PW_CAP_SET. -/
def execPwCapSet (mb : MbId) (s : State) : Out := .next (runCmd s mb.val 0x0701 (.exact 1) true cmdPwCapSet)

/-- Account of a command. -/
def reqAcct (s : State) (r : Req) : Acct := tabGet {} s.con.accts (bitsOf (r.w 0) 7 0)
/-- Change an account. -/
def State.setAcct (s : State) (i : Nat) (a : Acct) : State := { s with con := { s.con with accts := tabSet s.con.accts i a } }
/-- May the mailbox act on an account (R387)? -/
def acctMine (r : Req) (a : Acct) : Bool := match r.scope with | none => true | some p => a.owner = p
/-- PW_ACCT_OWN (R387); a DEVICE account stays the operator's (R386; log 23). -/
def cmdPwAcctOwn (s : State) (r : Req) : CmdOut :=
  let o := bitsOf (r.w 0) 11 8
  let a := reqAcct s r
  if (7 < o ∧ o ≠ 15) ∨ (a.kind = 1 ∧ o ≠ 15) then failWith s stBadArg
  else if s.iso o ∧ a.owner ≠ o ∧ 32 ≤ (s.con.accts.filter (fun e => e.2.owner = o)).length then failWith s stNoRes
  else okNow (s.setAcct (bitsOf (r.w 0) 7 0) { a with owner := o })
/-- PW_ACCT_OWN. -/
def execPwAcctOwn (mb : MbId) (s : State) : Out := .next (runCmd s mb.val 0x0710 (.exact 1) true cmdPwAcctOwn)
/-- Does an account target lie within a partition? -/
def State.acctTarget (s : State) (p kind first last : Nat) : Bool :=
  match kind with
  | 0 => true
  | 2 => first = p
  | 3 => ((s.job? first).map (fun x => decide (x.part = p))).getD false
  | 4 => ((s.svc? first).map (fun v => decide (v.part = p))).getD false
  | 5 => s.xp.qps.all (fun e => decide (e.1 < first) || decide (last < e.1) || decide (e.2.part = p))
  | 6 => s.groupPart first = some p
  | _ => false
/-- PW_ACCT_ASSIGN (R387): the count stays. -/
def cmdPwAcctAssign (s : State) (r : Req) : CmdOut :=
  let kind := bitsOf (r.w 0) 10 8
  let first := bitsOf (r.w 0) 31 16
  let last := bitsOf (r.w 0) 47 32
  let a := reqAcct s r
  if kind = 7 ∨ (kind = 1 ∧ (r.scope ≠ none ∨ a.owner ≠ 15)) ∨ (kind = 5 ∧ last < first) then failWith s stBadArg
  else if !acctMine r a ∨ ((r.scope.map (fun p => !s.acctTarget p kind first last)).getD false) then failWith s stNotPerm
  else okNow (s.setAcct (bitsOf (r.w 0) 7 0) { a with kind := kind, first := first, last := last })
/-- PW_ACCT_ASSIGN. -/
def execPwAcctAssign (mb : MbId) (s : State) : Out := .next (runCmd s mb.val 0x0711 (.exact 1) false cmdPwAcctAssign)
/-- PW_ACCT_READ (R387). -/
def cmdPwAcctRead (s : State) (r : Req) : CmdOut :=
  let a := reqAcct s r
  if !acctMine r a then failWith s stNotPerm
  else .done s stOk (natLE 8 a.uj ++ natLE 1 a.kind ++ natLE 1 a.owner)
/-- PW_ACCT_READ. -/
def execPwAcctRead (mb : MbId) (s : State) : Out := .next (runCmd s mb.val 0x0712 (.exact 1) false cmdPwAcctRead)
/-- PW_ACCT_CLEAR (R387). -/
def cmdPwAcctClear (s : State) (r : Req) : CmdOut :=
  let a := reqAcct s r
  if !acctMine r a then failWith s stNotPerm
  else .done (s.setAcct (bitsOf (r.w 0) 7 0) { a with uj := 0 }) stOk (natLE 8 a.uj)
/-- PW_ACCT_CLEAR. -/
def execPwAcctClear (mb : MbId) (s : State) : Out := .next (runCmd s mb.val 0x0713 (.exact 1) false cmdPwAcctClear)
/-- PW_PREF_SET (R388). -/
def cmdPwPrefSet (s : State) (r : Req) : CmdOut :=
  let p := match r.scope with | some p => p | none => bitsOf (r.w 0) 2 0
  okNow (s.setReg .pw (0x010 + 4 * p) (BitVec.ofNat 32 (bitsOf (r.w 0) 52 32)))
/-- PW_PREF_SET. -/
def execPwPrefSet (mb : MbId) (s : State) : Out := .next (runCmd s mb.val 0x0720 (.exact 1) false cmdPwPrefSet)
/-- PW_TENANT_STATUS (R388). Mailbox 0 has no partition: it reads no throttle and no die (log 24). -/
def cmdPwTenantStatus (s : State) (r : Req) : CmdOut :=
  let x := (r.scope.bind s.part?).getD {}
  let tj := if x.tjDie = [] then s.tjSeen x else x.tjDie
  .done s stOk (natLE 4 (flagAt x.extThrottle 0) ++ tj.flatMap (natLE 1))
/-- PW_TENANT_STATUS. -/
def execPwTenantStatus (mb : MbId) (s : State) : Out := .next (runCmd s mb.val 0x0721 (.exact 0) false cmdPwTenantStatus)
/-- PW_GROUP_READ (R388). -/
def cmdPwGroupRead (s : State) (r : Req) : CmdOut :=
  let g := bitsOf (r.w 0) 4 0
  if r.scope ≠ none ∧ s.groupPart g ≠ r.scope then failWith s stNotPerm
  else .done s stOk (natLE 4 (s.active .pw (0x100 + 4 * g)).toNat ++ natLE 4 (s.active .pw (0x200 + 8 * g)).toNat ++
    natLE 4 (s.active .pw (0x204 + 8 * g)).toNat)
/-- PW_GROUP_READ. -/
def execPwGroupRead (mb : MbId) (s : State) : Out := .next (runCmd s mb.val 0x0722 (.exact 1) false cmdPwGroupRead)

end Sys2Proof.Machine
end

