-- ==== Sys2Proof/Machine/Invar.lean ====
section
/-! DEFINITION. Invar (R392 to R410): memory sampler tracking and retrains, rings and lasers, Solder
lanes, droop thresholds, and the freezes that Constantan's notices start. -/

namespace Sys2Proof.Machine

/-! ### Memory channels -/

/-- Is a die frozen (R407)? -/
def State.frozen (s : State) (d : Nat) : Bool := (s.die d).freezeUntil.isSome
/-- Count a move that a freeze holds. -/
def State.countHeld (s : State) : State := { s with inv := { s.inv with held := (s.inv.held + 1) % 65536 } }
/-- Channels of a die that work. -/
def State.dieChans (s : State) (d : Nat) : List Nat := (upTo 48).map (· + 48 * d) |>.filter (fun c => s.mem.chanOk.testBit c)
/-- Show the channel with the smallest margin of a die (PW_IV_MEM_DIEd). -/
def State.showWorst (s : State) (d : Nat) : State :=
  let best := (s.dieChans d).foldl (fun m c => match m with | none => some c | some b => if (s.chan c).margin < (s.chan b).margin then some c else some b) none
  match best with
  | none => s
  | some c => s.setDie d { s.die d with worstChan := c, worstMargin := min 255 (s.chan c).margin }
/-- Does Invar run on a channel, with MEM_TRACK (R392, R409)? -/
def State.chanRuns (s : State) (c : Nat) : Bool := s.power.cp && s.mem.trained && s.mem.chanOk.testBit c
/-- MEM_EYE_MEASURE (R393 to R395): the margin is formed; a centre one step or more away moves the sampler
one step toward it, or is held by a freeze; a low margin asks for a retrain. -/
def execMemEyeMeasure (ch : ChanId) (centre margin : Int) (s : State) : Out :=
  let c := ch.val
  let d := c / 48
  if !s.chanRuns c then .next s
  else
    let x := { s.chan c with margin := margin.toNat }
    let track := flag (s.reg .iv 0x000) 31
    let dir : Int := if x.phase < centre then 1 else -1
    let want := decide (centre ≠ x.phase) && track
    let low := decide (margin.toNat < s.rf .iv 0x000 15 8)
    let x1 := { x with waiting := if low ∧ track then some (x.waiting.getD s.tick) else none, waitOver := x.waitOver && low }
    let s1 := if !want then s.setChan c x1
      else if s.frozen d then
        (if x1.heldStep.isSome then s else s.countHeld).setChan c { x1 with heldStep := some dir }
      else if x1.stepTick = 0 ∨ x1.stepTick + 10000 ≤ s.tick then s.setChan c { x1 with phase := x1.phase + dir, stepTick := s.tick }
      else s.setChan c x1
    .next (s1.showWorst d)

/-- Device addresses of a service's image, weight regions, input region and state buffers (R396). -/
def State.svcAddrs (s : State) (v : Svc) : List Nat :=
  let reg := fun i => ((tabFind s.mem.regions i).map (·.base)).toList
  [v.image, addrOf v.state0, addrOf v.state1] ++ reg v.wregion ++ v.pubRegion.toList.flatMap reg ++
  v.pubVerify.toList.flatMap reg ++ (if v.inAddr.testBit 63 then [addrOf v.inAddr] else [])
/-- Does a channel serve a range that holds something of a service? -/
def State.svcChan (s : State) (v : Svc) (c : Nat) : Bool :=
  (s.svcAddrs v).any (fun a => ((s.rangeOf a).map (fun r => (rngChans s.mem.chanOk r.sets).contains c)).getD false)
/-- Is a retrain of a channel allowed now (R395, R396)? -/
def State.retrainOk (s : State) (c : Nat) : Bool :=
  let x := s.chan c
  let iv := s.reg .iv 0x000
  decide (x.margin < fld iv 15 8) && flag iv 31 &&
  (match x.retrainTick with | none => true | some t => decide (t + 100000000 ≤ s.tick)) &&
  (x.waitOver || decide (x.margin < fld iv 7 0) ||
    s.svcs.all (fun e => e.2.ph = .idle || !s.svcChan e.2 c))
/-- MEM_RETRAIN (R395, R397): at most one a second, not in a freeze; a margin that stays critical marks
the channel weak. The sampler's new phase is free (log 4). -/
def execMemRetrain (ch : ChanId) (margin : Nat) (s : State) : Out :=
  let c := ch.val
  let d := c / 48
  if !s.chanRuns c ∨ !s.retrainOk c then .next s
  else if s.frozen d then .next s.countHeld
  else
    let (n, s1) := s.draw
    let x := s1.chan c
    let weak := x.weak || decide (margin < s.rf .iv 0x000 7 0)
    let s2 := s1.setChan c { x with margin := margin, phase := Int.ofNat n - 32, retrainTick := some s.tick, waiting := none, waitOver := false, weak := weak, heldStep := none }
    .next ((s2.setDie d { s2.die d with retrains := ((s2.die d).retrains + 1) % 65536 }).showWorst d)
/-- RETRAIN_WAIT_EXPIRE (R396): 10 ms without a slot in which the services idle. -/
def execRetrainWaitExpire (ch : ChanId) (s : State) : Out :=
  let x := s.chan ch.val
  match x.waiting with
  | none => .next s
  | some t => if s.chanRuns ch.val ∧ t + 1000000 ≤ s.tick then .next (s.setChan ch.val { x with waitOver := true }) else .next s
/-- FREEZE_END (R407, R394): once every change on the die has switched and its rail has arrived, and the
tail is over; each held step is made, as one step. -/
def execFreezeEnd (die : DieId) (s : State) : Out :=
  let d := die.val
  match (s.die d).freezeUntil with
  | none => .next s
  | some t =>
    let open_ := (upTo 8).any (fun g =>
      match (s.grp (8 * d + g)).change with
      | none => false
      | some c => !c.switched || (s.grp (8 * d + g)).mv ≠ oppMv c.target)
    if s.tick < t ∨ open_ then .next s
    else
      let s1 := s.setDie d { s.die d with freezeUntil := none }
      let s2 := (upTo 8).foldl (fun st g => st.setGrp (8 * d + g) { st.grp (8 * d + g) with frozen := false }) s1
      .next ((s.dieChans d).foldl (fun st c =>
        match (st.chan c).heldStep with
        | none => st
        | some k => st.setChan c { st.chan c with phase := (st.chan c).phase + k, heldStep := none, stepTick := s.tick }) s2)

/-! ### Rings and lasers -/

/-- Is a port's optical engine powered (R385)? -/
def State.optOn (s : State) (p : Nat) : Bool := s.power.cp && s.power.pdOpt.testBit p
/-- RING_LOCK_LOSS (R399). -/
def execRingLockLoss (port : PortId) (lane : Fin 8) (s : State) : Out :=
  let x := s.port port.val
  if s.optOn port.val ∧ (tabGet {} x.rings lane.val).locked then
    .next (s.setPort port.val { x with rings := tabSet x.rings lane.val { locked := false } })
  else .next s
/-- RING_RELOCK (R399): counted in RELOCKS. -/
def execRingRelock (port : PortId) (lane : Fin 8) (s : State) : Out :=
  let x := s.port port.val
  let r := tabGet {} x.rings lane.val
  if s.optOn port.val ∧ !r.locked then
    .next (s.setPort port.val { x with rings := tabSet x.rings lane.val { r with locked := true }, relocks := (x.relocks + 1) % 65536 })
  else .next s
/-- LASER_TRIM (R400): at most once per 1 ms, by at most 0.5 per cent. -/
def execLaserTrim (bay : BayId) (out : Fin 16) (step : Int) (s : State) : Out :=
  let b := s.bay bay.val
  let last := tabFind b.trimTick out.val
  let early : Bool := match last with | none => false | some t => decide (s.tick < t + 100000)
  if !s.power.cp ∨ !b.lit ∨ early = true ∨ 5 < step.natAbs then .next s
  else .next (s.setBay bay.val { b with bias := tabSet b.bias out.val (tabGet 0 b.bias out.val + step), trimTick := tabSet b.trimTick out.val s.tick })
/-- Note the smallest headroom of a port, kept for 1 s (R398). -/
def State.noteHeadroom (s : State) (p : Nat) (l : List Nat) : State :=
  let x := s.port p
  s.setPort p { x with headroom := (s.tick, minOf l) :: x.headroom.filter (fun e => s.tick < e.1 + 100000000) }
/-- SLEW_BUDGET_UPDATE (R398, R405): the headrooms of the 16 rings of the die's two ports. -/
def execSlewBudgetUpdate (die : DieId) (headroom : List Nat) (s : State) : Out :=
  let d := die.val
  if !s.power.cp then .next s
  else
    let s1 := (s.noteHeadroom (2 * d) (headroom.take 8)).noteHeadroom (2 * d + 1) (headroom.drop 8)
    let x := s1.die d
    let b := s.rf .iv (0x010 + 4 * d) 7 0
    let good := if headroom.all (fun h => 15 ≤ h) then some (x.goodTick.getD s.tick) else none
    let low := if headroom.any (fun h => decide (h < 10)) then true
      else match good with | some t => x.lowHeadroom && decide (s.tick < t + 1000000) | none => x.lowHeadroom
    .next (s1.setDie d { x with lowHeadroom := low, goodTick := good, effective := if low then b / 2 else b })

/-! ### Solder links -/

/-- The two dies that a bridge joins (R409). -/
def bridgeDies (b : Nat) : Nat × Nat := [(0, 1), (1, 3), (3, 2), (2, 0)].getD b (0, 1)
/-- Lanes of a module that are not retired, ascending: 64 carry traffic, the next is the shadow (R401). -/
def goodLanes (m : Module) : List Nat := (upTo 68).filter (fun l => !m.retired.contains l)
/-- The lanes that carry traffic. -/
def carriers (m : Module) : List Nat := (goodLanes m).take 64
/-- Has the module an unused spare? -/
def hasShadow (m : Module) : Bool := 64 < (goodLanes m).length
/-- Change a module of a bridge. -/
def State.setModule (s : State) (b m : Nat) (x : Module) : State :=
  let br := s.bridge b
  s.setBridge b { br with modules := tabSet br.modules m x }
/-- Module m of bridge b. -/
def State.module (s : State) (b m : Nat) : Module := tabGet {} (s.bridge b).modules m
/-- SOLDER_DEGRADED (R410, log 20): bridge, module, unused spares, HALF and OUT. -/
def State.solderEvent (s : State) (b m : Nat) : State :=
  let br := s.bridge b
  s.raise 0x2003 [] true 0xFF (natLE 1 b ++ natLE 1 m ++ natLE 1 ((goodLanes (s.module b m)).length - 64) ++
    natLE 1 (flagAt br.half 0 + flagAt br.out 1))
/-- Retire a lane (R402): its shadow carries its traffic, the defect list names it, the event is raised. -/
def State.retireLane (s : State) (b m l : Nat) : State :=
  let x := s.module b m
  let s1 := s.setModule b m { x with retired := x.retired ++ [l], recal := none, nextLane := if x.recal = some l then l + 1 else x.nextLane }
  (s1.addDefect (mkDefect 3 5 s.bu.startSeq (natLE 1 b ++ natLE 1 m ++ natLE 1 l))).1.solderEvent b m
/-- A lane fails in a module with no spare (R403): half width, or out of service. -/
def State.failLane (s : State) (b m l : Nat) : State :=
  let x := s.module b m
  let br := (s.setModule b m { x with retired := x.retired ++ [l], recal := none }).bridge b
  let s1 := s.setBridge b (if br.half then { br with out := true } else { br with half := true })
  (s1.addDefect (mkDefect 3 5 s.bu.startSeq (natLE 1 b ++ natLE 1 m ++ natLE 1 l))).1.solderEvent b m
/-- LANE_RECAL (R401): in ascending lane order, from lane 0 again after the last; held in a freeze of a die
that the bridge touches. -/
def execLaneRecal (bridge : BridgeId) (module : Fin 12) (s : State) : Out :=
  let b := bridge.val
  let x := s.module b module.val
  let ds := bridgeDies b
  if !s.power.cp ∨ !flag (s.reg .iv 0x000) 30 ∨ (s.bridge b).out ∨ !hasShadow x ∨ x.recal.isSome then .next s
  else if s.frozen ds.1 ∨ s.frozen ds.2 then .next s.countHeld
  else
    let l := ((carriers x).find? (fun l => decide (x.nextLane ≤ l))).getD ((carriers x).headD 0)
    .next (s.setModule b module.val { x with recal := some l })
/-- LANE_RECAL_DONE (R401, R402): swapped back and counted, or retired. -/
def execLaneRecalDone (bridge : BridgeId) (module : Fin 12) (ok : Bool) (s : State) : Out :=
  let b := bridge.val
  let x := s.module b module.val
  match x.recal with
  | none => .next s
  | some l =>
    if ok then
      let s1 := s.setModule b module.val { x with recal := none, nextLane := l + 1 }
      .next (s1.setBridge b { s1.bridge b with swaps := ((s1.bridge b).swaps + 1) % 65536 })
    else .next (s.retireLane b module.val l)
/-- LANE_RETIRE (R402): more than 16 retries in 1 ms. A module without a spare falls under R403. -/
def execLaneRetire (bridge : BridgeId) (module : Fin 12) (lane : Fin 68) (s : State) : Out :=
  let b := bridge.val
  let x := s.module b module.val
  if !s.power.cp ∨ (s.bridge b).out ∨ !(carriers x).contains lane.val then .next s
  else .next (if hasShadow x then s.retireLane b module.val lane.val else s.failLane b module.val lane.val)
/-- LANE_FAIL (R403): a lane of a module without spares; where a spare is left the lane is retired. -/
def execLaneFail (bridge : BridgeId) (module : Fin 12) (lane : Fin 68) (s : State) : Out :=
  let b := bridge.val
  let x := s.module b module.val
  if !s.power.cp ∨ (s.bridge b).out ∨ !(carriers x).contains lane.val then .next s
  else .next (if hasShadow x then s.retireLane b module.val lane.val else s.failLane b module.val lane.val)

/-! ### Droop thresholds -/

/-- DROOP_RECAL (R404): the thresholds of the present operating point; `failed` detectors keep theirs. -/
def execDroopRecal (group : GroupId) (failed : Nat) (s : State) : Out :=
  let g := group.val
  let x := s.grp g
  if !s.grpOn g then .next s
  else if x.frozen then .next s.countHeld
  else
    let s1 := s.setGrp g { x with droopTick := tabSet x.droopTick x.opp s.tick }
    .next { s1 with inv := { s1.inv with droopRecals := (s1.inv.droopRecals + 1) % 65536, droopFailed := (s1.inv.droopFailed + failed) % 65536 } }

end Sys2Proof.Machine
end

