-- ==== Sys2Proof/Machine/Module.lean ====
section
/-! DEFINITION. The module's pins and its always-on domain (R276, R277, R313, R384, R447, R479 to R494):
the 48 V input, PERST_N, trips, and the SMBus endpoint. -/

namespace Sys2Proof.Machine

/-! ### What an event loses (R276) -/

/-- The gaps that ranges, sorted by base, leave in [lo, hi). -/
def gapsOf : List (Nat × Nat) → Nat → Nat → List (Nat × Nat)
  | [], lo, hi => if lo < hi then [(lo, hi - lo)] else []
  | (b, n) :: t, lo, hi => (if lo < b then [(lo, b - lo)] else []) ++ gapsOf t (max lo (b + n)) hi
/-- Device memory after a loss: everything outside the kept ranges is undefined. -/
def loseMem (m : Mem) (keep : List (Nat × Nat)) (gen : Nat) : Mem :=
  if keep = [] then { cells := [], undef := [{ base := 0, len := dpaEnd, gen := gen }] }
  else (gapsOf (sortBy (·.1) keep) 0 dpaEnd).foldl (fun d g => d.scramble g.1 g.2 gen) m
/-- Everything that runs on the switched domains and the hub is gone; the non-volatile store and list, the
laser modules, the pins and, across a warm reset, the retained regions stay (R276, R277). -/
def State.lose (s : State) (warm : Bool) : State :=
  let keep := if warm then s.mem.regions.map (fun e => (e.2.base, e.2.len)) else []
  let regions := if warm then tabMap (fun _ (r : Region) => { r with part := none, orphan := true, writers := 0 }) s.mem.regions else []
  let inKeep := fun (l : Nat) => keep.any (fun k => decide (k.1 ≤ l * 64) && decide (l * 64 < k.1 + k.2))
  let r := State.reset
  { r with pending := s.pending, tick := s.tick, free := s.free, hostMem := s.hostMem, busOut := s.busOut, devMem := loseMem s.devMem keep s.mem.gen, localMem := { cells := [], undef := [{ base := 0, len := 2 ^ 31, gen := s.mem.gen + 1 }] }, era := s.mem.gen + 2, bu := { startSeq := s.bu.startSeq, session := s.bu.session, tripDie := s.bu.tripDie, tripMem := s.bu.tripMem, tripSource := s.bu.tripSource, tripTemp := s.bu.tripTemp, warm := warm }, defects := if warm then s.defects else { s.defects with overflow := [], loose := [] }, sec := { keys := s.sec.keys, enrolSeq := s.sec.enrolSeq, keyGen := s.sec.keyGen, ephemeral := s.sec.ephemeral }, mem := { gen := s.mem.gen + 3, regions := regions, chanPrev := if warm then s.mem.chanOk else 0, badLines := s.mem.badLines.filter inKeep }, store := { slots := tabMap (fun _ (w : WsSlot) => { w with granted := 0 }) s.store.slots, bytes := s.store.bytes, badLines := s.store.badLines, wear := s.store.wear }, link := { msix := s.link.msix }, power := { s.power with hub := false, cp := false, pdG := 0, pdFab := 0, pdPhy := 0, pdOpt := 0, linkOnly := false }, bays := tabMap (fun _ (b : Bay) => { present := b.present, latched := b.latched, genuine := b.genuine, faulted := b.faulted : Bay }) s.bays }

/-! ### The 48 V input and the pins -/

/-- The always-on domain loses power as well. -/
def State.dark (s : State) (ov : Bool) : State :=
  let s1 := s.lose false
  { s1 with power := { v48 := false, mv10 := 0, perst := s1.power.perst, pwrbrk := s1.power.pwrbrk, inlet := s1.power.inlet, overVolt := ov } }
/-- POWER_ON (R489): 42 V or above for 10 ms, and no more than 58 V after an overvoltage. The always-on
domain starts, its period timer at 0 (R244), with PERST_N asserted. -/
def execPowerOn (mv10 : Nat) (s : State) : Out :=
  if s.power.v48 ∨ mv10 < 4200 ∨ 6000 < mv10 ∨ (s.power.overVolt ∧ 5800 < mv10) then .next s
  else
    let s1 := { s with tick := 0, power := { v48 := true, mv10 := mv10, perst := true, pwrbrk := s.power.pwrbrk, inlet := s.power.inlet } }
    .next (if 5800 < mv10 then s1.alertOn 3 else s1)
/-- POWER_LOSS (R489): below 40 V for more than 50 us. -/
def execPowerLoss (s : State) : Out := .next (if s.power.v48 then s.dark false else s)
/-- OVERVOLTAGE (R489): above 60 V for more than 1 ms. -/
def execOvervoltage (s : State) : Out := .next (if s.power.v48 then s.dark true else s)

/-- A host-link reset clears the configuration space, the BAR settings and the MSI-X table (R313). -/
def State.linkReset (s : State) : State :=
  let s1 := if s.link.up then s.hostLost else s
  { s1 with link := { s1.link with msixTab := [], requester := none, bar4Log2 := 36 }, power := { s1.power with perst := true, linkOnly := true } }
/-- PERST_ASSERT (R313, R450): only the link while an autonomous job or a registered service exists, else a
warm reset. The pin is ignored without 48 V and after a trip (R482). -/
def execPerstAssert (s : State) : Out :=
  if !s.power.v48 ∨ s.power.tripped ∨ s.power.perst then .next s
  else if s.autoJobs ≠ [] ∨ s.svcs ≠ [] then .next s.linkReset
  else
    let s1 := s.lose true
    .next { s1 with power := { s1.power with perst := true } }
/-- PERST_RELEASE (R483): the release that ends a power-on or warm reset samples the straps; G1MODE_N low
sets COMPAT to 0xF (R56). -/
def execPerstRelease (slotId : Fin 8) (g1ModeN : Bool) (s : State) : Out :=
  if !s.power.v48 ∨ s.power.tripped ∨ !s.power.perst then .next s
  else if s.power.linkOnly then .next { s with power := { s.power with perst := false, linkOnly := false } }
  else .next { s with power := { s.power with perst := false }, bu := { s.bu with slotId := slotId.val, g1mode := !g1ModeN }, compat := if g1ModeN then 0 else 0xF }
/-- TRIP_POWER_OFF (R384): every switched domain and the hub lose power; the always-on domain keeps
THERM_N asserted and BAR0 readable (log 25). -/
def execTripPowerOff (s : State) : Out :=
  if !s.power.tripped ∨ (!s.power.hub ∧ s.power.pdFab = 0) then .next s
  else
    let s1 := s.lose false
    .next { s1 with link := { up := s.link.up, cxl := s.link.cxl, width := s.link.width, rate := s.link.rate, requester := s.link.requester, bar4Log2 := s.link.bar4Log2, msix := s.link.msix }, bu := { s1.bu with result := s.bu.result, step := s.bu.step, next := 0, progress := s.bu.progress, cause := s.bu.cause, detail := s.bu.detail, slotId := s.bu.slotId, g1mode := s.bu.g1mode } }
/-- INLET_ABOVE_35_C (R494): in units of 0.125 degrees. -/
def execInletAbove35C (temp : Nat) (s : State) : Out :=
  if !s.power.v48 then .next s
  else
    let s1 := { s with power := { s.power with inlet := temp } }
    .next (if 280 < temp then s1.alertOn 2 else s1)

/-! ### The SMBus endpoint (R486, R487) -/

/-- Answer a read: nothing answers without 48 V. -/
def State.smb (s : State) (bs : List Byte) : State := if s.power.v48 then { s with busOut := bs } else { s with busOut := [] }
/-- The part number, padded with spaces. -/
def partNumber : List Byte := ([0x54, 0x53, 0x47, 0x32, 0x2D, 0x4D, 0x38, 0x36, 0x34, 0x2D, 0x41, 0x31] ++ List.replicate 4 0x20).map (BitVec.ofNat 8)
/-- IDENT. -/
def execSmbIdent (s : State) : Out := .next (s.smb (partNumber ++ serialBytes))
/-- The STATUS byte. -/
def State.smbStatusByte (s : State) : Nat :=
  flagAt s.power.therm 0 + flagAt s.power.pwrbrk 1 + flagAt (s.power.mv10 < 4200 || 5800 < s.power.mv10) 2 +
  flagAt ((upTo 4).any (fun k => (s.bay k).latched && !(s.bay k).lit)) 3 +
  flagAt (s.con.warned ≠ [] || s.con.memThrottle ≠ []) 4
/-- STATUS. -/
def execSmbStatus (s : State) : Out := .next (s.smb (natLE 1 s.smbStatusByte))
/-- VIN. -/
def execSmbVin (s : State) : Out := .next (s.smb (natLE 2 s.power.mv10))
/-- PIN. -/
def execSmbPin (s : State) : Out := .next (s.smb (natLE 2 s.con.avgW))
/-- Hottest die junction; while the dies are off the trip temperature, or 0. -/
def State.tjMax (s : State) : Nat :=
  if s.power.pdFab ≠ 0 then listMax ((upTo 4).map (fun d => (s.die d).tempHot))
  else if s.bu.tripDie ∨ s.bu.tripMem then s.bu.tripTemp else 0
/-- TJ_MAX. -/
def execSmbTjMax (s : State) : Out := .next (s.smb (natLE 2 s.tjMax))
/-- INLET. -/
def execSmbInlet (s : State) : Out := .next (s.smb (natLE 2 s.power.inlet))
/-- ALERT_CAUSE: read, then cleared; ALERT_N stays until the alert response. -/
def execSmbAlertCause (s : State) : Out :=
  let s1 := s.smb (natLE 1 s.power.alertCause)
  .next (if s.power.v48 then { s1 with power := { s1.power with alertCause := 0 } } else s1)
/-- ALERT_RESPONSE: while ALERT_N is asserted the endpoint answers its own address and releases it. -/
def execSmbAlertResponse (s : State) : Out :=
  if s.power.v48 ∧ s.power.alert then
    .next { s.smb (natLE 1 (0x58 + s.bu.slotId)) with power := { s.power with alert := false } }
  else .next { s with busOut := [] }
/-- A write or a reserved command is NACKed. -/
def execSmbWrite (_cmd : Byte) (s : State) : Out := .next { s with busOut := [] }

end Sys2Proof.Machine
end

