-- ==== Sys2Proof/Machine/Operands.lean ====
section
/-! DEFINITION. The operand forms of tasks (R125, R126, R496): address words, access by a task to a local
store or to device memory with its faults (R129, R145), strided planes of packed elements, and the fields
of each descriptor body. -/

namespace Sys2Proof.Machine

/-! ### Address words and accesses -/

/-- Who accesses: the core, the HOME whose local store SPACE 1 names, the partition, whether the job is
autonomous (R298), and the layer buffer that the task's addresses move from (R157). -/
structure Ctx where
  core : Nat
  home : Nat
  part : Nat
  auto : Bool
  move : Option (Nat × Nat × Int)
  /-- the addresses of the five relative bases 0xFA to 0xFE of a service's period (R237) -/
  bases : List Nat := []
deriving DecidableEq, Repr
/-- Task status codes (R144). -/
abbrev tsAddress : Nat := 1
/-- MEMORY_ERROR -/
abbrev tsMemory : Nat := 2
/-- PROGRAM_FAULT -/
abbrev tsProgram : Nat := 3
/-- HANG -/
abbrev tsHang : Nat := 4
/-- What a task's work answers: a value, or the state at its failure with the TSTATUS. -/
abbrev TRes (α : Type) := Except (State × Nat) α

/-- The space and address of an address word: SPACE in bit 63, the address in bits 47:0 (R125). In a
service a relative word takes its base (R237); an address in the moved buffer is read from the other buffer
(R157). -/
def ctxAddr (x : Ctx) (w : Nat) : Bool × Nat :=
  let a0 := addrOf w
  let a := if 0xFA ≤ a0 / 2 ^ 40 then (match x.bases[a0 / 2 ^ 40 - 0xFA]? with | some b => b + a0 % 2 ^ 40 | none => a0) else a0
  match x.move with
  | none => (w.testBit 63, a)
  | some (b, n, d) =>
    if !w.testBit 63 ∧ b ≤ a ∧ a < b + n then (false, ((a : Int) + d).toNat) else (w.testBit 63, a)
/-- An address field of bits 47:6 with its own SPACE bit, as an address word. -/
def narrowWord (space : Bool) (f : Nat) : Nat := flagAt space 63 + f % 2 ^ 42 * 64
/-- First address of a local store that tasks cannot address (R115). -/
def stageBase : Nat := 0xE0000
/-- Address of a core's local store in `State.localMem`. -/
def localAt (home a : Nat) : Nat := home * 2 ^ 20 + a

/-- May a task address a span of device memory? -/
def State.tSpan (s : State) (x : Ctx) (a n : Nat) (write : Bool) : TRes Unit :=
  if x.auto ∧ s.hostBias a n then .error ({ s with link := { s.link with afault := satAdd 0xFF s.link.afault 1 } }, tsAddress)
  else match s.span (some x.part) a n with
    | .ok => .ok ()
    | .aperture => if !write && s.apertureOk x.part a n then .ok () else .error (s, tsAddress)
    | .foreign => .error (s, tsAddress)
    | .hole => .error (s.holeHit, tsAddress)
/-- A task reads `n` bytes. -/
def State.tRead (s : State) (x : Ctx) (space : Bool) (a n : Nat) : TRes (List Byte) :=
  if n = 0 then .ok []
  else if space then (if a + n ≤ stageBase then .ok (s.localMem.readN (localAt x.home a) n) else .error (s, tsAddress))
  else match s.tSpan x a n false with
    | .error e => .error e
    | .ok () => match s.devRead a n with | none => .error (s.devReadBad a n, tsMemory) | some bs => .ok bs
/-- A task writes bytes. -/
def State.tWrite (s : State) (x : Ctx) (space : Bool) (a : Nat) (bs : List Byte) : TRes State :=
  if bs = [] then .ok s
  else if space then
    (if a + bs.length ≤ stageBase then .ok { s with localMem := s.localMem.writeL (localAt x.home a) bs } else .error (s, tsAddress))
  else match s.tSpan x a bs.length true with
    | .error e => .error e
    | .ok () => .ok (s.devWrite a bs)
/-- Read at an address word plus an offset. -/
def State.wRead (s : State) (x : Ctx) (w off n : Nat) : TRes (List Byte) :=
  let a := ctxAddr x w
  s.tRead x a.1 (a.2 + off) n
/-- Write at an address word plus an offset. -/
def State.wWrite (s : State) (x : Ctx) (w off : Nat) (bs : List Byte) : TRes State :=
  let a := ctxAddr x w
  s.tWrite x a.1 (a.2 + off) bs

/-- Little-endian 64-bit words of a block. -/
def words64 (bs : List Byte) : Nat → List Nat
  | 0 => []
  | n + 1 => leAt bs 0 8 :: words64 (bs.drop 8) n
/-- Element i of width w of a packed row (R63). -/
def elemAt (row w i : Nat) : Nat := bitsOf row (w * i + w - 1) (w * i)
/-- Bytes of packed elements of width w. -/
def packElems (w : Nat) (es : List Nat) : List Byte :=
  natLE ((es.length * w + 7) / 8) (es.zipIdx.foldl (fun a e => a + e.1 % 2 ^ w * 2 ^ (w * e.2)) 0)
/-- Part of a plane: its address word, the offset in it, and a length. -/
abbrev Chunk := Nat × Nat × Nat
/-- Read chunks one after another. -/
def State.readChunks (s : State) (x : Ctx) : List Chunk → TRes (List (List Byte))
  | [] => .ok []
  | (w, off, n) :: t =>
    match s.wRead x w off n with
    | .error e => .error e
    | .ok bs => match s.readChunks x t with | .error e => .error e | .ok r => .ok (bs :: r)
/-- Write blocks one after another: address word, offset, bytes. -/
def State.writeChunks (s : State) (x : Ctx) : List (Nat × Nat × List Byte) → TRes State
  | [] => .ok s
  | (w, off, bs) :: t => match s.wWrite x w off bs with | .error e => .error e | .ok s1 => s1.writeChunks x t

/-! ### GEMM bodies (R85 to R88, R126) -/

/-- The fields of a GEMM, GEMM_T or GEMM_WG body. -/
structure Gemm where
  kind : Nat
  record : Nat
  accBase : Nat
  accAdd : Bool
  shape : Nat
  rows : Nat
  segTab : Nat
  rank : Nat
  segCount : Nat
  drain : Bool
  act : Nat
  outFmt : Nat
  fmtS : Nat
  fmtV : Nat
  cols : Nat
  tile : Nat
  version : Nat
deriving DecidableEq, Repr
/-- Decode the body; `ver` is the version the task has bound. -/
def Task.gemm (t : Task) : Gemm :=
  let w5 := t.word 5
  let w6 := t.word 6
  let w7 := t.word 7
  { kind := t.kind, record := narrowWord (w5.testBit 63) (bitsOf w5 41 0), accBase := bitsOf w5 62 54, accAdd := w5.testBit 53, shape := bitsOf w5 52 51, rows := bitsOf w5 50 42 + 1, segTab := narrowWord (w6.testBit 63) (bitsOf w6 41 0), rank := bitsOf w6 56 48, segCount := bitsOf w6 47 42, drain := w7.testBit 32, act := bitsOf w7 31 28, outFmt := bitsOf w7 27 24, fmtS := bitsOf w7 23 20, fmtV := bitsOf w7 19 16, cols := bitsOf w7 15 6 + 1, tile := bitsOf w7 5 0 + 1, version := t.ver }
/-- BF16 or FP16 operands: four cells form one (R86). -/
def Gemm.quad (g : Gemm) : Bool := family g.fmtV = 3 || family g.fmtV = 4
/-- MX operands. -/
def Gemm.mx (g : Gemm) : Bool := family g.fmtV = 0
/-- Bands B (R85). -/
def Gemm.bands (g : Gemm) : Nat := 2 ^ g.shape
/-- Logical depth H, halved for BF16 and FP16 (R86). -/
def Gemm.depth (g : Gemm) : Nat := 64 / 2 ^ g.shape / (if g.quad then 2 else 1)
/-- Logical columns of a band. -/
def Gemm.bandCols (g : Gemm) : Nat := if g.quad then 40 else 80
/-- Logical width C. -/
def Gemm.width (g : Gemm) : Nat := g.bandCols * g.bands
/-- The transposed dataflow. -/
def Gemm.trans (g : Gemm) : Bool := g.kind = 1
/-- Tile rows that the task uses (R101). -/
def Gemm.tileRows (g : Gemm) : Nat := if g.trans then g.rows else g.rows * g.bands
/-- Entries of a vector's reduction in one base pass. -/
def Gemm.reduction (g : Gemm) : Nat := if g.trans then g.cols else g.tile
/-- Output columns (R496). -/
def Gemm.outCols (g : Gemm) : Nat := if g.trans then g.tile else g.cols
/-- The body breaks none of the limits of R87, R88 and R126. -/
def Gemm.ok (g : Gemm) (t : Task) : Bool :=
  bitsOf (t.word 6) 62 57 = 0 && bitsOf (t.word 7) 63 33 = 0 && g.act ≤ 0xA && g.outFmt ≤ 0xC &&
  (g.outFmt ≠ 0xC || family g.fmtV = 2) && g.fmtS ≤ 0xA && g.fmtV ≤ 0xA && family g.fmtS = family g.fmtV &&
  g.tile ≤ g.depth && g.cols ≤ g.width && g.accBase + g.tileRows ≤ 512 && g.rank ≤ 256 && g.segCount ≤ 32 &&
  (decide (g.rank = 0) == decide (g.segCount = 0)) && (g.kind = 0 || (g.rank = 0 && g.segCount = 0))
/-- Reserved bits of an address word are 0. -/
def wordOk (w : Nat) : Bool := bitsOf w 62 48 = 0
/-- Low 32 bits as an FP32 word. -/
def lo32 (w : Nat) : Word := BitVec.ofNat 32 w
/-- High 32 bits as an FP32 word. -/
def hi32 (w : Nat) : Word := BitVec.ofNat 32 (w / 2 ^ 32)
/-- Limits of the operand record (R64, R109, R126). -/
def recOk (g : Gemm) (r : List Nat) : Bool :=
  ([0, 1, 2, 3, 4, 5, 6, 7, 14, 15].all (fun i => wordOk (r.getD i 0))) && r.getD 13 0 < 8 &&
  (!g.mx || ((r.getD 13 0).testBit 0 == g.trans && !(r.getD 13 0).testBit 1)) &&
  (decide (r.getD 14 0 = 0) == decide (g.segCount = 0))
/-- Factors of the record that the task uses are finite (R76), judged at load. -/
def recFinite (g : Gemm) (r : List Nat) : Bool :=
  let fin := fun (w : Word) => fvFinite (of32 w)
  (!(g.outFmt = 6 || g.outFmt = 7 || g.outFmt = 8) || fin (lo32 (r.getD 12 0))) &&
  (family g.fmtV ≠ 1 || (fin (lo32 (r.getD 11 0)) && fin (hi32 (r.getD 11 0)))) &&
  (!(g.act = 2 || g.act = 6) || fin (hi32 (r.getD 12 0)))
/-- A segment: first row, rows, element and scale address words of U. -/
structure Seg where
  first : Nat
  count : Nat
  elem : Nat
  scale : Nat
deriving DecidableEq, Repr
/-- Segments of a table. -/
def segsOf (n : Nat) (bs : List Byte) : List Seg :=
  (upTo n).map (fun i => ⟨leAt bs (32 * i) 8 % 512, bitsOf (leAt bs (32 * i) 8) 18 9, leAt bs (32 * i + 8) 8, leAt bs (32 * i + 16) 8⟩)
/-- Ascending, disjoint, in range (R108), from a first free row. -/
def segsOrdered (rows : Nat) : List Seg → Nat → Bool
  | [], _ => true
  | g :: t, lo => lo ≤ g.first && 1 ≤ g.count && g.first + g.count ≤ rows && segsOrdered rows t (g.first + g.count)
/-- The rules of a segment table, with its reserved bits. -/
def segsOk (g : Gemm) (bs : List Byte) : Bool :=
  segsOrdered g.rows (segsOf g.segCount bs) 0 &&
  (upTo g.segCount).all (fun i => leAt bs (32 * i) 8 < 2 ^ 29 && leAt bs (32 * i + 24) 8 = 0 &&
    wordOk (leAt bs (32 * i + 8) 8) && wordOk (leAt bs (32 * i + 16) 8))
/-- Element width of a format code. -/
def codeWidth (c : Nat) : Nat := if c = 0xC then 32 else fmtWidth (fmtOf c)

/-- The plane parts that streamed vectors occupy (R496): vectors lo to lo + n - 1, `k` elements each. -/
def streamChunks (g : Gemm) (r : List Nat) (e sc lo n k : Nat) : List Chunk × List Chunk :=
  let w := codeWidth g.fmtV
  let str := r.getD 8 0 % 2 ^ 32
  let sst := r.getD 8 0 / 2 ^ 32
  let len := if g.mx then ceilDiv k 32 * (4 * w) else (k * w + 7) / 8
  ((upTo n).map (fun j => (e, (lo + j) * str, len)), if g.mx then (upTo n).map (fun j => (sc, (lo + j) * sst, ceilDiv k 32)) else [])
/-- The plane parts of a stationary operand with `k` reduction indices and `c` columns (R496). -/
def tileChunks (g : Gemm) (r : List Nat) (e sc k c : Nat) : List Chunk × List Chunk :=
  let w := codeWidth g.fmtS
  let str := r.getD 9 0 % 2 ^ 32
  let sst := r.getD 9 0 / 2 ^ 32
  if g.mx then ((upTo (ceilDiv k 32)).map (fun b => (e, b * str, c * (4 * w))), (upTo (ceilDiv k 32)).map (fun b => (sc, b * sst, c)))
  else ((upTo k).map (fun i => (e, i * str, c * w / 8)), [])
/-- The plane parts of the output: elements, then scale bytes (R496). -/
def outChunks (g : Gemm) (r : List Nat) : List Chunk × List Chunk :=
  let w := codeWidth g.outFmt
  let str := r.getD 10 0 % 2 ^ 32
  let sst := r.getD 10 0 / 2 ^ 32
  let e := r.getD 4 0
  let sc := r.getD 5 0
  let n := g.outCols
  if isMx g.outFmt then
    (if (r.getD 13 0).testBit 2 then
      ((upTo (ceilDiv g.rows 32)).map (fun b => (e, b * str, n * (4 * w))), (upTo (ceilDiv g.rows 32)).map (fun b => (sc, b * sst, n)))
    else ((upTo g.rows).map (fun j => (e, j * str, ceilDiv n 32 * (4 * w))), (upTo g.rows).map (fun j => (sc, j * sst, ceilDiv n 32))))
  else ((upTo g.rows).map (fun j => (e, j * str, n * w / 8)), [])
/-- Every plane part that a GEMM task reads. -/
def gemmReads (g : Gemm) (r : List Nat) (segs : List Seg) : List Chunk :=
  let v := streamChunks g r (r.getD 0 0) (r.getD 1 0) 0 g.rows g.reduction
  let t := tileChunks g r (r.getD 2 0) (r.getD 3 0) g.tile g.cols
  let base := if addrOf (r.getD 2 0) = 0 then [] else v.1 ++ v.2 ++ t.1 ++ t.2
  let sg := segs.flatMap (fun sg =>
    let h := streamChunks g r (r.getD 14 0) (r.getD 15 0) sg.first sg.count g.rank
    let u := tileChunks g r sg.elem sg.scale g.rank g.cols
    h.1 ++ h.2 ++ u.1 ++ u.2)
  base ++ sg ++ (if g.drain ∧ addrOf (r.getD 6 0) ≠ 0 then [(r.getD 6 0, 0, 4 * g.outCols)] else []) ++
    (if g.drain ∧ addrOf (r.getD 7 0) ≠ 0 then [(r.getD 7 0, 0, 4)] else [])
/-- Every plane part that a GEMM task writes. -/
def gemmWrites (g : Gemm) (r : List Nat) : List Chunk :=
  if !g.drain then []
  else (outChunks g r).1 ++ (outChunks g r).2 ++ (if addrOf (r.getD 7 0) ≠ 0 then [(r.getD 7 0, 0, 4)] else [])
/-- The address words that a record and its segments hold. -/
def gemmWords (r : List Nat) (segs : List Seg) : List Nat :=
  [0, 1, 2, 3, 4, 5, 6, 7, 14, 15].map (fun i => r.getD i 0) ++ segs.flatMap (fun g => [g.elem, g.scale])

/-! ### Other bodies (R127, R128) -/

/-- The fields of a VEC body. -/
structure VecBody where
  prog : Nat
  args : Nat
  len : Nat
  iter : Nat
  accBase : Nat
  accRows : Nat
deriving DecidableEq, Repr
/-- Decode a VEC body. -/
def Task.vecBody (t : Task) : VecBody :=
  let w := t.word 7
  { prog := t.word 5, args := t.word 6, len := bitsOf w 11 0, iter := bitsOf w 27 12 + 1, accBase := bitsOf w 36 28, accRows := bitsOf w 46 37 }
/-- Limits of a VEC body. -/
def VecBody.ok (b : VecBody) (t : Task) : Bool :=
  wordOk b.prog && wordOk b.args && addrOf b.prog % 8 = 0 && 1 ≤ b.len && b.accRows ≤ 512 &&
  b.accBase + b.accRows ≤ 512 && bitsOf (t.word 7) 63 47 = 0
/-- The fields of a LOAD, STORE or GATHER body. -/
structure Move where
  dev : Nat
  loc : Nat
  len : Nat
  index : Nat
  count : Nat
  log2 : Nat
deriving DecidableEq, Repr
/-- Decode the body. -/
def Task.moveBody (t : Task) : Move :=
  { dev := t.word 5, loc := bitsOf (t.word 6) 19 0, len := bitsOf (t.word 6) 39 20, index := bitsOf (t.word 7) 19 0, count := bitsOf (t.word 7) 35 20, log2 := bitsOf (t.word 7) 39 36 }
/-- Limits of the body; GATHER also has an index list. -/
def Move.ok (m : Move) (t : Task) : Bool :=
  wordOk m.dev && !m.dev.testBit 63 && m.loc % 64 = 0 && m.len % 64 = 0 && 64 ≤ m.len && m.len ≤ 917504 &&
  bitsOf (t.word 6) 63 40 = 0 && m.loc + m.len ≤ stageBase &&
  (if t.kind = 6 then m.index % 64 = 0 && 1 ≤ m.count && 6 ≤ m.log2 && m.log2 ≤ 14 && m.len = m.count * 2 ^ m.log2 &&
      bitsOf (t.word 7) 63 40 = 0 && m.index + 4 * m.count ≤ stageBase
   else t.word 7 = 0)

end Sys2Proof.Machine
end

