-- ==== Sys2Proof/Machine/Flags.lean ====
section
/-! DEFINITION. The status words of a task (R79) and the counts they gather, with the amax merge (R78). -/

namespace Sys2Proof.Machine

/-- Count a converted element: clamped, and non-finite. -/
def NumStat.elem (n : NumStat) (clamped nonfin : Bool) : NumStat :=
  { n with qsat := n.qsat + (if clamped then 1 else 0), nonfin := n.nonfin + (if nonfin then 1 else 0) }
/-- OR in the flags of a drained row (R72). -/
def NumStat.row (n : NumStat) (flags : Nat) : NumStat :=
  { n with satSeen := n.satSeen || flags.testBit 0, nonfinSeen := n.nonfinSeen || flags.testBit 1 }
/-- NUMSTAT0. -/
def NumStat.stat0 (n : NumStat) : Nat :=
  flagAt n.satSeen 31 + flagAt (n.nonfinSeen || n.nonfin ≠ 0) 30 + flagAt (n.qsat ≠ 0) 29 + flagAt n.nanScale 28 +
  min n.sat 0xFFFF
/-- NUMSTAT1. -/
def NumStat.stat1 (n : NumStat) : Nat := min n.qsat 0xFFFF * 65536 + min n.nonfin 0xFFFF
/-- What an amax slot holds after values are offered (R78); nothing finite offers nothing. -/
def amaxMerge (slot : Word) (best : Option Word) : Word :=
  match best with
  | none => slot
  | some v => if of32 slot = .nan ∨ fvLt (of32 slot) (of32 v) then v else slot
/-- The largest finite magnitude among values. -/
def amaxOf (vs : List Word) : Option Word :=
  vs.foldl (fun m v => if fvFinite (of32 v) then
    (match m with | none => some (abs32 v) | some b => if fvLt (of32 b) (of32 (abs32 v)) then some (abs32 v) else some b) else m) none
/-- Merge into the slot at an address word (R78). -/
def State.amaxAt (s : State) (x : Ctx) (w off : Nat) (best : Option Word) : TRes State := do
  if best = none then .ok s
  else
    let bs ← s.wRead x w off 4
    s.wWrite x w off (natLE 4 (amaxMerge (BitVec.ofNat 32 (leAt bs 0 4)) best).toNat)

end Sys2Proof.Machine
end

