-- ==== Sys2Proof/Machine/Array.lean ====
section
/-! DEFINITION. The matrix array (R59 to R111): weight slots and their tags, the three dataflows with
their chunks and promotions, segment passes, and the output stage. -/

namespace Sys2Proof.Machine

/-! ### Weight slots (R84, R91) -/

/-- A pass's tile: where its elements and scales lie, its first reduction index, depth and width. -/
structure Tile where
  elem : Nat
  scale : Nat
  r0 : Nat
  n : Nat
  c : Nat
deriving DecidableEq, Repr
/-- Byte offset of the tile's first element in its plane. -/
def tileOff (g : Gemm) (r : List Nat) (t : Tile) : Nat :=
  let str := r.getD 9 0 % 2 ^ 32
  if g.mx then t.r0 / 32 * str + t.r0 % 32 * codeWidth g.fmtS / 8 else t.r0 * str
/-- The slot that a tile makes, without contents: the fields of its tag (R84). Activation tiles carry
version 0 (R99). -/
def tileTag (x : Ctx) (g : Gemm) (r : List Nat) (t : Tile) : Slot :=
  let a := ctxAddr x t.elem
  { valid := true, addr := flagAt a.1 63 + a.2 + tileOff g r t, version := if g.kind = 2 then 0 else g.version, fmt := g.fmtS, shape := g.shape, rows := t.n, cols := t.c }
/-- Do two slots carry one tag, the first being valid (R91)? -/
def sameTag (a b : Slot) : Bool :=
  a.valid && a.addr = b.addr && a.version = b.version && a.fmt = b.fmt && a.shape = b.shape && a.rows = b.rows && a.cols = b.cols
/-- Read a tile: element codes and scale bytes by row and column (R496). -/
def State.readTile (s : State) (x : Ctx) (g : Gemm) (r : List Nat) (t : Tile) : TRes (List (List Nat) × List (List Nat)) := do
  let w := codeWidth g.fmtS
  let ch := tileChunks g r t.elem t.scale (t.r0 + t.n) t.c
  if g.mx then
    let b0 := t.r0 / 32
    let lines ← s.readChunks x (ch.1.drop b0)
    let sc ← s.readChunks x (ch.2.drop b0)
    let rowE := fun (i : Nat) =>
      let q := t.r0 + i
      (upTo t.c).map (fun c => elemAt (leNat (lines.getD (q / 32 - b0) [])) w (32 * c + q % 32))
    let rowS := fun (i : Nat) => ((sc.getD ((t.r0 + i) / 32 - b0) []).map BitVec.toNat)
    .ok ((upTo t.n).map rowE, (upTo t.n).map rowS)
  else
    let lines ← s.readChunks x (ch.1.drop t.r0)
    .ok (lines.map (fun l => (upTo t.c).map (fun c => elemAt (leNat l) w c)), [])
/-- The slot that a pass uses: a valid slot with its tag, else a load into the slot used least recently,
slot A when neither has been used (R91). -/
def State.useTile (s : State) (x : Ctx) (g : Gemm) (r : List Nat) (t : Tile) : TRes (State × Slot) :=
  let c := s.core x.core
  let tag := tileTag x g r t
  let n := c.uses + 1
  if sameTag c.slotA tag then
    let sl := { c.slotA with used := n }
    .ok (s.setCore x.core { c with slotA := sl, uses := n }, sl)
  else if sameTag c.slotB tag then
    let sl := { c.slotB with used := n }
    .ok (s.setCore x.core { c with slotB := sl, uses := n }, sl)
  else match s.readTile x g r t with
    | .error e => .error e
    | .ok (es, ss) =>
      let sl := { tag with elems := es, scales := ss, used := n }
      .ok (s.setCore x.core (if c.slotB.used < c.slotA.used then { c with slotB := sl, uses := n } else { c with slotA := sl, uses := n }), sl)

/-! ### Runs and promotions (R65 to R74) -/

/-- A streamed vector of a pass: the vector index that gives its tile rows, its packed elements, its scale
bytes. -/
structure Vct where
  row : Nat
  elems : Nat
  scales : List Byte
deriving DecidableEq, Repr
/-- Read streamed vectors lo to lo + n - 1 of k elements. -/
def State.readStream (s : State) (x : Ctx) (g : Gemm) (r : List Nat) (e sc lo n k : Nat) : TRes (List Vct) := do
  let ch := streamChunks g r e sc lo n k
  let es ← s.readChunks x ch.1
  let ss ← s.readChunks x ch.2
  .ok (es.zipIdx.map (fun v => ⟨lo + v.2, leNat v.1, ss.getD v.2 []⟩))
/-- A value is zero, of either sign. -/
def fvIsZero : Fv → Bool | .fin _ 0 _ => true | _ => false
/-- Exact product of two cells' elements; none when the cell is gated (R73). -/
def cellProd (fv fs a b : Nat) : Option Fv :=
  let x := decodeF (fmtOf fv) a
  let y := decodeF (fmtOf fs) b
  if fvIsZero x || fvIsZero y then none else some (fvMul x y)
/-- The rounding of an add into the run (R65, R70, R71). -/
def runRound (g : Gemm) (v : Fv) : Fv :=
  if family g.fmtV = 2 then v else if g.quad then roundIeee fmt32 v else roundIeee fmt24 v
/-- The run of a chunk: its products added in order from +0. -/
def runOf (g : Gemm) (ps : List Fv) : Fv := ps.foldl (fun a p => runRound g (fvAdd a p)) fvZero
/-- Value of a scale byte (R62). -/
def e8m0 (b : Nat) : Fv := if b = 0xFF then .nan else .fin false 1 ((b : Int) - 127)
/-- Integer of a finite value. -/
def fvInt : Fv → Int
  | .fin n m e => if n then -((m : Int) * 2 ^ e.toNat) else (m : Int) * 2 ^ e.toNat
  | _ => 0
/-- Promote a run into an entry (R68, R69, R71, R72): the fused add with factor `cf`, or the saturating
integer add; `first` overwrites. -/
def State.promote (s : State) (core row e : Nat) (int8 first : Bool) (run cf : Fv) (n : NumStat) : State × NumStat :=
  let old := if first then 0 else s.accGet core row e
  let fl := s.rowFlags core row
  if int8 then
    let (v, sat) := satAdd32 old (fvInt run)
    let s1 := s.accSet core row e v
    if sat then (s1.setRowFlags core row (fl ||| 1), { n with sat := n.sat + 1 }) else (s1, n)
  else
    let v := to32 (fvAdd (of32 old) (fvMul run cf))
    let s1 := s.accSet core row e v
    if fvFinite (of32 v) then (s1, n) else (s1.setRowFlags core row (fl ||| 2), n)
/-- Chunks of a pass that cover a loaded index: first and past-last index within the pass (R67, R97). -/
def chunks (len n : Nat) : List (Nat × Nat) :=
  (upTo (ceilDiv n len)).map (fun i => (i * len, min n ((i + 1) * len)))
/-- The tile rows of vector j in a pass, each with its first logical column and its entries (R101). -/
def Gemm.rowsOf (g : Gemm) (j : Nat) : List (Nat × Nat × Nat) :=
  if g.trans then [(g.accBase + j, 0, g.tile)]
  else ((upTo g.bands).filter (fun b => b * g.bandCols < g.cols)).map (fun b =>
    (g.accBase + j * g.bands + b, b * g.bandCols, min g.bandCols (g.cols - b * g.bandCols)))
/-- One pass over a resident tile (R94 to R99). `k0` is the reduction index of the tile's first row within
the streamed vector; `first` says that the pass overwrites; `tf` is the plain FP8 factor. -/
def State.pass (s : State) (core : Nat) (g : Gemm) (sl : Slot) (vs : List Vct) (k0 : Nat) (first : Bool)
    (tf : Fv) (n : NumStat) : State × NumStat :=
  let int8 := decide (family g.fmtV = 2)
  let wv := codeWidth g.fmtV
  let cl := if first then vs.foldl (fun st v => (g.rowsOf v.row).foldl (fun t q => t.setRowFlags core q.1 0) st) s else s
  let vscale := fun (v : Vct) (k : Nat) => ((v.scales.getD ((k0 + k) / 32) 0).toNat)
  let wscale := fun (k c : Nat) => (sl.scales.getD k []).getD c 0
  let code := fun (k c : Nat) => (sl.elems.getD k []).getD c 0
  let seen := g.mx && (vs.any (fun v => (upTo (if g.trans then sl.cols else sl.rows)).any (fun k => vscale v k = 0xFF)) ||
    sl.scales.any (fun l => l.any (· = 0xFF)))
  let num := { n with nanScale := n.nanScale || seen }
  let one := fun (a : State × NumStat) (row e : Nat) (len total : Nat) (prods : Nat → Option Fv) (cf : Nat → Fv) =>
    (chunks len total).foldl (fun (b : State × NumStat) (ch : Nat × Nat) =>
      let ks := (upTo (ch.2 - ch.1)).map (· + ch.1)
      b.1.promote core row e int8 (first && ch.1 = 0) (runOf g (ks.filterMap prods)) (cf ch.1) b.2) a
  vs.foldl (fun a v =>
    (g.rowsOf v.row).foldl (fun a q =>
      (upTo q.2.2).foldl (fun a e =>
        if g.trans then
          one a q.1 e (if g.mx then 32 else sl.cols) sl.cols
            (fun c => (cellProd g.fmtV g.fmtS (elemAt v.elems wv c) (code e c)).map (fun p =>
              if g.mx then runRound g (fvMul p (e8m0 (wscale e c))) else p))
            (fun c => if g.mx then e8m0 (vscale v c) else tf)
        else
          let col := q.2.1 + e
          one a q.1 e (if g.mx then min 32 g.depth else g.depth) sl.rows
            (fun k => cellProd g.fmtV g.fmtS (elemAt v.elems wv (k0 + k)) (code k col))
            (fun k => if g.mx then fvMul (e8m0 (vscale v k)) (e8m0 (wscale k col)) else tf)) a) a) (cl, num)

/-! ### Output stage (R75 to R78) -/

/-- Activation of one value (R76). -/
def activate (act : Nat) (alpha v : Word) : Word :=
  match act with
  | 0 => v
  | 1 => if of32 v = .nan then nan32 else if fvPos (of32 v) then v else 0
  | 2 => if of32 v = .nan then nan32 else if fvPos (of32 v) then v else mul32 v alpha
  | 6 =>
    if of32 v = .nan then nan32 else if fvPos (of32 v) then v
    else if of32 v = .inf true then to32 (fvNegate (of32 alpha))
    else Config.approx (0x600000000 + alpha.toNat) v
  | a => approxFn a v
/-- Softmax over the entries of a tile row (R76). -/
def softmaxRow (vs : List Word) : List Word :=
  if vs.any (fun v => of32 v = .nan || of32 v = .inf false) || vs.all (fun v => of32 v = .inf true) then vs.map (fun _ => nan32)
  else vs.zipIdx.map (fun e => if of32 e.1 = .inf true then 0 else Config.softmax vs e.2)
/-- Steps 1 and 2 of R75 on the entries of a tile row, with their biases. -/
def stageRow (g : Gemm) (alpha : Word) (bias : List Word) (vs : List Word) : List Word :=
  let f := if family g.fmtV = 2 then vs.map (fun v => ofInt32 v.toInt) else vs
  let b := if bias = [] then f else f.zipWith add32 bias
  if g.act = 0xA then softmaxRow b else b.map (activate g.act alpha)
/-- Quantise values that lie in one MX block, whole on storage (R77): scale, codes, counts. -/
def mxBlock (fmt : Nat) (vs : List Word) (n : NumStat) : Nat × List Nat × NumStat :=
  let (sc, es, clamped, bad) := mxQuant fmt ((vs.map of32) ++ List.replicate (32 - vs.length) fvZero)
  (sc, es, { n with qsat := n.qsat + clamped, nonfin := n.nonfin + (if bad then vs.length else 0) })
/-- Blocks of 32 of a list. -/
def blocks32 (vs : List Word) : List (List Word) := (upTo (ceilDiv vs.length 32)).map (fun b => (vs.drop (32 * b)).take 32)
/-- Quantise blocks one after another: packed elements, scale bytes, counts. -/
def mxLine (fmt : Nat) (bs : List (List Word)) (n : NumStat) : List Byte × List Byte × NumStat :=
  bs.foldl (fun a b =>
    let q := mxBlock fmt b a.2.2
    (a.1 ++ packElems (codeWidth fmt) q.2.1, a.2.1 ++ natLE 1 q.1, q.2.2)) ([], [], n)
/-- Convert a row of values to a non-MX format: packed bytes and counts (R76). -/
def plainLine (fmt : Nat) (q : Word) (vs : List Word) (n : NumStat) : List Byte × NumStat :=
  let r := vs.foldl (fun (a : List Nat × NumStat) v => let c := convOut fmt q v; (a.1 ++ [c.1], a.2.elem c.2.1 c.2.2)) ([], n)
  (packElems (codeWidth fmt) r.1, r.2)
/-- What the drain writes: element and scale bytes for the plane parts of `outChunks`, with the counts. -/
def outLines (g : Gemm) (r : List Nat) (rows : List (List Word)) (n : NumStat) : List (List Byte) × List (List Byte) × NumStat :=
  if g.outFmt = 0xC then (rows.map (fun v => packElems 32 (v.map BitVec.toNat)), [], n)
  else if !isMx g.outFmt then
    let o := rows.foldl (fun (a : List (List Byte) × NumStat) v => let l := plainLine g.outFmt (lo32 (r.getD 12 0)) v a.2; (a.1 ++ [l.1], l.2)) ([], n)
    (o.1, [], o.2)
  else
    let lines := if (r.getD 13 0).testBit 2 then
        (upTo (ceilDiv rows.length 32)).map (fun b => (upTo g.outCols).map (fun c => ((rows.drop (32 * b)).take 32).map (fun v => v.getD c 0)))
      else rows.map blocks32
    lines.foldl (fun (a : List (List Byte) × List (List Byte) × NumStat) l =>
      let q := mxLine g.outFmt l a.2.2
      (a.1 ++ [q.1], a.2.1 ++ [q.2.1], q.2.2)) ([], [], n)
/-- Drain the task's tile rows (R75, R103, R496). -/
def State.drainRows (s : State) (x : Ctx) (g : Gemm) (r : List Nat) (n : NumStat) : TRes (State × NumStat) := do
  let bw := r.getD 6 0
  let raw := decide (g.outFmt = 0xC)
  let bs ← if raw || addrOf bw = 0 then (.ok []) else s.wRead x bw 0 (4 * g.outCols)
  let bias := fun (lo k : Nat) => if bs = [] then [] else (upTo k).map (fun i => BitVec.ofNat 32 (leAt bs (4 * (lo + i)) 4))
  let rowVals := fun (j : Nat) => (g.rowsOf j).map (fun q =>
    let es := (upTo q.2.2).map (fun e => s.accGet x.core q.1 e)
    if raw then es else stageRow g (hi32 (r.getD 12 0)) (bias q.2.1 q.2.2) es)
  let rows := (upTo g.rows).map (fun j => (rowVals j).flatten)
  let n1 := (upTo g.rows).foldl (fun m j => (g.rowsOf j).foldl (fun m q => m.row (s.rowFlags x.core q.1)) m) n
  let (es, ss, n2) := outLines g r rows n1
  let ch := outChunks g r
  let s1 ← s.writeChunks x (ch.1.zipWith (fun c b => (c.1, c.2.1, b)) es)
  let s2 ← s1.writeChunks x (ch.2.zipWith (fun c b => (c.1, c.2.1, b)) ss)
  let s3 ← if raw || addrOf (r.getD 7 0) = 0 then (.ok s2) else s2.amaxAt x (r.getD 7 0) 0 (amaxOf rows.flatten)
  .ok (s3, n2)

/-! ### A whole task -/

/-- The passes of one segment: ⌈rank / H⌉ passes over consecutive rows of U (R109, R110). -/
def State.segPasses (s : State) (x : Ctx) (g : Gemm) (r : List Nat) (tf : Fv) (base : Bool) (sg : Seg) (n : NumStat) : TRes (State × NumStat) := do
  let vs ← s.readStream x g r (r.getD 14 0) (r.getD 15 0) sg.first sg.count g.rank
  (upTo (ceilDiv g.rank g.depth)).foldlM (fun (a : State × NumStat) p => do
    let k0 := p * g.depth
    let (s1, sl) ← a.1.useTile x g r { elem := sg.elem, scale := sg.scale, r0 := k0, n := min g.depth (g.rank - k0), c := g.cols }
    .ok (s1.pass x.core g sl vs k0 (!base && p = 0 && !g.accAdd) tf a.2)) (s, n)
/-- A GEMM, GEMM_T or GEMM_WG task (R94, R96, R99, R109): its passes in order, then its drain. A structure
that breaks a limit at run time is a PROGRAM_FAULT (R129). -/
def State.gemmTask (s : State) (x : Ctx) (t : Task) : TRes (State × NumStat) := do
  let g := t.gemm
  let x0 : Ctx := { x with move := none }
  let rb ← s.wRead x0 g.record 0 128
  let r := words64 rb 16
  let sb ← if g.segCount = 0 then (.ok []) else s.wRead x0 g.segTab 0 (32 * g.segCount)
  if !g.ok t || !recOk g r || !segsOk g sb then .error (s, tsProgram)
  else
    let tf := if family g.fmtV = 1 then of32 (mul32 (lo32 (r.getD 11 0)) (hi32 (r.getD 11 0))) else of32 one32
    let base := decide (addrOf (r.getD 2 0) ≠ 0)
    let a ← if !base then (.ok (s, {})) else do
      let vs ← s.readStream x g r (r.getD 0 0) (r.getD 1 0) 0 g.rows g.reduction
      let (s1, sl) ← s.useTile x g r { elem := r.getD 2 0, scale := r.getD 3 0, r0 := 0, n := g.tile, c := g.cols }
      .ok (s1.pass x.core g sl vs 0 (!g.accAdd) tf {})
    let b ← (segsOf g.segCount sb).foldlM (fun (a : State × NumStat) sg => a.1.segPasses x g r tf base sg a.2) a
    if g.drain then b.1.drainRows x g r b.2 else .ok (b.1, {})

end Sys2Proof.Machine
end

