-- ==== Sys2Proof/Machine/Vector.lean ====
section
/-! DEFINITION. The vector unit (R119 to R121, R127): registers, lanes by type, every instruction, and the
execution of a vector program. -/

namespace Sys2Proof.Machine

/-! ### Registers and lanes -/

/-- A word of a vector register; not written since the task's start it is free (R119; log 4). -/
def VecCtx.get (v : VecCtx) (reg l : Nat) : Word :=
  (tabFind v.z (reg * 64 + l)).getD (Config.freeWord (2 ^ 80 + v.gen * 4096 + reg * 64 + l))
/-- A register's 64 words. -/
def VecCtx.reg (v : VecCtx) (r : Nat) : List Word := (upTo 64).map (v.get r)
/-- Write words from lane 0 of a register; other lanes stay. -/
def VecCtx.put (v : VecCtx) (r : Nat) (ws : List Word) : VecCtx :=
  { v with z := ws.zipIdx.foldl (fun t e => tabSet t (r * 64 + e.2) e.1) v.z }
/-- A bit of the lane mask. -/
def VecCtx.mk1 (v : VecCtx) (l : Nat) : Bool :=
  (tabFind v.mask l).getD ((Config.freeWord (2 ^ 82 + v.gen * 128 + l)).getLsbD 0)
/-- Low BF16 half of a word as FP32. -/
def bfLo (w : Word) : Word := w <<< 16
/-- High BF16 half of a word as FP32. -/
def bfHi (w : Word) : Word := w &&& 0xFFFF0000
/-- Two FP32 values rounded to BF16 in one word: the even lane in the low half (log 26). -/
def bfPack (a b : Word) : Word := ((bf16of a) >>> 16) ||| ((bf16of b) &&& 0xFFFF0000)
/-- Lane values of a register: 64 words, or 128 BF16 values as FP32 (log 26). -/
def lanes (typ : Nat) (ws : List Word) : List Word := if typ = 1 then ws.flatMap (fun w => [bfLo w, bfHi w]) else ws
/-- Pack lane values again. -/
def packLanes : List Word → List Word
  | a :: b :: t => bfPack a b :: packLanes t
  | _ => []
/-- Words of lane values of a type. -/
def unlanes (typ : Nat) (vs : List Word) : List Word := if typ = 1 then packLanes vs else vs

/-- An integer result, free where it does not fit 32 bits: the manual states no result there (log 26). -/
def intRes (free : Word) (x : Int) : Word := if -2147483648 ≤ x ∧ x ≤ 2147483647 then BitVec.ofInt 32 x else free
/-- Lane operations of two or three sources by opcode (R120); `free` is the lane's free value. -/
def laneOp (op typ : Nat) (free a b c : Word) : Word :=
  if typ = 2 then
    match op with
    | 0x08 => intRes free (a.toInt + b.toInt)
    | 0x09 => intRes free (a.toInt - b.toInt)
    | 0x0A => intRes free (a.toInt * b.toInt)
    | 0x0B => intRes free (a.toInt * b.toInt + c.toInt)
    | 0x0D => if a.toInt < b.toInt then b else a
    | 0x0E => if b.toInt < a.toInt then b else a
    | 0x0F => intRes free (a.toInt.natAbs : Int)
    | _ => free
  else match op with
    | 0x08 => add32 a b
    | 0x09 => sub32 a b
    | 0x0A => mul32 a b
    | 0x0B => fma32 a b c
    | 0x0C => div32 a b
    | 0x0D => max32 a b
    | 0x0E => min32 a b
    | 0x0F => abs32 a
    | 0x10 => sqrt32 a
    | 0x11 => rsqrt32 a
    | 0x12 => approxFn 7 a
    | 0x13 => approxFn 0x13 a
    | 0x14 => approxFn 4 a
    | 0x15 => approxFn 3 a
    | _ => approxFn 0x16 a
/-- The comparison of CMPLT. -/
def laneLt (typ : Nat) (a b : Word) : Bool := if typ = 2 then a.toInt < b.toInt else fvLtNum (of32 a) (of32 b)
/-- One level of the pairwise tree (R120): neighbours combine. -/
def pairUp (f : Word → Word → Word) : List Word → List Word
  | a :: b :: t => f a b :: pairUp f t
  | l => l
/-- The whole tree over lanes, a power of two of them. -/
def treeOf (f : Word → Word → Word) : Nat → List Word → Word
  | 0, l => l.headD 0
  | n + 1, l => treeOf f n (pairUp f l)

/-- The n-th free word of a draw (log 4). -/
def freeLane (gen l : Nat) : Word := Config.freeWord (2 ^ 83 + gen * 128 + l)
/-- CVT of a lane (R76, R120); the codes outside R76's table state no result (log 26). -/
def cvtLane (typ fmt : Nat) (q free v : Word) (n : NumStat) : Word × NumStat :=
  if fmt < 6 ∨ 0xB < fmt then (free, n)
  else
    let c := convOut fmt q (if typ = 2 then ofInt32 v.toInt else v)
    (BitVec.ofNat 32 c.1, n.elem c.2.1 c.2.2)

/-! ### Instructions -/

/-- The context in which a core's vector program runs: its accesses, its body, its registers. -/
structure VecRun where
  x : Ctx
  b : VecBody
  v : VecCtx
  n : NumStat
deriving DecidableEq, Repr
/-- Signed 24-bit offset of a memory instruction. -/
def immOff (imm : Word) : Int := ((imm.setWidth 24 : BitVec 24)).toInt
/-- Effective address a_n + offset + i * stride (R119): its space and address; none below 0. -/
def VecRun.ea (r : VecRun) (reg : Nat) (off : Int) : Option (Bool × Nat) :=
  let e := r.v.a.getD reg (0, 0)
  let a := ctxAddr r.x e.1
  let t := (a.2 : Int) + off + r.v.iter * e.2
  if t < 0 then none else some (a.1, t.toNat)
/-- The target of a memory instruction, 64-B aligned. -/
def VecRun.target (r : VecRun) (s : State) (reg : Nat) (off : Int) : TRes (Bool × Nat) :=
  match r.ea reg off with
  | none => .error (s, tsAddress)
  | some p => if p.2 % 64 = 0 then .ok p else .error (s, tsProgram)
/-- Words of bytes. -/
def wordsLE (bs : List Byte) (n : Nat) : List Word := (upTo n).map (fun i => BitVec.ofNat 32 (leAt bs (4 * i) 4))
/-- Lane-wise result into ZD. -/
def VecRun.lanewise (r : VecRun) (s : State) (op typ zd za zb zc : Nat) : State × VecRun :=
  let la := lanes typ (r.v.reg za)
  let lb := lanes typ (r.v.reg zb)
  let lc := lanes typ (r.v.reg zc)
  let out := (upTo la.length).map (fun l => laneOp op typ (freeLane s.free l) (la.getD l 0) (lb.getD l 0) (lc.getD l 0))
  ({ s with free := s.free + 1 }, { r with v := r.v.put zd (unlanes typ out) })
/-- A reduction into every lane. -/
def VecRun.reduce (r : VecRun) (s : State) (op typ zd za : Nat) : State × VecRun :=
  let l := lanes typ (r.v.reg za)
  let f := fun a b => laneOp op typ (freeLane s.free 0) a b 0
  let v := treeOf f (if typ = 1 then 7 else 6) l
  ({ s with free := s.free + 1 }, { r with v := r.v.put zd (unlanes typ (List.replicate l.length v)) })
/-- QMX (R77, R120): two 32-lane blocks. -/
def VecRun.qmx (r : VecRun) (s : State) (typ za zb zc fmt : Nat) : TRes (State × VecRun) := do
  if !isMx fmt then .error (s, tsProgram)
  else
    let vs := (lanes typ (r.v.reg za)).take 64
    let fs := if typ = 2 then vs.map (fun w => ofInt32 w.toInt) else vs
    let (es, ss, n) := mxLine fmt (blocks32 fs) r.n
    let p ← r.target s (zb % 16) 0
    let q ← r.target s (zc % 16) 0
    let s1 ← s.tWrite r.x p.1 p.2 es
    let s2 ← s1.tWrite r.x q.1 q.2 ss
    .ok (s2, { r with n := n })
/-- One vector instruction (R120, R121). END only marks the end of the program. -/
def VecRun.step (r : VecRun) (s : State) (op : Nat) (f : VecFields) : TRes (State × VecRun) := do
  let typ := f.typ.val
  let count := f.imm.toNat / 2 ^ 24 + 1
  if typ = 3 then .error (s, tsProgram)
  else match op with
  | 0x00 => .ok (s, r)
  | 0x01 =>
    if 64 < count then .error (s, tsProgram)
    else
      let p ← r.target s (f.zb.val % 16) (immOff f.imm)
      let bs ← s.tRead r.x p.1 p.2 (4 * count)
      .ok (s, { r with v := r.v.put f.zd.val (wordsLE bs count) })
  | 0x02 =>
    if 64 < count then .error (s, tsProgram)
    else
      let p ← r.target s (f.zb.val % 16) (immOff f.imm)
      let s1 ← s.tWrite r.x p.1 p.2 (((r.v.reg f.za.val).take count).flatMap (fun w => natLE 4 w.toNat))
      .ok (s1, r)
  | 0x03 =>
    let row := f.imm.toNat % 512
    let e := bitsOf f.imm.toNat 15 9
    if r.b.accRows ≤ row ∨ 16 < e then .error (s, tsProgram)
    else
      let ws := (upTo 64).map (fun l => s.accGet r.x.core (r.b.accBase + row) (e + l))
      .ok (s, { r with v := r.v.put f.zd.val ws, n := r.n.row (s.rowFlags r.x.core (r.b.accBase + row)) })
  | 0x04 =>
    let p ← r.target s (f.zb.val % 16) (immOff f.imm)
    let bs ← s.tRead r.x p.1 p.2 4
    .ok (s, { r with v := r.v.put f.zd.val (List.replicate 64 (BitVec.ofNat 32 (leAt bs 0 4))) })
  | 0x05 =>
    .ok (s, { r with v := r.v.put f.zd.val (List.replicate 64 (if typ = 1 then bfPack f.imm f.imm else f.imm)) })
  | 0x18 =>
    let la := lanes typ (r.v.reg f.za.val)
    let lb := lanes typ (r.v.reg f.zb.val)
    let mk := (upTo la.length).map (fun l => (l, laneLt typ (la.getD l 0) (lb.getD l 0)))
    .ok (s, { r with v := { r.v with mask := mk.foldl (fun t e => tabSet t e.1 e.2) r.v.mask } })
  | 0x19 =>
    let la := lanes typ (r.v.reg f.za.val)
    let lb := lanes typ (r.v.reg f.zb.val)
    .ok (s, { r with v := r.v.put f.zd.val (unlanes typ ((upTo la.length).map (fun l => if r.v.mk1 l then la.getD l 0 else lb.getD l 0))) })
  | 0x1A => .ok (r.reduce s 0x08 typ f.zd.val f.za.val)
  | 0x1B => .ok (r.reduce s 0x0D typ f.zd.val f.za.val)
  | 0x1C =>
    let la := lanes typ (r.v.reg f.za.val)
    let o := la.zipIdx.foldl (fun (a : List Word × NumStat) e =>
      let c := cvtLane typ (f.imm.toNat % 16) f.imm (freeLane s.free e.2) e.1 a.2
      (a.1 ++ [c.1], c.2)) ([], r.n)
    let ws := if typ = 1 then (upTo 64).map (fun i => (o.1.getD (2 * i) 0 &&& 0xFFFF) ||| (o.1.getD (2 * i + 1) 0 <<< 16)) else o.1
    .ok ({ s with free := s.free + 1 }, { r with v := r.v.put f.zd.val ws, n := o.2 })
  | 0x1D => r.qmx s typ f.za.val f.zb.val f.zc.val (f.imm.toNat % 16)
  | 0x1E =>
    let p ← r.target s (f.zb.val % 16) (immOff f.imm)
    let bs ← s.tRead r.x p.1 p.2 4
    let vs := lanes typ (r.v.reg f.za.val)
    let best := amaxOf (if typ = 2 then vs.map (fun w => ofInt32 w.toInt) else vs)
    let s1 ← if best = none then (.ok s) else s.tWrite r.x p.1 p.2 (natLE 4 (amaxMerge (BitVec.ofNat 32 (leAt bs 0 4)) best).toNat)
    .ok (s1, r)
  | 0x3F => .ok (s, r)
  | o =>
    if (0x08 ≤ o ∧ o ≤ 0x16) then .ok (r.lanewise s o typ f.zd.val f.za.val f.zb.val f.zc.val)
    else .error (s, tsProgram)

/-- Fields of an instruction word (R119). -/
def vecFields (w : Nat) : VecFields :=
  { zd := Fin.ofNat 32 (bitsOf w 55 51), za := Fin.ofNat 32 (bitsOf w 50 46), zb := Fin.ofNat 32 (bitsOf w 45 41), zc := Fin.ofNat 32 (bitsOf w 40 36), typ := Fin.ofNat 4 (bitsOf w 35 34), imm := BitVec.ofNat 32 w }
/-- One iteration: from the first instruction to END or the last (R119). -/
def VecRun.iteration (r : VecRun) (s : State) : List Nat → TRes (State × VecRun)
  | [] => .ok (s, r)
  | w :: t =>
    if bitsOf w 33 32 ≠ 0 then .error (s, tsProgram)
    else if bitsOf w 63 56 = 0x3F ∧ bitsOf w 35 34 ≠ 3 then .ok (s, r)
    else match r.step s (bitsOf w 63 56) (vecFields w) with
      | .error e => .error e
      | .ok (s1, r1) => r1.iteration s1 t
/-- Iterations i to ITER - 1. -/
def VecRun.loop (s : State) (prog : List Nat) : Nat → VecRun → TRes (State × VecRun)
  | 0, r => .ok (s, r)
  | n + 1, r =>
    match r.iteration s prog with
    | .error e => .error e
    | .ok (s1, r1) => VecRun.loop s1 prog n { r1 with v := { r1.v with iter := r1.v.iter + 1 } }
/-- The start of a VEC task: fresh registers, and the address registers from the argument table (R119,
R127). -/
def State.vecInit (s : State) (x : Ctx) (t : Task) : TRes (State × VecRun) := do
  let b := t.vecBody
  let bs ← s.wRead x b.args 0 256
  let a := (upTo 16).map (fun i => (leAt bs (16 * i) 8, (BitVec.ofNat 32 (leAt bs (16 * i + 8) 4)).toInt))
  if !b.ok t || !a.all (fun e => wordOk e.1) then .error (s, tsProgram)
  else .ok ({ s with free := s.free + 1 }, { x := x, b := b, v := { gen := s.free, a := a }, n := {} })
/-- A whole VEC task (R127). -/
def State.vecTask (s : State) (x : Ctx) (t : Task) : TRes (State × VecRun) := do
  let (s1, r) ← s.vecInit x t
  let pb ← s1.wRead x r.b.prog 0 (8 * r.b.len)
  VecRun.loop s1 (words64 pb r.b.len) r.b.iter r

end Sys2Proof.Machine
end

