-- ==== Sys2Proof/Machine/Tasks.lean ====
section
/-! DEFINITION. Task graphs and deques at work: the walkers (R131 to R134), pops and steals (R135 to R139,
R259), the tasks that compute or move data (R94 to R99, R127, R128), and the vector instructions as single
steps (R119 to R121). A task's row does its whole work and leaves its status words on the core;
TASK_COMPLETE ends it. -/

namespace Sys2Proof.Machine

/-! ### Graph walkers -/

/-- Does a logical core exist and have power (R16, R17, R385)? -/
def State.coreOn (s : State) (c : Nat) : Bool := s.power.cp && (tabFind s.remap c).isSome && s.power.pdG.testBit (c / 64)
/-- Effective threshold of a wait entry (R141). -/
def effThreshold (x : Job) (w : Nat × Bool × Nat) : Nat := if w.2.1 then w.2.2 + x.step * x.incs.getD w.1 0 else w.2.2
/-- Every wait entry of a task is satisfied (R132, R141). -/
def State.waitsOk (s : State) (x : Job) (t : Task) : Bool :=
  t.waits.all (fun w => reached (s.ctr (x.ctrBase + w.1)).toNat (effThreshold x w))
/-- The layer-table entry that a VERSION field names (R157). -/
def Job.named (x : Job) (t : Task) : Option Layer := if t.verTag = 0 then none else x.layers[t.verTag - 1]?
/-- Bind a released task to its layer's committed version (R157). -/
def bindVersion (x : Job) (t : Task) : Task :=
  match x.named t with
  | none => { t with ver := t.verTag }
  | some l => { t with ver := l.version, move := if l.version % 2 = 0 ∧ !l.single then some (l.buf0, l.size, (l.buf1 : Int) - l.buf0) else none }
/-- TASK_FETCH (R132): the walker of a die reads the next descriptor of its list; an unreadable one fences
the job (log 27). -/
def execTaskFetch (job : Nat) (die : DieId) (s : State) : Out :=
  .next (match s.job? job with
    | none => s
    | some x =>
      let w := tabGet {} x.walkers die.val
      let l := x.lists.getD die.val (0, 0)
      let a := x.image + l.1 + 64 * w.next
      if x.st ≠ .running ∨ l.2 ≤ w.next ∨ 1024 ≤ w.fetched.length then s
      else match s.devRead a 64 with
        | none => (s.devReadBad a 64).fence job 0x09 0 0 0 0
        | some bs =>
          let t : Task := { owner := .job job, w := words64 bs 8 }
          s.setJob job { x with walkers := tabSet x.walkers die.val { w with next := w.next + 1, fetched := w.fetched ++ [t] } })
/-- Note in the statistics of a group. -/
def State.stat (s : State) (g : Nat) (f : Group → Group) : State := s.setGrp g (f (s.grp g))
/-- Put a released task into its HOME core's deque, or hold it in the walker (R132). -/
def State.pushTask (s : State) (job die : Nat) (t : Task) : State :=
  match s.job? job with
  | none => s
  | some x =>
    let w := tabGet {} x.walkers die
    let k := s.core t.home
    if k.deque.length < 32 ∧ !w.held.any (fun u => u.home = t.home) then s.setCore t.home { k with deque := k.deque ++ [t] }
    else (s.setJob job { x with walkers := tabSet x.walkers die { w with held := w.held ++ [t] } }).stat (t.home / 64)
      (fun g => { g with heldRel := (g.heldRel + 1) % 2 ^ 32 })
/-- TASK_RELEASE (R132, R157): the first fetched task whose waits are satisfied is bound and released. -/
def execTaskRelease (job : Nat) (die : DieId) (s : State) : Out :=
  .next (match s.job? job with
    | none => s
    | some x =>
      let w := tabGet {} x.walkers die.val
      if x.st ≠ .running then s
      else match takeFirst (s.waitsOk x) w.fetched with
        | none => s
        | some (t, rest) =>
          (s.setJob job { x with walkers := tabSet x.walkers die.val { w with fetched := rest }, lastMove := s.tick }).pushTask job die.val (bindVersion x t))

/-! ### Service tasks (R237) -/

/-- The bases 0xFA to 0xFE of a service: output staging, input, the state buffer being written, the
committed one, the weight region. -/
def State.svcBases (s : State) (v : Svc) : List Nat :=
  [v.stage, v.inAddr, if v.committed then v.state0 else v.state1, if v.committed then v.state1 else v.state0, (tabGet ⟨0, 0, none, none, false, false, false, 0, 0, 0, 0⟩ s.mem.regions v.wregion).base]
/-- Where the descriptor of a step index of a service image lies. -/
def State.svcStepAt (s : State) (v : Svc) (i : Nat) : Nat := v.image + leNat (s.devMem.readN (v.image + 16) 4) + 64 * i
/-- The descriptor of a step index of a service image. -/
def State.svcStep (s : State) (v : Svc) (i : Nat) : List Nat := words64 (s.devMem.readN (s.svcStepAt v i) 64) 8
/-- The SVC task that stands for a step in a deque: the step's header and waits, KIND SVC. -/
def svcTaskOf (v : Svc) (k i : Nat) (w : List Nat) : Task :=
  { owner := .svc k, w := [w.getD 0 0 / 16 * 16 + 9, w.getD 1 0, w.getD 2 0, w.getD 3 0, w.getD 4 0, k + i * 65536, v.image, 0] }
/-- The core whose deque a task belongs to: HOME, in a service a position of the reservation. -/
def Svc.homeCore (v : Svc) (t : Task) : Nat := v.cores.getD t.home 0
/-- The waits of a service task hold; a service has no steps, so MODE 1 reads as MODE 0 (log 28). -/
def State.svcWaitsOk (s : State) (v : Svc) (t : Task) : Bool :=
  t.waits.all (fun w => reached (s.ctr (v.ctrBase + w.1)).toNat w.2.2)
/-- Push the steps of a running period whose waits hold, in list order, while their deques have room; a
blocked core keeps its order. -/
def State.svcPush (s : State) (k : Nat) (v : Svc) (todo : List Nat) : State × List Nat :=
  let r := todo.foldl (fun (a : State × List Nat × List Nat) i =>
    let t := svcTaskOf v k i (a.1.svcStep v i)
    let c := v.homeCore t
    let d := a.1.core c
    if a.2.2.contains c then (a.1, a.2.1 ++ [i], a.2.2)
    else if !a.1.svcWaitsOk v t then (a.1, a.2.1 ++ [i], a.2.2)
    else if 32 ≤ d.deque.length then (a.1, a.2.1 ++ [i], c :: a.2.2)
    else (a.1.setCore c { d with deque := d.deque ++ [t] }, a.2.1, a.2.2)) (s, [], [])
  (r.1, r.2.1)
/-- Release what a service in RUN can release now. -/
def State.svcRelease (s : State) (k : Nat) : State :=
  match s.svc? k with
  | none => s
  | some v =>
    if v.ph ≠ .run then s
    else
      let r := s.svcPush k v v.todo
      match r.1.svc? k with
      | none => r.1
      | some v1 => r.1.setSvc k { v1 with todo := r.2 }
/-- The period start that R259 measures a reserved core's lending against: none is never, so that the
distance holds; a value at or before now never holds. -/
def nextStart (v : Svc) (tick : Nat) : Option Nat :=
  if v.st ≠ .armed then none
  else if !v.doorbellMode then some (v.t0 + v.k * v.period)
  else if v.started then some (v.start + v.period) else some tick
/-- May a core of a service take a training task of this duration (R138, R259)? -/
def State.mayLend (s : State) (k dur : Nat) : Bool :=
  match s.svc? k with
  | none => false
  | some v =>
    let bound := s.rf (.svc k) 0x00C 12 0
    v.st ≠ .proving && v.ph = .idle && 1 ≤ dur && dur ≤ bound &&
      (match nextStart v s.tick with | none => true | some n => decide (s.tick + bound < n))

/-! ### Pops and steals (R135 to R139) -/

/-- The entry that an owner pops: nearest the head with a phase other than W, else the head. -/
def popEntry (d : List Task) : Option (Task × List Task) :=
  match takeFirst (fun t : Task => t.phase ≠ 2) d with
  | some r => some r
  | none => match d with | [] => none | t :: r => some (t, r)
/-- An UPD task holds its core: while it stalls, and once its last section has left the deque (R187). -/
def State.updHolds (s : State) (c : Nat) : Bool :=
  s.jobs.any (fun j => j.2.upds.any (fun u => decide (u.2.core = c) &&
    (u.2.stalled || (decide (u.2.toPush = 0) && !(s.core c).deque.any (isSection j.1 u.1)))))
/-- A core can start a task: it exists, runs none and is not held. -/
def State.coreIdle (s : State) (c : Nat) : Bool := s.coreOn c && (s.core c).run.isNone && !s.updHolds c
/-- Start a task on a core: INVAL invalidates both slots (R93, R122), and a reserved kind ends in PROGRAM_FAULT
at once (R129). -/
def State.startTask (s : State) (c : Nat) (t : Task) : State :=
  let bad := decide (9 < t.kind) || (decide (t.kind = 9) && (match t.owner with | .job _ => true | _ => false))
  let k := if t.inval then invalidSlots (s.core c) else s.core c
  s.setCore c { k with run := some { task := t, start := s.tick, done := if bad then some { status := tsProgram } else none }, vec := {}, upd := {} }
/-- TASK_POP (R135): the owner takes an entry of its deque and starts it; the freed entry is filled. -/
def execTaskPop (core : CoreId) (s : State) : Out :=
  let c := core.val
  let s0 := match (s.core c).svc with | some k => s.svcRelease k | none => s
  .next (if !s0.coreIdle c then s
    else match popEntry (s0.core c).deque with
      | none => s
      | some (t, rest) => ((s0.setCore c { s0.core c with deque := rest }).refill c 32).startTask c t)
/-- May a thief take an entry in a scope (R136, R138)? -/
def State.takeable (s : State) (th scope : Nat) (t : Task) : Bool :=
  decide (scope ≤ t.steal) &&
  (match t.owner with
   | .svc k => decide ((s.core th).svc = some k)
   | .job j =>
     (match s.job? j with | none => false | some x => x.groups.testBit (th / 64)) &&
     (match (s.core th).svc with | none => true | some k => t.sec.isNone && s.mayLend k t.dur))
/-- Do two cores lie in a scope's relation? 1 same group, 2 same die, 3 adjacent dies, 4 opposite dies
(R13, R136). -/
def inScope (order a b : Nat) : Bool :=
  match order with
  | 1 => a / 64 = b / 64
  | 2 => a / 512 = b / 512 && a / 64 ≠ b / 64
  | 3 => a / 512 ≠ b / 512 && a / 512 + b / 512 ≠ 3
  | _ => a / 512 + b / 512 = 3
/-- The victim of a search: most takeable entries, ties to the lowest logical id. -/
def State.victim (s : State) (th order : Nat) : Option Nat :=
  let scope := min order 3
  let cand := ((s.remap.map (·.1)).filter (fun v => v ≠ th && inScope order th v)).map (fun v => (v, ((s.core v).deque.filter (s.takeable th scope)).length))
  (cand.foldl (fun (b : Option (Nat × Nat)) e =>
    if e.2 = 0 then b else match b with | none => some e | some m => if m.2 < e.2 then some e else b) none).map (·.1)
/-- The last entry that satisfies a test, taken out. -/
def takeLast {α : Type} (p : α → Bool) (l : List α) : Option (α × List α) := (takeFirst p l.reverse).map (fun r => (r.1, r.2.reverse))
/-- TASK_STEAL (R136, R137): the first scope that offers a task gives the entry nearest the victim's tail. -/
def execTaskSteal (core : CoreId) (s : State) : Out :=
  let c := core.val
  let s0 := match (s.core c).svc with | some k => s.svcRelease k | none => s
  .next (if !s0.coreIdle c ∨ (s0.core c).deque ≠ [] then s
    else match [1, 2, 3, 4].findSome? (fun o => (s0.victim c o).map (fun v => (o, v))) with
      | none => s
      | some (o, v) =>
        match takeLast (s0.takeable c (min o 3)) (s0.core v).deque with
        | none => s
        | some (t, rest) =>
          let s1 := ((s0.setCore v { s0.core v with deque := rest }).refill v 32).startTask c t
          let s2 := s1.stat (c / 64) (fun g => { g with thiefTakes := (g.thiefTakes + 1) % 2 ^ 32, crossDie := if 3 ≤ o then (g.crossDie + 1) % 2 ^ 32 else g.crossDie })
          s2.stat (v / 64) (fun g => { g with stolenFrom := (g.stolenFrom + 1) % 2 ^ 32 }))

/-! ### Running a task -/

/-- The context in which a core runs a task. -/
def State.ctxOf (s : State) (c : Nat) (t : Task) : Ctx :=
  match t.owner with
  | .job j =>
    (match s.job? j with
     | none => ⟨c, t.home, 8, false, none, []⟩
     | some x => ⟨c, t.home, x.part, 56 ≤ x.mailbox, t.move, []⟩)
  | .svc k =>
    (match s.svc? k with
     | none => ⟨c, t.home, 8, false, none, []⟩
     | some v => ⟨c, v.homeCore t, v.part, 56 ≤ v.mailbox, none, s.svcBases v⟩)
/-- Leave a task's status words on its core. -/
def State.setDone (s : State) (c : Nat) (r : Result) : State :=
  match (s.core c).run with
  | none => s
  | some x => s.setCore c { s.core c with run := some { x with done := some r } }
/-- The task that a core runs and has not finished, with its context. -/
def State.running (s : State) (c : Nat) : Option (Ctx × Task) :=
  match (s.core c).run with
  | none => none
  | some r => if r.done.isSome then none else some (s.ctxOf c r.task, r.task)
/-- Note how a task's work ended. -/
def finishOn (c : Nat) (r : TRes (State × NumStat)) : State :=
  match r with
  | .ok (s1, n) => s1.setDone c { num0 := n.stat0, num1 := n.stat1 }
  | .error (s1, e) => s1.setDone c { status := e }
/-- Run the task of a core when it is one of a job and of a kind. -/
def State.runKind (s : State) (c kind : Nat) (f : State → Ctx → Task → TRes (State × NumStat)) : State :=
  match s.running c with
  | none => s
  | some (x, t) => if t.kind ≠ kind ∨ t.sec.isSome then s else finishOn c (f s x t)

/-- LOAD (R128). -/
def loadTask (s : State) (x : Ctx) (t : Task) : TRes (State × NumStat) := do
  let m := t.moveBody
  if !m.ok t then .error (s, tsProgram)
  else
    let bs ← s.wRead x m.dev 0 m.len
    let s1 ← s.tWrite x true m.loc bs
    .ok (s1, {})
/-- STORE (R128). -/
def storeTask (s : State) (x : Ctx) (t : Task) : TRes (State × NumStat) := do
  let m := t.moveBody
  if !m.ok t then .error (s, tsProgram)
  else
    let bs ← s.tRead x true m.loc m.len
    let s1 ← s.wWrite x m.dev 0 bs
    .ok (s1, {})
/-- GATHER (R128): rows in index-list order. -/
def gatherTask (s : State) (x : Ctx) (t : Task) : TRes (State × NumStat) := do
  let m := t.moveBody
  if !m.ok t then .error (s, tsProgram)
  else
    let row := 2 ^ m.log2
    let idx ← s.tRead x true m.index (4 * m.count)
    let s1 ← (upTo m.count).foldlM (fun (a : State) i => do
      let bs ← a.wRead x m.dev (leAt idx (4 * i) 4 * row) row
      a.tWrite x true (m.loc + i * row) bs) s
    .ok (s1, {})
/-- VEC (R127); its argument table and program do not move with a layer's buffer (R157). NUMSTAT words are
0 when it drains nothing (R79). -/
def vecTaskRun (s : State) (x : Ctx) (t : Task) : TRes (State × NumStat) := do
  let (s1, r) ← s.vecTask { x with move := none } t
  .ok (s1, if r.b.accRows = 0 then {} else r.n)
/-- The work of a task by its kind; none for a kind that other units do. -/
def workOf (kind : Nat) : Option (State → Ctx → Task → TRes (State × NumStat)) :=
  match kind with
  | 0 => some State.gemmTask
  | 1 => some State.gemmTask
  | 2 => some State.gemmTask
  | 3 => some vecTaskRun
  | 4 => some loadTask
  | 5 => some storeTask
  | 6 => some gatherTask
  | _ => none

/-- GEMM (R94). -/
def execTaskGemm (core : CoreId) (s : State) : Out := .next (s.runKind core.val 0 State.gemmTask)
/-- GEMM_T (R96). -/
def execTaskGemmT (core : CoreId) (s : State) : Out := .next (s.runKind core.val 1 State.gemmTask)
/-- GEMM_WG (R99). -/
def execTaskGemmWg (core : CoreId) (s : State) : Out := .next (s.runKind core.val 2 State.gemmTask)
/-- VEC (R127). -/
def execTaskVec (core : CoreId) (s : State) : Out := .next (s.runKind core.val 3 vecTaskRun)
/-- LOAD (R128). -/
def execTaskLoad (core : CoreId) (s : State) : Out := .next (s.runKind core.val 4 loadTask)
/-- STORE (R128). -/
def execTaskStore (core : CoreId) (s : State) : Out := .next (s.runKind core.val 5 storeTask)
/-- GATHER (R128). -/
def execTaskGather (core : CoreId) (s : State) : Out := .next (s.runKind core.val 6 gatherTask)
/-- SVC (R237): the step of the image that the task names, run in its service's context. -/
def svcTaskRun (s : State) (x : Ctx) (t : Task) : TRes (State × NumStat) :=
  match t.owner with
  | .svc k =>
    (match s.svc? k with
     | none => .error (s, tsProgram)
     | some v =>
       let i := bitsOf (t.word 5) 31 16
       let u : Task := { t with w := s.svcStep v i }
       if (badIn s.mem.badLines (s.svcStepAt v i) 64).isSome then .error (s.devReadBad (s.svcStepAt v i) 64, tsMemory)
       else match workOf u.kind with
       | none => .error (s, tsProgram)
       | some f => f s x u)
  | _ => .error (s, tsProgram)
/-- SVC (R237). -/
def execTaskSvc (core : CoreId) (s : State) : Out := .next (s.runKind core.val 9 svcTaskRun)

/-! ### Vector instructions as single steps (R119 to R121) -/

/-- One instruction of the VEC task that a core runs: its registers start with the task (R119); END ends
the iteration, and the last iteration ends the task; a fault ends it at once (R121). -/
def State.vecRow (s : State) (c op : Nat) (f : VecFields) : State :=
  match s.running c with
  | none => s
  | some (x, t) =>
    if t.kind ≠ 3 then s
    else
      let v := (s.core c).vec
      let start : TRes (State × VecRun) :=
        if v.a = [] then s.vecInit { x with move := none } t else .ok (s, { x := { x with move := none }, b := t.vecBody, v := v, n := v.n })
      match start with
      | .error (s1, e) => s1.setDone c { status := e }
      | .ok (s0, r0) =>
        match r0.step s0 op f with
        | .error (s1, e) => s1.setDone c { status := e }
        | .ok (s1, r) =>
          let it := if op = 0x3F then r.v.iter + 1 else r.v.iter
          let s2 := s1.setCore c { s1.core c with vec := { r.v with iter := it, n := r.n } }
          if op = 0x3F ∧ r.b.iter ≤ it then finishOn c (.ok (s2, if r.b.accRows = 0 then {} else r.n)) else s2
/-- Vector instruction NOP (R120). -/
def execVecNop (core : CoreId) (f : VecFields) (s : State) : Out := .next (s.vecRow core.val 0x00 f)
/-- Vector instruction LD (R120). -/
def execVecLd (core : CoreId) (f : VecFields) (s : State) : Out := .next (s.vecRow core.val 0x01 f)
/-- Vector instruction ST (R120). -/
def execVecSt (core : CoreId) (f : VecFields) (s : State) : Out := .next (s.vecRow core.val 0x02 f)
/-- Vector instruction LDACC (R120). -/
def execVecLdacc (core : CoreId) (f : VecFields) (s : State) : Out := .next (s.vecRow core.val 0x03 f)
/-- Vector instruction BCAST (R120). -/
def execVecBcast (core : CoreId) (f : VecFields) (s : State) : Out := .next (s.vecRow core.val 0x04 f)
/-- Vector instruction MOVI (R120). -/
def execVecMovi (core : CoreId) (f : VecFields) (s : State) : Out := .next (s.vecRow core.val 0x05 f)
/-- Vector instruction ADD (R120). -/
def execVecAdd (core : CoreId) (f : VecFields) (s : State) : Out := .next (s.vecRow core.val 0x08 f)
/-- Vector instruction SUB (R120). -/
def execVecSub (core : CoreId) (f : VecFields) (s : State) : Out := .next (s.vecRow core.val 0x09 f)
/-- Vector instruction MUL (R120). -/
def execVecMul (core : CoreId) (f : VecFields) (s : State) : Out := .next (s.vecRow core.val 0x0A f)
/-- Vector instruction FMA (R120). -/
def execVecFma (core : CoreId) (f : VecFields) (s : State) : Out := .next (s.vecRow core.val 0x0B f)
/-- Vector instruction DIV (R120). -/
def execVecDiv (core : CoreId) (f : VecFields) (s : State) : Out := .next (s.vecRow core.val 0x0C f)
/-- Vector instruction MAX (R120). -/
def execVecMax (core : CoreId) (f : VecFields) (s : State) : Out := .next (s.vecRow core.val 0x0D f)
/-- Vector instruction MIN (R120). -/
def execVecMin (core : CoreId) (f : VecFields) (s : State) : Out := .next (s.vecRow core.val 0x0E f)
/-- Vector instruction ABS (R120). -/
def execVecAbs (core : CoreId) (f : VecFields) (s : State) : Out := .next (s.vecRow core.val 0x0F f)
/-- Vector instruction SQRT (R120). -/
def execVecSqrt (core : CoreId) (f : VecFields) (s : State) : Out := .next (s.vecRow core.val 0x10 f)
/-- Vector instruction RSQRT (R120). -/
def execVecRsqrt (core : CoreId) (f : VecFields) (s : State) : Out := .next (s.vecRow core.val 0x11 f)
/-- Vector instruction EXP (R120). -/
def execVecExp (core : CoreId) (f : VecFields) (s : State) : Out := .next (s.vecRow core.val 0x12 f)
/-- Vector instruction LOG (R120). -/
def execVecLog (core : CoreId) (f : VecFields) (s : State) : Out := .next (s.vecRow core.val 0x13 f)
/-- Vector instruction TANH (R120). -/
def execVecTanh (core : CoreId) (f : VecFields) (s : State) : Out := .next (s.vecRow core.val 0x14 f)
/-- Vector instruction SIGMOID (R120). -/
def execVecSigmoid (core : CoreId) (f : VecFields) (s : State) : Out := .next (s.vecRow core.val 0x15 f)
/-- Vector instruction ERF (R120). -/
def execVecErf (core : CoreId) (f : VecFields) (s : State) : Out := .next (s.vecRow core.val 0x16 f)
/-- Vector instruction CMPLT (R120). -/
def execVecCmplt (core : CoreId) (f : VecFields) (s : State) : Out := .next (s.vecRow core.val 0x18 f)
/-- Vector instruction SEL (R120). -/
def execVecSel (core : CoreId) (f : VecFields) (s : State) : Out := .next (s.vecRow core.val 0x19 f)
/-- Vector instruction RSUM (R120). -/
def execVecRsum (core : CoreId) (f : VecFields) (s : State) : Out := .next (s.vecRow core.val 0x1A f)
/-- Vector instruction RMAX (R120). -/
def execVecRmax (core : CoreId) (f : VecFields) (s : State) : Out := .next (s.vecRow core.val 0x1B f)
/-- Vector instruction CVT (R120). -/
def execVecCvt (core : CoreId) (f : VecFields) (s : State) : Out := .next (s.vecRow core.val 0x1C f)
/-- Vector instruction QMX (R120). -/
def execVecQmx (core : CoreId) (f : VecFields) (s : State) : Out := .next (s.vecRow core.val 0x1D f)
/-- Vector instruction AMAX (R120). -/
def execVecAmax (core : CoreId) (f : VecFields) (s : State) : Out := .next (s.vecRow core.val 0x1E f)
/-- Vector instruction END (R120). -/
def execVecEnd (core : CoreId) (f : VecFields) (s : State) : Out := .next (s.vecRow core.val 0x3F f)

end Sys2Proof.Machine
end

