-- ==== Sys2Proof/Machine/Layers.lean ====
section
/-! DEFINITION. Trainable layers on this device (R156 to R163, R215 to R220) and what the completion of a
task does to its job: record, signal, REF, recompute segments, overflow flag, dropped layers (R142 to R145,
R155, R158, R165, R218). -/

namespace Sys2Proof.Machine

/-! ### Versions and buffers -/

/-- The version that follows (R163). -/
def nextVer (v : Nat) : Nat := if v = 2 ^ 20 - 1 then 2 else v + 1
/-- Which buffer holds a version: 0 or 1 (R157, R162). -/
def Layer.bufNo (l : Layer) (v : Nat) : Nat := if l.single || v % 2 = 1 then 0 else 1
/-- The address of the buffer that holds a version. -/
def Layer.buf (l : Layer) (v : Nat) : Nat := if l.bufNo v = 0 then l.buf0 else l.buf1
/-- The buffer that receives the next version. -/
def Layer.altBuf (l : Layer) : Nat := l.buf (l.version + 1)
/-- A layer of a job by its id. -/
def Job.layer? (x : Job) (id : Nat) : Option Layer := x.layers.find? (fun l => l.id = id)
/-- Change a layer. -/
def Job.mapLayer (x : Job) (id : Nat) (f : Layer → Layer) : Job := { x with layers := x.layers.map (fun l => if l.id = id then f l else l) }
/-- Change a layer of a job. -/
def State.mapLayer (s : State) (j id : Nat) (f : Layer → Layer) : State := s.onJob j (fun x => x.mapLayer id f)
/-- A layer's gather record; HELD when the gather table does not name it (R215). -/
def Job.gather (x : Job) (id : Nat) : Gather := tabGet ⟨0, 0, 0, 0, 0, 0, false, false, 0⟩ x.gathers id
/-- Change a gather record. -/
def State.mapGather (s : State) (j id : Nat) (f : Gather → Gather) : State :=
  s.onJob j (fun x => match tabFind x.gathers id with | none => x | some g => { x with gathers := tabSet x.gathers id (f g) })
/-- Two ranges overlap. -/
def overlaps (a n b m : Nat) : Bool := decide (a < b + m) && decide (b < a + n)
/-- A gather transfer reads the buffer that the next version would take (R216). -/
def State.bufRead (s : State) (j : Nat) (l : Layer) : Bool :=
  s.xp.qps.any (fun q => decide (q.2.job = j) && q.2.wrs.any (fun w => w.reads = some (l.id, l.bufNo (l.version + 1))))
/-- A snapshot has yet to copy what a further version of the layer would overwrite (R177): the version of
its step, or the master weights. -/
def Job.snapWaits (x : Job) (l : Layer) : Bool :=
  x.snaps.any (fun n => n.armed && !n.copied && l.owner &&
    (decide (l.commits = n.step + 2) || (decide (l.commits = n.step + 1) && (l.single || n.master))))
/-- A further version may be written (R161, R162, R177, R216). -/
def State.canPlace (s : State) (j : Nat) (l : Layer) : Bool :=
  l.placed.isNone && (!l.single || l.ref = 0) && !s.bufRead j l && !(s.job? j).any (fun x => x.snapWaits l)

/-- OP of a descriptor (R225). -/
def Coll.op (c : Coll) : Nat := bitsOf (c.w.getD 0 0) 3 0
/-- LAYERBUF -/
def Coll.layerbuf (c : Coll) : Bool := (c.w.getD 0 0).testBit 63
/-- REGATHER -/
def Coll.regather (c : Coll) : Bool := (c.w.getD 0 0).testBit 62
/-- LAYER_ID -/
def Coll.layer (c : Coll) : Nat := bitsOf (c.w.getD 0 0) 41 26
/-- SELF -/
def Coll.self (c : Coll) : Nat := bitsOf (c.w.getD 0 0) 25 20
/-- ROOT -/
def Coll.root (c : Coll) : Nat := bitsOf (c.w.getD 0 0) 19 14
/-- Members. -/
def Coll.n (c : Coll) : Nat := bitsOf (c.w.getD 0 0) 13 8 + 1
/-- GRAD -/
def Coll.grad (c : Coll) : Bool := (c.w.getD 0 0).testBit 6
/-- BF16 on the wire, GRAD only -/
def Coll.bf16 (c : Coll) : Bool := c.grad && bitsOf (c.w.getD 0 0) 5 4 = 1
/-- LEN -/
def Coll.len (c : Coll) : Nat := bitsOf (c.w.getD 1 0) 63 24
/-- Bytes of a chunk -/
def Coll.chunk (c : Coll) : Nat := 2 ^ bitsOf (c.w.getD 1 0) 23 16
/-- A layer occupies its memory from the start of its first gather, and while it is not DROPPED (R220; log
75). -/
def Job.occupies (x : Job) (m : Layer) : Bool :=
  ((x.gather m.id).gathers ≠ 0 && !(x.gather m.id).dropped) ||
    x.colls.any (fun e => decide (e.2.op = 6) && decide (e.2.layer = m.id) && e.2.granted)
/-- Another GATHERED_DROP layer occupies the layer's memory (R220). -/
def Job.occupied (x : Job) (l : Layer) : Bool :=
  x.layers.any (fun m => decide (m.id ≠ l.id) && overlaps m.buf0 m.size l.buf0 l.size && x.occupies m)
/-- May the engine grant credits for a collective (R161, R162, R220, R229)? -/
def State.mayGrant (s : State) (j : Nat) (c : Coll) : Bool :=
  match s.job? j with
  | none => false
  | some x =>
    match x.layer? c.layer with
    | none => true
    | some l =>
      if c.op = 6 then !x.occupied l && (c.regather || s.canPlace j l)
      else if c.op = 1 ∧ c.layerbuf ∧ c.self ≠ c.root then s.canPlace j l else true
/-- Grant what may be granted now: a stalled layer goes on (R161), a held gather starts (R220). -/
def State.regrant (s : State) (j : Nat) : State :=
  match s.job? j with
  | none => s
  | some x => x.colls.foldl (fun st e =>
      if e.2.granted ∨ !st.mayGrant j e.2 then st
      else
        let s1 := st.onJob j (fun y => { y with colls := tabSet y.colls e.1 { e.2 with granted := true } })
        (s1.mapLayer j e.2.layer (fun l => { l with stalled := false })).mapGather j e.2.layer (fun g => { g with heldFor := false })) s
/-- A version is whole in its place: it waits for REF (R159); `skip` and an equal version move only
COMMIT_CTR (R160, R217). -/
def State.markPlaced (s : State) (j id v : Nat) (skip : Bool) : State :=
  s.mapLayer j id (fun l => { l with placed := some v, skipCommit := skip || v = l.version, skippedLast := skip, skips := if skip then (l.skips + 1) % 2 ^ 32 else l.skips, waitedRef := if l.ref = 0 then l.waitedRef else (l.waitedRef + 1) % 2 ^ 32 })
/-- LAYER_COMMIT (R159, R160): the placed version becomes the committed one once REF is zero, and
COMMIT_CTR advances by 1. -/
def execLayerCommit (job layer : Nat) (s : State) : Out :=
  .next (match s.job? job with
    | none => s
    | some x =>
      match x.layer? layer with
      | none => s
      | some l =>
        match l.placed with
        | none => s
        | some v =>
          if !jobRuns x ∨ l.ref ≠ 0 then s
          else
            let s1 := s.mapLayer job layer (fun l => { l with placed := none, skipCommit := false, version := if l.skipCommit then l.version else v, prev := l.version, wrapped := l.wrapped || (!l.skipCommit && v < l.version), commits := l.commits + 1, decision := none })
            (s1.addCtr (x.ctrBase + l.ctr) 1).regrant job)

/-! ### Completion of a job's task -/

/-- Bytes of a recompute segment (R155, R164). -/
def Job.segBytes (x : Job) (k : Nat) : Nat := tabGet 0 x.rsegs k
/-- Recompute-segment accounting of a completed task (R155). -/
def segNote (x : Job) (t : Task) : Job :=
  let r := x.range
  let k := t.rseg
  if k = 0 then x
  else if t.phase = 0 then
    (if (tabFind r.segF k).isSome then x
     else
       let live := r.ckptLive + x.segBytes k
       { x with range := { r with segF := tabSet r.segF k (x.segBytes k), ckptLive := live, ckptPeak := max r.ckptPeak live } })
  else if t.phase = 1 then
    let n := tabGet 0 r.segB k + 1
    if n = tabGet 0 x.segB k then
      let live := r.ckptLive - tabGet 0 r.segF k
      { x with range := { r with segB := tabSet r.segB k n, segF := tabSet r.segF k 0, ckptLive := live, ckptPeak := max r.ckptPeak live } }
    else { x with range := { r with segB := tabSet r.segB k n } }
  else x
/-- What a job notes of a completed task: counts, REF, W tasks, the overflow flag (R134, R158, R165). -/
def Job.account (x : Job) (t : Task) (num0 tick : Nat) : Job :=
  let y := segNote { x with done := x.done + 1, lastMove := tick } t
  let lo := match x.named t with
    | none => y
    | some l => y.mapLayer l.id (fun m => { m with ref := if t.phase = 1 then m.ref - 1 else m.ref, fLeft := if t.phase = 0 then m.fLeft - 1 else m.fLeft })
  { lo with range := { lo.range with wLeft := if t.phase = 2 then lo.range.wLeft - 1 else lo.range.wLeft, ovfNow := lo.range.ovfNow || ((t.phase = 1 || t.phase = 2) && num0.testBit 30) } }
/-- Drop a GATHERED_DROP layer (R218): slots whose tag lies in its buffer become invalid on every core of
the job, and the layer is DROPPED. -/
def State.dropLayer (s : State) (j : Nat) (x : Job) (l : Layer) : State :=
  let inBuf := fun (sl : Slot) => decide (l.buf0 ≤ sl.addr) && decide (sl.addr < l.buf0 + l.size)
  let cl := fun (sl : Slot) => if inBuf sl then { sl with valid := false, used := 0 } else sl
  let s1 := { s with cores := tabMap (fun c k => if x.groups.testBit (c / 64) then { k with slotA := cl k.slotA, slotB := cl k.slotB } else k) s.cores }
  (s1.mapGather j l.id (fun g => { g with dropped := true })).regrant j
/-- A stopping job whose running tasks have all completed stops, and JOB_STOP answers (R146); pending
values take effect (R54). -/
def State.tryStopped (s : State) (j : Nat) : State :=
  match s.job? j with
  | none => s
  | some x =>
    if x.st ≠ .stopping ∨ x.upds ≠ [] ∨ s.cores.any (fun c => runJob c.2 = some j) then s
    else
      let s1 := s.setJob j { x with st := .stopped }
      (((s1.jobBoundary j).boundary (.xp j)).answerWhere (fun w => w.op = 0x0403 && w.what = j) stOk []).pewterJob j
/-- A task ran past its declared duration (R146). -/
def durOver (t : Task) (ticks : Nat) : Bool := decide (1 ≤ t.dur) && decide (t.dur ≤ 8190) && decide (t.dur < ticks)
/-- Count a completed task on the group of the core that ran it. -/
def State.countDone (s : State) (core : Nat) (t : Task) (start : Nat) : State :=
  s.stat (core / 64) (fun g => { g with completed := (g.completed + 1) % 2 ^ 64, durOver := if durOver t (s.tick - start) then (g.durOver + 1) % 65536 else g.durOver })
/-- A task of a job fails (R145): its record, no signal, the fence. -/
def State.failJobTask (s : State) (j : Nat) (t : Task) (core status : Nat) : State :=
  match s.job? j with
  | none => s
  | some x =>
    let a := x.cpl + 16 * bitsOf (t.word 3) 63 48
    let (cyc, s1) := s.draw
    let s2 := if bitsOf (t.word 3) 63 48 < x.cplCount ∧ (badIn s.mem.badLines a 16).isSome then s1.noteUe a false else s1.taskRecord x t { status := status } core cyc
    s2.fence j 0x01 0 0 status core
/-- A task of a job completes (R142, R144): its record, its signal, then what its completion changes. A
record that meets an uncorrectable access fails the task (R144). -/
def State.endJobTask (s : State) (j : Nat) (t : Task) (core : Nat) (r : Result) (start : Nat) : State :=
  match s.job? j with
  | none => s
  | some x =>
    if r.status ≠ 0 then s.failJobTask j t core r.status
    else if t.cpl ∧ (badIn s.mem.badLines (x.cpl + 16 * bitsOf (t.word 3) 63 48) 16).isSome then s.failJobTask j t core tsMemory
    else
      let (cyc, s0) := s.draw
      let s1 := if t.cpl then s0.taskRecord x t r core cyc else s0
      let s2 := if t.sigInc = 0 then s1 else s1.addCtr (x.ctrBase + t.sigId) t.sigInc
      let s3 := (s2.countDone core t start).onJob j (fun y => y.account t r.num0 s.tick)
      let s4 := match x.named t with
        | none => s3
        | some l => if t.phase = 0 ∧ l.fLeft = 1 ∧ (x.gather l.id).mode = 2 then s3.dropLayer j x l else s3
      (s4.regrant j).tryStopped j

end Sys2Proof.Machine
end

