-- ==== Sys2Proof/Machine/Collect.lean ====
section
/-! DEFINITION. Mapping a job: the map and the gather table (R208 to R220, R234, R235), and the collective
engine (R225 to R233): hand-off, the operations, arriving messages, completion. -/

namespace Sys2Proof.Machine

/-! ### Descriptors (R226 to R228) -/

/-- Is ROOT used by an operation? -/
def collRooted (op : Nat) : Bool := op = 0 || op = 1 || op = 6
/-- Reduction or flag exchange with FP32 or BF16 elements. -/
def collTyped (w0 : Nat) : Bool := bitsOf w0 5 4 < 2
/-- The limits of R226 and R228 that need no layer table; `ctrs` is the job's counter count. -/
def collOk (ctrs : Nat) (w : List Nat) : Bool :=
  let w0 := w.getD 0 0
  let w1 := w.getD 1 0
  let op := bitsOf w0 3 0
  let rf := bitsOf w0 5 4
  let n := bitsOf w0 13 8 + 1
  bitsOf w0 61 56 = 0 && op < 7 && bitsOf w0 25 20 < n && (!collRooted op || bitsOf w0 19 14 < n) &&
  (!w0.testBit 63 || op = 1 || op = 6) && (!w0.testBit 62 || op = 6) && (!w0.testBit 6 || op = 0 || op = 2 || op = 3) &&
  rf < 3 && (rf ≠ 1 || w0.testBit 6) && (rf ≠ 2 || (op ≠ 0 && op ≠ 3)) && (!collTyped w0 || bitsOf w1 63 24 % 4 = 0) &&
  12 ≤ bitsOf w1 23 16 && bitsOf w1 23 16 ≤ 20 &&
  [2, 3, 4, 5].all (fun i => wordOk (w.getD i 0) && !(w.getD i 0).testBit 63) &&
  (w0.testBit 7 || op = 4 || w.getD 5 0 = 0) && w.getD 6 0 < 2 ^ 32 && w.getD 7 0 = 0 &&
  (bitsOf w1 15 0 = 0 || bitsOf w0 55 42 < ctrs)
/-- Under LAYERBUF, LEN is the layer's SIZE (R228). -/
def collLayerOk (x : Job) (w : List Nat) : Bool :=
  let w0 := w.getD 0 0
  !w0.testBit 63 || (match x.layer? (bitsOf w0 41 26) with | none => false | some l => decide (l.size = bitsOf (w.getD 1 0) 63 24))
/-- Entries of the length table that the engine reads: parts, or for ALL_TO_ALL what it sends. -/
def collLens (w0 : Nat) : Nat := if w0.testBit 7 || bitsOf w0 3 0 = 4 then bitsOf w0 13 8 + 1 else 0
/-- Length of part j (R226, R227). -/
def Coll.part (c : Coll) (j : Nat) : Nat := if c.lens = [] then c.len else c.lens.getD j 0
/-- Sum of the lengths of parts 0 to j - 1. -/
def Coll.offset (c : Coll) (j : Nat) : Nat := ((upTo j).map c.part).foldl (· + ·) 0
/-- SRC and DST addresses. -/
def Coll.src (c : Coll) : Nat := addrOf (c.w.getD 2 0)
/-- DST. -/
def Coll.dst (c : Coll) : Nat := addrOf (c.w.getD 3 0)
/-- Bytes of SRC that this member reads. -/
def Coll.srcLen (c : Coll) : Nat :=
  match c.op with
  | 0 => c.len
  | 1 => if c.self = c.root ∧ !c.layerbuf then c.len else 0
  | 2 => c.part c.self
  | 3 => c.offset c.n
  | 4 => c.offset c.n
  | 5 => c.part c.self
  | _ => 0
/-- Bytes of DST that this member writes, where the descriptor fixes them. -/
def Coll.dstLen (c : Coll) : Nat :=
  match c.op with
  | 0 => if c.self = c.root then c.len else 0
  | 1 => if c.self ≠ c.root ∧ !c.layerbuf then c.len else 0
  | 2 => c.offset c.n
  | 3 => c.part c.self
  | 5 => c.part ((c.self + c.n - 1) % c.n)
  | _ => 0
/-- Why a task may not use a span of device memory: the TSTATUS, as an access of it would end. -/
def State.extentBad (s : State) (part a n : Nat) : Bool := n ≠ 0 && s.span (some part) a n ≠ .ok
/-- The engine accepts a collective (R124, R229): descriptor and tables are read, limits and extents
checked. `version` and `skip` come with a broadcast that Bronze hands over. A placement that may not start
yet counts a stall (R161) or a wait for an occupant (R220). -/
def State.handOff (s : State) (x : Ctx) (j a version : Nat) (skip : Bool) : TRes State := do
  match s.job? j with
  | none => .error (s, tsProgram)
  | some y =>
    let db ← s.wRead x a 0 64
    let w := words64 db 8
    if !collOk y.ctrCount w || !collLayerOk y w then .error (s, tsProgram)
    else
      let w0 := w.getD 0 0
      let n := bitsOf w0 13 8 + 1
      let mb ← s.wRead x (w.getD 4 0) 0 (32 * n)
      let lb ← s.wRead x (w.getD 5 0) 0 (8 * collLens w0)
      let ms := (upTo n).map (fun i => (⟨leAt mb (32 * i) 1, leAt mb (32 * i + 4) 4 % 65536, leAt mb (32 * i + 8) 4, leAt mb (32 * i + 16) 8⟩ : Member))
      let c0 : Coll := { w := w, members := ms, lens := (upTo (collLens w0)).map (fun i => leAt lb (8 * i) 8 % 2 ^ 40), version := version, skip := skip, step := y.step }
      if s.extentBad x.part c0.src c0.srcLen || s.extentBad x.part c0.dst c0.dstLen ||
          (c0.op = 4 && s.extentBad x.part (addrOf (w.getD 5 0)) (16 * n)) then .error (s, tsAddress)
      else
        let ok := s.mayGrant j c0
        let s1 := s.onJob j (fun z => { z with colls := tabSet z.colls (w.getD 6 0) { c0 with granted := ok } })
        if ok then .ok s1
        else if c0.op = 6 ∧ (y.layer? c0.layer).any y.occupied then
          .ok (s1.mapGather j c0.layer (fun g => { g with heldFor := true, waits := (g.waits + 1) % 2 ^ 32 }))
        else .ok (s1.mapLayer j c0.layer (fun l => { l with stalled := true, stalls := (l.stalls + 1) % 2 ^ 32 }))
/-- COLL (R124): the task completes when the engine has accepted the hand-off; it waits while the engine
still holds a collective of the same id. -/
def execTaskColl (core : CoreId) (s : State) : Out :=
  let c := core.val
  .next (match s.running c with
    | none => s
    | some (x, t) =>
      match t.owner with
      | .job j =>
        if t.kind ≠ 7 ∨ t.sec.isSome then s
        else if t.word 6 ≠ 0 ∨ t.word 7 ≠ 0 then s.setDone c { status := tsProgram }
        else
          let busy := match s.wRead x (t.word 5) 48 8, s.job? j with
            | .ok bs, some y => (tabFind y.colls (leNat bs)).isSome
            | _, _ => false
          if busy then s
          else match s.handOff x j (t.word 5) 0 false with
            | .ok s1 => s1.setDone c {}
            | .error (s1, e) => s1.setDone c { status := e }
      | _ => s)

/-! ### Sending -/

/-- The 32-byte header of a collective message (R231). -/
def collHeader (x : Job) (op layer coll step flags version chunk : Nat) : List Byte :=
  natLE 4 x.epoch ++ natLE 8 step ++ natLE 2 layer ++ natLE 1 op ++ natLE 1 flags ++ natLE 4 version ++
  natLE 4 coll ++ natLE 1 (selfIdx x) ++ zeros 3 ++ natLE 4 chunk
/-- Post a message on a QP as the engine's own work request. -/
def State.postMsg (s : State) (qpn rkey addr : Nat) (body : List Byte) (coll : Option Nat) (reads : Option (Nat × Nat)) : State :=
  match s.qp? qpn with
  | none => s
  | some q =>
    let w := [1, 0, body.length, addr % 2 ^ 48, rkey, 0, 0, qpn * 2 ^ 32]
    s.setQp qpn { q with wrs := q.wrs ++ [{ num := q.wrNum, w := w, body := some body, coll := coll, reads := reads }], wrNum := q.wrNum + 1 }
/-- Data cut into chunks; no data is one empty chunk. -/
def cutChunks (n : Nat) (bs : List Byte) : List (List Byte) :=
  if bs = [] then [[]] else (upTo (ceilDiv bs.length n)).map (fun i => (bs.drop (i * n)).take n)
/-- Data as it goes on the wire: FP32 words, or BF16 halves rounded RNE (R230). -/
def Coll.wire (c : Coll) (bs : List Byte) : List Byte :=
  if c.bf16 then (wordsLE bs (bs.length / 4)).flatMap (fun v => natLE 2 ((bf16of v) >>> 16).toNat) else bs
/-- Flags of a header: OVF as it stands, SKIP, LAST (R165, R231). -/
def Coll.flags (c : Coll) (x : Job) (last : Bool) : Nat :=
  flagAt ((c.grad || c.op = 1) && x.range.ovfNow) 0 + flagAt c.skip 1 + flagAt last 3
/-- Send data to a member of the table, chunk by chunk. -/
def State.collSend (s : State) (x : Job) (id : Nat) (c : Coll) (pos : Nat) (bs : List Byte) : State :=
  match c.members[pos]? with
  | none => s
  | some m =>
    let cs := cutChunks c.chunk bs
    cs.zipIdx.foldl (fun st e =>
      let h := collHeader x c.op c.layer id x.step (c.flags x (e.2 + 1 = cs.length)) c.version e.2
      st.postMsg m.qpn m.rkey (m.addr + e.2 * c.chunk) (h ++ c.wire e.1) (some id) none) s
/-- Positions other than this member's own. -/
def Coll.others (c : Coll) : List Nat := (upTo c.n).filter (fun i => i ≠ c.self)
/-- The members that a member sends to in an operation. -/
def Coll.targets (c : Coll) : List Nat :=
  match c.op with
  | 0 => if c.self = c.root then [] else [c.root]
  | 1 => if c.self = c.root then c.others else []
  | 5 => if c.n = 1 then [] else [(c.self + 1) % c.n]
  | 6 => if c.self = c.root then [] else [c.root]
  | _ => c.others
/-- Every connection that the member sends on is in RTS. -/
def State.peersUp (s : State) (j : Nat) (c : Coll) : Bool :=
  c.targets.all (fun i => match s.qp? ((c.members.getD i ⟨0, 0, 0, 0⟩).qpn) with | none => false | some q => decide (q.job = j) && decide (q.st = .rts))
/-- Where a member's own contribution to a reduction lies, and its length (R225). -/
def Coll.ownAt (c : Coll) : Nat × Nat := if c.op = 3 then (c.src + c.offset c.self, c.part c.self) else (c.src, c.len)
/-- Own contribution to a reduction, before any other (R230): rounded to BF16 under RFMT BF16. -/
def State.ownSum (s : State) (c : Coll) : Option (List Word) :=
  let n := c.ownAt.2
  (if n = 0 then some [] else s.devRead c.ownAt.1 n).map (fun bs => (wordsLE bs (n / 4)).map (fun v => if c.bf16 then bf16of v else v))
/-- Change a collective. -/
def State.mapColl (s : State) (j id : Nat) (f : Coll → Coll) : State :=
  s.onJob j (fun x => match tabFind x.colls id with | none => x | some c => { x with colls := tabSet x.colls id (f c) })
/-- An uncorrectable read of the engine fences its job (R271). -/
def State.collBad (s : State) (j a n : Nat) : State := (s.devReadBad a n).fence j 0x09 0 0 0 0
/-- Read for the engine, then go on. -/
def State.collRead (s : State) (j a n : Nat) (k : List Byte → State) : State :=
  if n = 0 then k [] else match s.devRead a n with | none => s.collBad j a n | some bs => k bs
/-- Where a broadcast takes its data: under LAYERBUF the layer buffer that holds the version, when SRC lies
in the layer's BUF0 (log 29). -/
def Coll.from (c : Coll) (x : Job) : Nat :=
  match x.layer? c.layer with
  | none => c.src
  | some l => if c.layerbuf ∧ l.buf0 ≤ c.src ∧ c.src < l.buf0 + l.size then l.buf c.version + (c.src - l.buf0) else c.src
/-- A member's own part of an operation: what it sends, and its own data where it counts first. -/
def State.collAct (s : State) (j id : Nat) (x : Job) (c : Coll) : State :=
  let fin := fun (st : State) => st.mapColl j id (fun d => { d with sent := true })
  match c.op with
  | 0 =>
    if c.self = c.root then
      (if c.sum ≠ [] then fin s
       else match s.ownSum c with
        | none => s.collBad j c.src c.len
        | some v => fin (s.mapColl j id (fun d => { d with sum := v })))
    else s.collRead j c.src c.len (fun bs => fin (s.collSend x id c c.root bs))
  | 1 =>
    if c.self ≠ c.root then s
    else if c.skip then fin (c.others.foldl (fun st i => st.collSend x id c i []) s)
    else s.collRead j (c.from x) c.len (fun bs => fin (c.others.foldl (fun st i => st.collSend x id c i bs) s))
  | 2 =>
    s.collRead j c.src (c.part c.self) (fun bs =>
      fin (c.others.foldl (fun st i => st.collSend x id c i bs) (s.devWrite (c.dst + c.offset c.self) bs)))
  | 3 =>
    s.collRead j c.src (c.offset c.n) (fun bs =>
      let s1 := c.others.foldl (fun st i => st.collSend x id c i ((bs.drop (c.offset i)).take (c.part i))) s
      if c.sum ≠ [] then fin s1
      else match s1.ownSum c with
        | none => s1.collBad j c.src (c.offset c.n)
        | some v => fin (s1.mapColl j id (fun d => { d with sum := v })))
  | 4 =>
    s.collRead j c.src (c.offset c.n) (fun bs =>
      let s1 := c.others.foldl (fun st i =>
        match c.members[i]? with
        | none => st
        | some m => st.postMsg m.qpn m.rkey m.addr (collHeader x 4 c.layer id x.step 4 0 (c.part i)) (some id) none) s
      let s2 := c.others.foldl (fun st i => st.collSend x id c i ((bs.drop (c.offset i)).take (c.part i))) s1
      let s3 := s2.devWrite (addrOf (c.w.getD 5 0) + 8 * (c.n + c.self)) (natLE 8 (c.part c.self))
      fin (s3.mapColl j id (fun d => { d with counts := tabSet d.counts c.self (c.part c.self) })))
  | 5 =>
    s.collRead j c.src (c.part c.self) (fun bs =>
      if c.n = 1 then fin (s.devWrite c.dst bs) else fin (s.collSend x id c ((c.self + 1) % c.n) bs))
  | _ =>
    match c.members[c.root]? with
    | none => s
    | some m =>
      let s1 := s.postMsg m.qpn m.rkey m.addr (collHeader x 6 c.layer id x.step 8 0 0) (some id) none
      s1.mapColl j id (fun d => { d with sent := true, step := x.step })
/-- An operation's row: the member does its own part once, when its connections are up; a gather also needs
its buffer (R161, R162, R220). -/
def State.collRow (s : State) (op j id : Nat) : State :=
  match s.job? j with
  | none => s
  | some x =>
    match tabFind x.colls id with
    | none => s
    | some c => if !jobRuns x ∨ c.op ≠ op ∨ c.sent ∨ !s.peersUp j c ∨ (op = 6 ∧ !c.granted) then s else s.collAct j id x c
/-- REDUCE_TO_OWNER (R225). -/
def execReduceToOwner (job coll : Nat) (s : State) : Out := .next (s.collRow 0 job coll)
/-- BCAST_FROM_OWNER (R225). -/
def execBcastFromOwner (job coll : Nat) (s : State) : Out := .next (s.collRow 1 job coll)
/-- ALL_GATHER (R225). -/
def execAllGather (job coll : Nat) (s : State) : Out := .next (s.collRow 2 job coll)
/-- REDUCE_SCATTER (R225). -/
def execReduceScatter (job coll : Nat) (s : State) : Out := .next (s.collRow 3 job coll)
/-- ALL_TO_ALL (R227). -/
def execAllToAll (job coll : Nat) (s : State) : Out := .next (s.collRow 4 job coll)
/-- RING_SHIFT (R224, R225). -/
def execRingShift (job coll : Nat) (s : State) : Out := .next (s.collRow 5 job coll)
/-- LAYER_GATHER (R217). -/
def execLayerGather (job coll : Nat) (s : State) : Out := .next (s.collRow 6 job coll)

/-! ### Arriving messages (R232) -/

/-- May a member at a position send this message under the credits granted (R229)? -/
def Coll.expects (c : Coll) (m : CollMsg) (pos : Nat) : Bool :=
  c.granted && decide (c.op = m.op) && decide (pos < c.n) && decide (pos ≠ c.self) && !c.lasts.contains pos &&
  (match c.op with
   | 0 => c.self = c.root
   | 1 => pos = c.root
   | 4 => m.counts != (tabFind c.counts pos).isSome
   | 5 => c.n ≠ 1 && (pos + 1) % c.n = c.self
   | 6 => c.sent && pos = c.root
   | _ => true)
/-- The position of a job member in the table. -/
def Coll.posOf (c : Coll) (member : Nat) : Nat := ((upTo c.n).find? (fun i => (c.members.getD i ⟨64, 0, 0, 0⟩).idx = member)).getD c.n
/-- Two members lie in one node (R209). -/
def Job.sameNode (x : Job) (a b : Nat) : Bool :=
  match x.map with
  | none => a = b
  | some m => decide (a < m.n) && decide (b < m.n) && decide (m.node.getD a 0 = m.node.getD b 0)
/-- FP32 words of a chunk of a reduction as it arrives. -/
def Coll.unwire (c : Coll) (bs : List Byte) : List Word :=
  if c.bf16 then (upTo (bs.length / 2)).map (fun i => (BitVec.ofNat 32 (leAt bs (2 * i) 2)) <<< 16) else wordsLE bs (bs.length / 4)
/-- Add words into a running sum from an index on (R230). -/
def addFrom (sum : List Word) (i : Nat) (vs : List Word) : List Word :=
  sum.take i ++ ((sum.drop i).take vs.length).zipWith add32 vs ++ sum.drop (i + vs.length)
/-- Note bytes received from a position, and its last chunk. -/
def Coll.note (c : Coll) (pos n : Nat) (last : Bool) : Coll :=
  { c with got := tabSet c.got pos (tabGet 0 c.got pos + n), lasts := if last then pos :: c.lasts else c.lasts }
/-- Everything that a position has to send has arrived. -/
def Coll.whole (c : Coll) (pos total : Nat) : Bool := if total = 0 then c.lasts.contains pos else total ≤ tabGet 0 c.got pos
/-- Place received bytes in the partition's memory; outside it the job is fenced (log 29). -/
def State.collPlace (s : State) (j a : Nat) (x : Job) (bs : List Byte) : State :=
  if s.extentBad x.part a bs.length then s.fence j 0x07 0 0 0 0 else s.devWrite a bs
/-- Where ALL_TO_ALL data from a position goes in DST: behind the parts of the positions before it, once
their counts are known (R227). -/
def Coll.inOffset (c : Coll) (pos : Nat) : Option Nat :=
  if (upTo pos).all (fun i => i = c.self || (tabFind c.counts i).isSome) then
    some (((upTo pos).map (fun i => if i = c.self then c.part i else tabGet 0 c.counts i)).foldl (· + ·) 0)
  else none
/-- ALL_TO_ALL data that came before its place was known is placed as counts arrive (R227). -/
def State.placeEarly (s : State) (j : Nat) (x : Job) (c : Coll) : State :=
  c.early.foldl (fun st e => match c.inOffset e.1 with
    | none => st
    | some off => st.collPlace j (c.dst + off + e.2.1 * c.chunk) x e.2.2) s
/-- Place or combine a message that has passed the checks (R232, row 5). -/
def State.collTake (s : State) (j id : Nat) (x : Job) (c : Coll) (m : CollMsg) (pos : Nat) : State :=
  let n := m.payload.length
  let upd := fun (st : State) (d : Coll) => st.onJob j (fun y => { y with colls := tabSet y.colls id d })
  match c.op with
  | 1 =>
    let c1 := { c.note pos n (m.last || m.skip) with version := m.version, skip := m.skip }
    let a := if c.layerbuf then ((x.layer? c.layer).map Layer.altBuf).getD c.dst else c.dst
    let s1 := upd (if m.skip then s else s.collPlace j (a + m.chunkNo * c.chunk) x m.payload) c1
    if c.layerbuf ∧ (m.skip ∨ c1.whole pos c.len) then s1.markPlaced j c.layer m.version m.skip else s1
  | 2 =>
    let bs := if c.bf16 then (c.unwire m.payload).flatMap (fun v => natLE 4 v.toNat) else m.payload
    upd (s.collPlace j (c.dst + c.offset pos + m.chunkNo * c.chunk) x bs) (c.note pos bs.length m.last)
  | 4 =>
    if m.counts then
      let c1 := { c with counts := tabSet c.counts pos m.chunkNo }
      upd ((s.devWrite (addrOf (c.w.getD 5 0) + 8 * (c.n + pos)) (natLE 8 m.chunkNo)).placeEarly j x c1)
        { c1 with early := c1.early.filter (fun e => (c1.inOffset e.1).isNone) }
    else match c.inOffset pos with
      | some off => upd (s.collPlace j (c.dst + off + m.chunkNo * c.chunk) x m.payload) (c.note pos n m.last)
      | none => upd s { c.note pos n m.last with early := c.early ++ [(pos, m.chunkNo, m.payload)] }
  | 5 => upd (s.collPlace j (c.dst + m.chunkNo * c.chunk) x m.payload) (c.note pos n m.last)
  | 6 =>
    match x.layer? c.layer with
    | none => s
    | some l =>
      if m.empty then
        (s.raise 0x3003 [x.part] true x.part (natLE 2 j ++ natLE 2 l.id ++ natLE 4 l.version ++ natLE 4 0 ++ natLE 1 m.sender ++ natLE 1 (flagAt c.regather 0))).fence j 0x05 0 0 0 0
      else
        let a := if c.regather then l.buf l.version else l.altBuf
        let s1 := if !c.regather ∧ m.version = l.version then s else s.collPlace j (a + m.chunkNo * c.chunk) x m.payload
        upd s1 { c.note pos n m.last with version := m.version }
  | _ =>
    match (if c.sum = [] then s.ownSum c else some c.sum) with
    | none => s.collBad j c.ownAt.1 c.ownAt.2
    | some sum =>
      let vs := c.unwire m.payload
      upd s { c.note pos (4 * vs.length) m.last with sum := addFrom sum (m.chunkNo * c.chunk / 4) vs }
/-- A request of a gatherer at its source (R216): held until it is served. -/
def State.gatherRequest (s : State) (j : Nat) (x : Job) (m : CollMsg) : State :=
  match x.layer? m.layerId with
  | none => s.fence j 0x07 0 0 0 0
  | some l =>
    if ((x.gather l.id).mode = 0 ∨ l.owner) ∧ x.sameNode (selfIdx x) m.sender then
      s.mapLayer j l.id (fun y => { y with requests := y.requests ++ [(m.sender, m.step, m.collId)] })
    else s.fence j 0x07 0 0 0 0
/-- The flag of a step (R165): the current one's, or one that has not begun here. -/
def State.orFlag (s : State) (j step : Nat) : State :=
  s.onJob j (fun x => if step = x.step then { x with range := { x.range with ovfNow := true } }
    else if x.step < step then { x with range := { x.range with flags := tabSet x.range.flags step true } } else x)
/-- COLL_MESSAGE_RECEIVE (R232). -/
def State.collReceive (s : State) (j : Nat) (m : CollMsg) : State :=
  match s.job? j with
  | none => s
  | some x =>
    if !jobRuns x then s
    else if m.epoch ≠ x.epoch then s.setJob j { x with epochDrop := satAdd 0xFF x.epochDrop 1 }
    else match tabFind x.colls m.collId with
    | none => if m.op = 6 then s.gatherRequest j x m else s.fence j 0x07 0 0 0 0
    | some c =>
      let pos := c.posOf m.sender
      if m.op = 6 ∧ c.op ≠ 6 then s.gatherRequest j x m
      else if !c.expects m pos then s.fence j 0x07 0 0 0 0
      else
        let want := if c.op = 6 then some c.step else if c.grad || c.layerbuf then (x.layer? c.layer).map (fun l => l.commits) else none
        match want with
        | some e =>
          if m.step ≠ e then
            (s.raise 0x3002 [x.part] true x.part (natLE 2 j ++ natLE 2 c.layer ++ natLE 1 m.sender ++ natLE 1 m.op ++ natLE 2 0 ++ natLE 4 m.step ++ natLE 4 e)).fence j 0x03 0 0 0 0
          else
            let s1 := if m.ovf ∧ (c.grad || c.layerbuf) then s.orFlag j m.step else s
            s1.collTake j m.collId x c m pos
        | none =>
          let s1 := if m.ovf ∧ (c.grad || c.layerbuf) then s.orFlag j m.step else s
          s1.collTake j m.collId x c m pos
/-- COLL_MESSAGE_RECEIVE (R232). -/
def execCollMessageReceive (job : Nat) (m : CollMsg) (s : State) : Out := .next (s.collReceive job m)

/-- GATHER_REQUEST_SERVE (R216): the source answers from its committed version once it has made s commits;
a request that comes too late gets an empty response (log 30). -/
def execGatherRequestServe (job layer : Nat) (s : State) : Out :=
  .next (match s.job? job with
    | none => s
    | some x =>
      match x.layer? layer with
      | none => s
      | some l =>
        match takeFirst (fun q : Nat × Nat × Nat => decide (q.2.1 ≤ l.commits)) l.requests with
        | none => s
        | some ((snd, step, id), rest) =>
          match s.xp.qps.find? (fun e => decide (e.2.job = job) && decide (e.2.peer = snd) && decide (e.2.st = .rts)) with
          | none => s
          | some (qpn, _) =>
            let s0 := s.mapLayer job layer (fun y => { y with requests := rest })
            if !jobRuns x then s
            else if step < l.commits then s0.postMsg qpn 0 0 (collHeader x 6 layer id step 8 0 0) none none
            else s0.collRead job (l.buf l.version) l.size (fun bs =>
              s0.postMsg qpn 0 0 (collHeader x 6 layer id step 8 l.version 0 ++ bs) none (some (layer, l.bufNo l.version))))

/-! ### Completion (R225, R233) -/

/-- Every message of a collective has been acknowledged. -/
def State.collAcked (s : State) (j id : Nat) : Bool :=
  s.xp.qps.all (fun q => q.2.job ≠ j || q.2.wrs.all (fun w => w.coll ≠ some id))
/-- The completion condition of R225 for this member. -/
def State.collDone (s : State) (j id : Nat) (c : Coll) : Bool :=
  let acked := c.sent && s.collAcked j id
  match c.op with
  | 0 => if c.self = c.root then c.sent && c.others.all (fun i => c.whole i c.len) else acked
  | 1 => if c.self = c.root then acked else c.skip || c.whole c.root c.len
  | 2 => acked && c.others.all (fun i => c.whole i (c.part i))
  | 3 => acked && c.others.all (fun i => c.whole i (c.part c.self))
  | 4 => acked && c.others.all (fun i => match tabFind c.counts i with | none => false | some n => c.whole i n)
  | 5 => acked && (c.n = 1 || c.whole ((c.self + c.n - 1) % c.n) (c.part ((c.self + c.n - 1) % c.n)))
  | _ => c.sent && c.whole c.root c.len
/-- 2^-e of R169; the exponent of the per-tensor phases is 0. -/
def Job.unscale (x : Job) : Word := to32 (.fin false 1 (-(if x.range.phase = 0 then (x.range.e : Int) else 0)))
/-- The result of a reduction: unscaled under GRAD (R169, R230). -/
def Coll.result (c : Coll) (x : Job) : List Word := if c.grad then c.sum.map (fun v => mul32 v x.unscale) else c.sum
/-- A reduction ends: the result is written; a non-finite element sets the flag (R165), and the owner
decides under LAYER agreement (R166). -/
def State.endReduce (s : State) (j : Nat) (x : Job) (c : Coll) : State :=
  let r := c.result x
  let s1 := s.devWrite c.dst (r.flatMap (fun v => natLE 4 v.toNat))
  let s2 := if c.grad ∧ r.any (fun v => !fvFinite (of32 v)) then s1.orFlag j x.step else s1
  if c.op = 0 ∧ c.grad then
    s2.onJob j (fun y => y.mapLayer c.layer (fun l => { l with decision := some y.range.ovfNow }))
  else s2
/-- A gather ends: the record is written (R217), or the regather compared (R219). The flag says that the
task may signal. -/
def State.endGather (s : State) (j : Nat) (x : Job) (c : Coll) : State × Bool :=
  match x.layer? c.layer with
  | none => (s, true)
  | some l =>
    let v := c.version
    let g := x.gather l.id
    let src := (c.members.getD c.root ⟨0, 0, 0, 0⟩).idx
    let buf := if c.regather ∨ v = l.version then l.buf l.version else l.altBuf
    match s.devRead buf l.size with
    | none => (s.collBad j buf l.size, false)
    | some bs =>
      let crc := crc32c bs
      if c.regather then
        (if v ≠ g.version then
          ((s.raise 0x3003 [x.part] true x.part (natLE 2 j ++ natLE 2 l.id ++ natLE 4 l.version ++ natLE 4 v ++ natLE 1 src ++ natLE 1 1)).fence j 0x05 0 0 0 0, false)
         else if crc ≠ g.crc then
          ((s.raise 0x3004 [x.part] true x.part (natLE 2 j ++ natLE 2 l.id ++ natLE 4 g.crc ++ natLE 4 crc ++ natLE 4 v)).fence j 0x06 0 0 0 0, false)
         else (s.mapGather j l.id (fun h => { h with dropped := false, regathers := (h.regathers + 1) % 2 ^ 32 }), true))
      else
        let s1 := s.mapGather j l.id (fun h => { h with version := v, crc := crc, gathers := (h.gathers + 1) % 2 ^ 32, dropped := if v = l.version then h.dropped else false })
        (s1.markPlaced j l.id v false, true)
/-- COLL_COMPLETE (R225, R233): the member's completion condition holds; what remains is written, and the
engine adds SIG_INC to SIG_ID. -/
def execCollComplete (job coll : Nat) (s : State) : Out :=
  .next (match s.job? job with
    | none => s
    | some x =>
      match tabFind x.colls coll with
      | none => s
      | some c =>
        if !jobRuns x ∨ !s.collDone job coll c then s
        else
          let r : State × Bool :=
            match c.op with
            | 0 => (if c.self = c.root then s.endReduce job x c else s, true)
            | 2 => (if c.grad ∧ c.offset c.n = 0 then s.onJob job (fun y => { y with range := { y.range with flagFinal := true } }) else s, true)
            | 3 => (s.endReduce job x c, true)
            | 4 =>
              let off := ((upTo c.self).map (fun i => tabGet 0 c.counts i)).foldl (· + ·) 0
              (s.collRead job (c.src + c.offset c.self) (c.part c.self) (fun bs => s.collPlace job (c.dst + off) x bs), true)
            | 6 => s.endGather job x c
            | _ => (s, true)
          let s1 := r.1.onJob job (fun y => { y with colls := tabDel y.colls coll, lastMove := s.tick })
          let inc := bitsOf (c.w.getD 1 0) 15 0
          if !r.2 ∨ inc = 0 ∨ !((s1.job? job).map jobRuns).getD false then s1
          else s1.addCtr (x.ctrBase + bitsOf (c.w.getD 0 0) 55 42) inc)

/-! ### Map and gather commands (R234, R235) -/

/-- A job that a table command may still change (R164, R234). -/
def State.freshJob (s : State) (r : Req) : Except Nat Job :=
  match s.reqJob r (bitsOf (r.w 0) 15 0) with
  | .error e => .error e
  | .ok x => if x.st = .loaded then .ok x else .error stWrong
/-- Parse the header of a map block (R235). -/
def mapOf (a : List Byte) : JobMap :=
  let b := fun (i : Nat) => leAt a i 1
  { n := leAt a 0 2, self := b 2, stages := b 3, layers := leAt a 4 2, slots := leAt a 6 2, stage := b 10, slotBytes := leAt a 16 8, node := (upTo 64).map (fun i => b (64 + i)), hollow := (upTo 64).map (fun i => b (128 + i)), own := (upTo (leAt a 8 2)).map (fun i => (leAt a (192 + 16 * i) 2, b (192 + 16 * i + 2), leAt a (192 + 16 * i + 8) 8)) }
/-- No element occurs twice. -/
def allDistinct : List Nat → Bool
  | [] => true
  | a :: t => !t.contains a && allDistinct t
/-- The checks of R235; reserved bytes must be 0 (log 73). -/
def mapOk (x : Job) (a : List Byte) (m : JobMap) : Bool :=
  decide (192 ≤ a.length) && decide (1 ≤ m.own.length) && decide (a.length = 192 + 16 * m.own.length) && decide (leAt a 11 5 = 0) && decide (leAt a 24 40 = 0) &&
  (upTo m.own.length).all (fun i => decide (leAt a (192 + 16 * i + 3) 5 = 0)) &&
  decide (1 ≤ m.n) && decide (m.n ≤ 64) && decide (m.self < m.n) && decide (1 ≤ m.stages) && decide (m.stages ≤ 64) &&
  decide (m.stages ≤ m.layers) && decide (m.slots = ceilDiv m.layers m.stages) && decide (m.stage < m.stages) &&
  (upTo 64).all (fun j => if j < m.n then decide (m.node.getD j 0 < 64) else decide (m.node.getD j 0 = 0)) &&
  (upTo 64).all (fun q => if q < m.stages then decide (m.hollow.getD q 0 ≤ m.slots - 1) else decide (m.hollow.getD q 0 = 0)) &&
  decide (m.hollow.foldl (· + ·) 0 = m.stages * m.slots - m.layers) &&
  (upTo 64).all (fun k => decide (((upTo m.n).filter (fun j => m.node.getD j 0 = k)).length ≤ 8)) &&
  allDistinct (m.own.map (·.1)) && m.own.all (fun e => decide (e.2.1 < m.n)) &&
  x.layers.all (fun l => m.own.any (fun e => e.1 = l.id)) &&
  m.own.all (fun e => match x.layer? e.1 with | none => true | some l => decide (e.2.1 = m.self) == l.owner)
/-- JOB_MAP (R234, R235). -/
def cmdJobMap (s : State) (r : Req) : CmdOut :=
  match s.freshJob r with
  | .error e => failWith s e
  | .ok x =>
    let m := mapOf r.arg
    if !mapOk x r.arg m then failWith s stBadArg else okNow (s.setJob (bitsOf (r.w 0) 15 0) { x with map := some m })
/-- JOB_MAP. -/
def execJobMap (mb : MbId) (s : State) : Out := .next (runCmd s mb.val 0x0420 (.block 1) false cmdJobMap)
/-- JOB_GATHER_TABLE (R215, R234); without a map the SOURCE's node cannot be judged (log 31). -/
def cmdJobGatherTable (s : State) (r : Req) : CmdOut :=
  match s.freshJob r with
  | .error e => failWith s e
  | .ok x =>
    let n := r.arg.length / 16
    let es := (upTo n).map (fun i => (leAt r.arg (16 * i) 2, leAt r.arg (16 * i + 2) 1, leAt r.arg (16 * i + 3) 1))
    let rs := (upTo n).all (fun i => leAt r.arg (16 * i + 4) 12 = 0)
    if 4096 < n then failWith s stNoRes
    else if r.arg.length % 16 ≠ 0 ∨ !rs ∨ !allDistinct (es.map (·.1)) ∨ es.any (fun e => 2 < e.2.1 ||
        (e.2.1 ≠ 0 && (match x.map with | none => false | some m => !x.sameNode m.self e.2.2)) ||
        (match x.layer? e.1 with | none => true | some l => e.2.1 = 2 && !l.single)) then failWith s stBadArg
    else
      let gs := es.foldl (fun t e => tabSet t e.1 { mode := e.2.1, source := e.2.2 }) []
      okNow (s.setJob (bitsOf (r.w 0) 15 0) { x with gathers := gs })
/-- JOB_GATHER_TABLE. -/
def execJobGatherTable (mb : MbId) (s : State) : Out := .next (runCmd s mb.val 0x0421 (.block 1) false cmdJobGatherTable)
/-- Owned bytes of a member (R214). -/
def JobMap.owned (m : JobMap) (i : Nat) : Nat := ((m.own.filter (fun e => e.2.1 = i)).map (fun e => e.2.2)).foldl (· + ·) 0
/-- JOB_MAP_STATUS (R214, R234); with a mean of 0 the manual states no IMBALANCE (log 4). -/
def cmdJobMapStatus (s : State) (r : Req) : CmdOut :=
  match s.reqJob r (bitsOf (r.w 0) 15 0) with
  | .error e => failWith s e
  | .ok x =>
    match x.map with
    | none => failWith s stWrong
    | some m =>
      let own := (upTo m.n).map m.owned
      let total := own.foldl (· + ·) 0
      let top := listMax own
      let imb := if total = 0 then s.draw.1 else 1000 * (top * m.n - total) / total
      .done (if total = 0 then s.draw.2 else s) stOk (natLE 8 (m.owned m.self) ++ natLE 8 top ++ natLE 8 (total / m.n) ++ natLE 4 imb ++ natLE 1 m.stage ++ natLE 1 (m.hollow.getD m.stage 0))
/-- JOB_MAP_STATUS. -/
def execJobMapStatus (mb : MbId) (s : State) : Out := .next (runCmd s mb.val 0x0422 (.exact 1) false cmdJobMapStatus)
/-- JOB_GATHER_STATUS (R234). -/
def cmdJobGatherStatus (s : State) (r : Req) : CmdOut :=
  match s.reqJob r (bitsOf (r.w 0) 15 0) with
  | .error e => failWith s e
  | .ok x =>
    match tabFind x.gathers (bitsOf (r.w 0) 31 16) with
    | none => failWith s stBadArg
    | some g => .done s stOk (natLE 4 g.version ++ natLE 4 g.crc ++ natLE 4 g.gathers ++ natLE 4 g.regathers ++ natLE 4 (flagAt g.dropped 0 + flagAt g.heldFor 1) ++ natLE 4 g.waits)
/-- JOB_GATHER_STATUS. -/
def execJobGatherStatus (mb : MbId) (s : State) : Out := .next (runCmd s mb.val 0x0423 (.exact 1) false cmdJobGatherStatus)

end Sys2Proof.Machine
end

