-- ==== Sys2Proof/Machine/Bronze.lean ====
section
/-! DEFINITION. Bronze (R178 to R207): update programs and their checks, sections as internal tasks, the
element instructions, reductions and matrix steps, and an update from its start to its end. -/

namespace Sys2Proof.Machine

/-! ### Programs (R182 to R185) -/

/-- An instruction word: opcode and operand fields (R183). -/
def updFields (w : Nat) : Nat × UpdFields :=
  (bitsOf w 63 56, { d := Fin.ofNat 64 (bitsOf w 55 50), a := Fin.ofNat 64 (bitsOf w 49 44), b := Fin.ofNat 64 (bitsOf w 43 38), c := Fin.ofNat 64 (bitsOf w 37 32), imm := BitVec.ofNat 32 w })
/-- Number of source selectors that an opcode uses; none for a reserved opcode (R184). -/
def updSrcs (op : Nat) : Option Nat :=
  match op with
  | 0x00 => some 0
  | 0x01 => some 0
  | 0x02 => some 1
  | 0x08 => some 2
  | 0x09 => some 2
  | 0x0A => some 2
  | 0x0B => some 3
  | 0x0C => some 2
  | 0x0D => some 1
  | 0x0E => some 1
  | 0x0F => some 1
  | 0x10 => some 1
  | 0x11 => some 2
  | 0x12 => some 2
  | 0x13 => some 3
  | 0x14 => some 3
  | 0x15 => some 1
  | 0x16 => some 1
  | 0x17 => some 1
  | 0x20 => some 1
  | 0x21 => some 1
  | 0x30 => some 2
  | 0x31 => some 3
  | 0x32 => some 1
  | 0x33 => some 1
  | 0x3F => some 0
  | _ => none
/-- Does an opcode end a sweep (R186)? -/
def updEnds (op : Nat) : Bool := op = 0x20 || op = 0x21 || (0x30 ≤ op && op ≤ 0x33) || op = 0x3F
/-- A source plane of a matrix step: a section plane other than C, or for INV and IROOT a K plane (R181). -/
def updPlanes (op : Nat) (imm : Nat) : Bool :=
  let src := imm % 16
  let dst := bitsOf imm 7 4
  match op with
  | 0x01 => src ≤ 6
  | 0x02 => src ≤ 7 && src ≠ 1
  | 0x30 => src ≤ 6 && 8 ≤ dst && dst ≤ 11
  | 0x31 => src ≤ 6 && 2 ≤ dst && dst ≤ 6
  | 0x32 => 8 ≤ src && src ≤ 11 && 8 ≤ dst && dst ≤ 11
  | 0x33 => 8 ≤ src && src ≤ 11 && 8 ≤ dst && dst ≤ 11 && src ≠ dst
  | 0x17 => src ≤ 0xB
  | _ => true
/-- IMM bits that an opcode does not use are 0 (log 32). -/
def updImmOk (op : Nat) (f : UpdFields) : Bool :=
  let i := f.imm.toNat
  match op with
  | 0x00 => i = 0
  | 0x01 => i < 16
  | 0x02 => i < 16
  | 0x17 => i < 16 || f.a = 51
  | 0x20 => i = 0 || f.a = 51
  | 0x21 => i = 0 || f.a = 51
  | 0x30 => i < 2 ^ 10 || f.a = 51 || f.b = 51
  | 0x31 => i < 2 ^ 12 || f.a = 51 || f.b = 51 || f.c = 51
  | 0x32 => i < 2 ^ 8
  | 0x33 => i < 2 ^ 16 && bitsOf i 11 9 = 0
  | 0x3F => i = 0
  | _ => i = 0 || f.a = 51 || f.b = 51 || f.c = 51
/-- The limits that an instruction must meet by itself (R183 to R185, R202). -/
def updOk (op : Nat) (f : UpdFields) : Bool :=
  match updSrcs op with
  | none => false
  | some n =>
    (1 ≤ n || f.a = 0) && (2 ≤ n || f.b = 0) && (3 ≤ n || f.c = 0) &&
    f.a.val < 52 && f.b.val < 52 && f.c.val < 52 && updPlanes op f.imm.toNat && updImmOk op f &&
    (if op = 0x00 ∨ op = 0x02 ∨ 0x30 ≤ op then f.d = 0
     else if op = 0x20 ∨ op = 0x21 then 19 ≤ f.d.val && f.d.val ≤ 47 else f.d.val < 16) &&
    (if op = 0x31 then 16 ≤ f.a.val && 16 ≤ f.b.val && 16 ≤ f.c.val
     else if op = 0x30 then !f.imm.getLsbD 9 || (16 ≤ f.a.val && 16 ≤ f.b.val)
     else if op = 0x32 ∨ op = 0x33 then 16 ≤ f.a.val && f.a.val < 48 else true)
/-- The sources that an instruction reads. -/
def updReads (op : Nat) (f : UpdFields) : List Nat := [f.a.val, f.b.val, f.c.val].take ((updSrcs op).getD 0)
/-- Every register is written in its sweep before it is read there (R185); `wr` are the registers written. -/
def updOrdered (wr : List Nat) : List (Nat × UpdFields) → Bool
  | [] => true
  | (op, f) :: t =>
    if 0x30 ≤ op ∧ op ≤ 0x33 then updOrdered [] t
    else (updReads op f).all (fun r => 16 ≤ r || wr.contains r) &&
      updOrdered (if updEnds op then [] else if op = 0 ∨ op = 2 then wr else f.d.val :: wr) t
/-- Cut a program into sweeps: element instructions, and the instruction that ends the sweep (R186). -/
def sweepsOf (acc : List (Nat × UpdFields)) : List (Nat × UpdFields) → List (List (Nat × UpdFields) × (Nat × UpdFields))
  | [] => []
  | i :: t => if i.1 = 0x3F then [(acc, i)] else if updEnds i.1 then (acc, i) :: sweepsOf [] t else sweepsOf (acc ++ [i]) t
/-- Stores to plane C in a sweep. -/
def storesC (sw : List (Nat × UpdFields)) : Nat := (sw.filter (fun i => i.1 = 0x02 && i.2.imm.toNat % 16 = 7)).length
/-- A program meets R185 by itself: an END, its limits, one ST to plane C, in the last sweep. NOPs make no
sweep. -/
def progOk (is : List (Nat × UpdFields)) : Bool :=
  let body := is.takeWhile (fun i => i.1 ≠ 0x3F)
  let sw := (sweepsOf [] (is.filter (fun i => i.1 ≠ 0))).filter (fun s => s.1 ≠ [] || s.2.1 ≠ 0x3F)
  body.length < is.length && (is.take (body.length + 1)).all (fun i => updOk i.1 i.2) && updOrdered [] body &&
  (sw.map (fun s => storesC s.1)).foldl (· + ·) 0 = 1 && (match sw.getLast? with | none => false | some s => storesC s.1 = 1 && (s.2.1 < 0x30 || s.2.1 = 0x3F))
/-- The planes that a program uses by code. -/
def progPlanes (is : List (Nat × UpdFields)) : List Nat :=
  (is.takeWhile (fun i => i.1 ≠ 0x3F)).flatMap (fun i =>
    let v := i.2.imm.toNat
    if i.1 = 1 ∨ i.1 = 2 then [v % 16] else if 0x30 ≤ i.1 ∧ i.1 ≤ 0x33 then [v % 16, bitsOf v 7 4] else [])
/-- The instructions of an image. -/
def progInsns (img : List Byte) : List (Nat × UpdFields) := (words64 (img.drop 64) (leAt img 6 2)).map updFields
/-- MAGIC, FORMAT, INSN_COUNT of an image header (R182). -/
def progHead (h : List Byte) : Bool := leAt h 0 4 = 0x55504732 && leAt h 4 2 = 0x0100 && 1 ≤ leAt h 6 2 && leAt h 6 2 ≤ 128
/-- The image's CRC holds. -/
def progCrc (img : List Byte) : Bool := crc32c (putAt img 60 (zeros 4)) = leAt img 60 4

/-! ### Layer state records (R179, R180) -/

/-- A section entry. `planes` are the address words of W, G, S0 to S3 and X, `ks` of K0 to K3. -/
structure Sect where
  nrow : Nat
  ncol : Nat
  fmt : Nat
  axis : Bool
  kdim : List Nat
  flags : Nat
  planes : List Nat
  coff : Nat
  csoff : Nat
  cstr : Nat
  csstr : Nat
  ks : List Nat
deriving DecidableEq, Repr
/-- Parse a section entry of 128 bytes. -/
def sectAt (b : List Byte) : Sect :=
  { nrow := leAt b 0 4, ncol := leAt b 4 4, fmt := leAt b 8 1, axis := (leAt b 9 1).testBit 0, kdim := (upTo 4).map (fun i => leAt b (12 + 2 * i) 2), flags := leAt b 20 4, planes := (upTo 7).map (fun i => leAt b (24 + 8 * i) 8), coff := leAt b 80 4, csoff := leAt b 84 4, cstr := leAt b 88 4, csstr := leAt b 92 4, ks := (upTo 4).map (fun i => leAt b (96 + 8 * i) 8) }
/-- Elements of a section. -/
def Sect.size (s : Sect) : Nat := s.nrow * s.ncol
/-- Blocks of 1,024 elements. -/
def Sect.blocks (s : Sect) : Nat := ceilDiv s.size 1024
/-- Row and column of an element index (R180). -/
def Sect.rc (s : Sect) (i : Nat) : Nat × Nat := if s.axis then (i / s.ncol, i % s.ncol) else (i % s.nrow, i / s.nrow)
/-- Element index of a row and column. -/
def Sect.idx (s : Sect) (r c : Nat) : Nat := if s.axis then r * s.ncol + c else r + c * s.nrow
/-- The address word of a plane by its code (R181). -/
def Sect.plane (s : Sect) (code : Nat) : Nat := if code < 7 then s.planes.getD code 0 else s.ks.getD (code - 8) 0
/-- Bytes of a plane by its code. -/
def Sect.planeLen (s : Sect) (code : Nat) : Nat := if code < 7 then 4 * s.size else 4 * s.kdim.getD (code - 8) 0 * s.kdim.getD (code - 8) 0
/-- Ends of the compute element plane and its scale plane from the start of the layer buffer (R200). -/
def Sect.cEnds (s : Sect) : Nat × Nat :=
  let w := codeWidth s.fmt
  if !isMx s.fmt then (s.coff + (s.nrow - 1) * s.cstr + s.ncol * w / 8, 0)
  else if s.axis then (s.coff + (s.nrow - 1) * s.cstr + s.ncol / 32 * (4 * w), s.csoff + (s.nrow - 1) * s.csstr + s.ncol / 32)
  else (s.coff + (s.nrow / 32 - 1) * s.cstr + s.ncol * (4 * w), s.csoff + (s.nrow / 32 - 1) * s.csstr + s.ncol)
/-- A section meets R179 and R185 for a program that uses these planes and matrix steps. -/
def Sect.ok (s : Sect) (b : List Byte) (is : List (Nat × UpdFields)) : Bool :=
  1 ≤ s.nrow && 1 ≤ s.ncol && s.size ≤ 2 ^ 30 && s.fmt ≤ 0xB && leAt b 9 1 < 2 && leAt b 10 2 = 0 &&
  s.kdim.all (· ≤ 4096) && bitsOf s.flags 14 12 = 0 && bitsOf s.flags 31 16 = 0 &&
  (progPlanes is).all (fun p => p = 7 || (wordOk (s.plane p) && addrOf (s.plane p) ≠ 0 && (p < 7 || s.kdim.getD (p - 8) 0 ≠ 0))) &&
  (!isMx s.fmt || (if s.axis then s.ncol else s.nrow) % 32 = 0) &&
  (is.takeWhile (fun i => i.1 ≠ 0x3F)).all (fun i =>
    let v := i.2.imm.toNat
    if i.1 = 0x30 then s.kdim.getD (bitsOf v 7 4 - 8) 0 = (if v.testBit 8 then s.ncol else s.nrow)
    else if i.1 = 0x32 ∨ i.1 = 0x33 then s.kdim.getD (v % 16 - 8) 0 = s.kdim.getD (bitsOf v 7 4 - 8) 0 else true)
/-- The header of a record meets R179 for a layer. -/
def recHead (h : List Byte) (layer : Nat) : Bool :=
  leAt h 0 2 = layer && 1 ≤ leAt h 2 2 && leAt h 2 2 ≤ 4096 && leAt h 4 4 = 0 && (h.drop 44).all (· = 0) &&
  wordOk (leAt h 16 8) && addrOf (leAt h 16 8) % 64 = 0 && wordOk (leAt h 24 8)

/-! ### A section on a core (R186, R189 to R191, R194) -/

/-- What a core holds while it works on a section. -/
structure SecRun where
  x : Ctx
  sec : Sect
  u : UpdCtx
  t : Word
  bc1 : Word
  bc2 : Word
  /-- the buffer that receives version v + 1 -/
  dst : Nat
  fin : Bool := false
deriving DecidableEq, Repr
/-- Binary64. -/
def fmt64 : Fmt := ⟨11, 52, 1023, 2⟩
/-- beta^t by repeated squaring in binary64, least significant bit of t first (R194; log 33). -/
def powGo : Nat → Fv → Fv → Nat → Fv
  | 0, _, acc, _ => acc
  | n + 1, x, acc, t =>
    if t = 0 then acc
    else powGo n (roundIeee fmt64 (fvMul x x)) (if t % 2 = 1 then roundIeee fmt64 (fvMul acc x) else acc) (t / 2)
/-- 1 - beta^t, rounded once to FP32. -/
def biasCorr (beta : Word) (t : Nat) : Word := to32 (fvAdd (of32 one32) (fvNegate (powGo 64 (of32 beta) (of32 one32) t)))
/-- Block register r; not written in this block it is free (R186; log 4). -/
def UpdCtx.reg (u : UpdCtx) (r : Nat) : List Word :=
  match tabFind u.v r with
  | some l => l
  | none => (upTo 1024).map (fun l => Config.freeWord (2 ^ 81 + u.gen * 16384 + r * 1024 + l))
/-- The 1,024 values of a source selector (R183). -/
def SecRun.src (r : SecRun) (f : UpdFields) (sel : Nat) : List Word :=
  if sel < 16 then r.u.reg sel
  else List.replicate 1024 (if sel < 48 then r.u.p.getD (sel - 16) 0 else if sel = 48 then r.t else if sel = 49 then r.bc1 else if sel = 50 then r.bc2 else f.imm)
/-- The one value of a source that is no block register. -/
def SecRun.scalar (r : SecRun) (f : UpdFields) (sel : Nat) : Word := (r.src f sel).headD 0
/-- Elements of the section in the current block. -/
def SecRun.count (r : SecRun) : Nat := min 1024 (r.sec.size - 1024 * r.u.block)
/-- Element operations on one lane (R184, R189). -/
def updLane (op : Nat) (a b c : Word) : Word :=
  match op with
  | 0x08 => add32 a b
  | 0x09 => sub32 a b
  | 0x0A => mul32 a b
  | 0x0B => fma32 a b c
  | 0x0C => div32 a b
  | 0x0D => sqrt32 a
  | 0x0E => rsqrt32 a
  | 0x0F => abs32 a
  | 0x10 => sign32 a
  | 0x11 => max32 a b
  | 0x12 => min32 a b
  | 0x13 => min32 (max32 a b) c
  | 0x14 => if fvPos (of32 a) then b else c
  | 0x15 => approxFn 7 a
  | _ => approxFn 0x13 a
/-- CVT with q = 1, MX over blocks of 32 lanes (R184). -/
def updCvtLanes (fmt : Nat) (vs : List Word) : List Word :=
  if isMx fmt then
    (blocks32 vs).flatMap (fun b => let q := mxQuant fmt (b.map of32); q.2.1.map (fun c => to32 (mxVal fmt q.1 c)))
  else if fmt = 0xB then vs
  else vs.map (fun v => to32 (decodeF (fmtOf fmt) (convOut fmt one32 v).1))
/-- Non-finite values among those stored. -/
def countNonfin (vs : List Word) : Nat := (vs.filter (fun v => !fvFinite (of32 v))).length
/-- Where ST to plane C puts a block's values: offset in the layer buffer and bytes (R200). -/
def Sect.cParts (s : Sect) (block : Nat) (vs : List Word) : List (Nat × List Byte) :=
  let w := codeWidth s.fmt
  if isMx s.fmt then
    (blocks32 vs).zipIdx.flatMap (fun b =>
      let rc := s.rc (1024 * block + 32 * b.2)
      let line := if s.axis then rc.1 else rc.1 / 32
      let col := if s.axis then rc.2 / 32 else rc.2
      let q := mxQuant s.fmt (b.1.map of32)
      [(s.coff + line * s.cstr + col * (4 * w), packElems w q.2.1), (s.csoff + line * s.csstr + col, natLE 1 q.1)])
  else vs.zipIdx.map (fun v =>
    let rc := s.rc (1024 * block + v.2)
    (s.coff + rc.1 * s.cstr + rc.2 * w / 8, natLE (w / 8) (convOut s.fmt one32 v.1).1))
/-- Move to the next block; its registers are undefined (R186). -/
def SecRun.nextBlock (r : SecRun) (s : State) : State × SecRun :=
  ({ s with free := s.free + 1 }, { r with u := { r.u with block := r.u.block + 1, v := [], gen := s.free } })
/-- The last block of the sweep has been worked on: back to block 0. -/
def SecRun.endSweep (r : SecRun) (s : State) : State × SecRun :=
  ({ s with free := s.free + 1 }, { r with u := { r.u with block := 0, v := [], gen := s.free, elems := false } })
/-- Is the current block the section's last? -/
def SecRun.lastBlock (r : SecRun) : Bool := r.sec.blocks ≤ r.u.block + 1
/-- Sum of squares of a list of values by blocks: fixed trees, blocks added in order (R190). -/
def sumSq (vs : List Word) : Word :=
  ((upTo (ceilDiv vs.length 1024)).map (fun b =>
    let q := ((vs.drop (1024 * b)).take 1024).map (fun v => mul32 v v)
    treeOf add32 10 (q ++ List.replicate (1024 - q.length) 0))).foldl add32 0
/-- Read a whole plane as FP32 words. -/
def SecRun.readPlane (r : SecRun) (s : State) (code : Nat) : TRes (List Word) := do
  let n := r.sec.planeLen code
  let bs ← s.wRead r.x (r.sec.plane code) 0 n
  .ok (wordsLE bs (n / 4))
/-- Write a whole plane. -/
def SecRun.writePlane (r : SecRun) (s : State) (code : Nat) (vs : List Word) : TRes State :=
  s.wWrite r.x (r.sec.plane code) 0 (vs.flatMap (fun v => natLE 4 v.toNat))
/-- LD and ST (R181, R189, R200, R201). -/
def SecRun.ldst (r : SecRun) (s : State) (op : Nat) (f : UpdFields) : TRes (State × SecRun) := do
  let code := f.imm.toNat % 16
  let n := r.count
  if op = 1 then
    let bs ← s.wRead r.x (r.sec.plane code) (4096 * r.u.block) (4 * n)
    .ok (s, { r with u := { r.u with v := tabSet r.u.v f.d.val (wordsLE bs n ++ List.replicate (1024 - n) 0) } })
  else
    let vs := (r.src f f.a.val).take n
    let u1 := if code = 0 ∨ code = 7 then { r.u with nonfin := r.u.nonfin + countNonfin vs } else r.u
    if code = 7 then
      let s1 ← (r.sec.cParts r.u.block vs).foldlM (fun st p => st.tWrite r.x false (r.dst + p.1) p.2) s
      .ok (s1, { r with u := u1 })
    else
      let s1 ← s.wWrite r.x (r.sec.plane code) (4096 * r.u.block) (vs.flatMap (fun v => natLE 4 v.toNat))
      .ok (s1, { r with u := u1 })

/-! ### Matrix steps (R202 to R207) -/

/-- The identity of a section plane: ones on the main diagonal. -/
def Sect.ident (s : Sect) : List Word := (upTo s.size).map (fun i => if (s.rc i).1 = (s.rc i).2 then one32 else 0)
/-- The identity of an n x n plane. -/
def identK (n : Nat) : List Word := (upTo (n * n)).map (fun i => if i / n = i % n then one32 else 0)
/-- A free symmetric n x n matrix (R202): the upper triangle mirrored. -/
def freeSym (inp par : List Word) (n : Nat) : List Word :=
  (upTo (n * n)).map (fun i => Config.matProd inp par (min (i / n) (i % n) * n + max (i / n) (i % n)))
/-- Product element (i, j) of a Gram matrix, exact, and the sum of the magnitudes of its terms (R203). -/
def gramExact (s : Sect) (trans : Bool) (xs : List Word) (i j : Nat) : Fv × Fv :=
  let at2 := fun (k q : Nat) => of32 (xs.getD (if trans then s.idx k q else s.idx q k) 0)
  let ps := (upTo (if trans then s.nrow else s.ncol)).map (fun k => fvMul (at2 k i) (at2 k j))
  (ps.foldl fvAdd fvZero, (ps.map (fun p => if fvNeg p then fvNegate p else p)).foldl fvAdd fvZero)
/-- A value as the manual bounds it: the free candidate where it lies within 2^-14 of the terms' sum from
the exact value, the rounded exact value elsewhere (R203; log 9). -/
def within14 (cand : Word) (e : Fv × Fv) : Word :=
  if !fvFinite e.1 then cand
  else
    let d := fvAdd (of32 cand) (fvNegate e.1)
    let m := if fvNeg d then fvNegate d else d
    if fvFinite m ∧ !fvLtNum (fvMul e.2 (.fin false 1 (-14))) m then cand else to32 e.1
/-- GRAM's product P. -/
def gramOf (s : Sect) (trans : Bool) (xs : List Word) : List Word :=
  let n := if trans then s.ncol else s.nrow
  let free := freeSym xs [0x30, if trans then 1 else 0] n
  free.zipIdx.map (fun v => within14 v.1 (gramExact s trans xs (min (v.2 / n) (v.2 % n)) (max (v.2 / n) (v.2 % n))))
/-- Exact sum of squares of the elements. -/
def frobSq (vs : List Fv) : Fv := (vs.map (fun v => fvMul v v)).foldl fvAdd fvZero
/-- Iteration i of ORTH has diverged (R204). -/
def orthBad (s : Sect) (ys : List Word) : Bool :=
  let n := sqrt32 (sumSq ys)
  ys.any (fun v => !fvFinite (of32 v)) || fvLtNum (.fin false (4 * min s.nrow s.ncol) 0) (fvMul (of32 n) (of32 n))
/-- ORTH: the result, none when an iteration diverges. -/
def orthOf (s : Sect) (xs : List Word) (a b c : Word) (iters : Nat) : Option (List Word) :=
  if fvIsZero (of32 (sqrt32 (sumSq xs))) then some (xs.map (fun _ => 0))
  else
    let y := fun (i : Nat) => (upTo s.size).map (Config.matProd xs [0x31, a, b, c, BitVec.ofNat 32 s.nrow, if s.axis then 1 else 0, BitVec.ofNat 32 i])
    if (upTo iters).any (fun i => orthBad s (y (i + 1))) then none else some (y iters)
/-- A + lambda I on the diagonal. -/
def dampDiag (n : Nat) (xs : List Word) (lam : Word) : List Word :=
  (upTo n).map (fun i => add32 (xs.getD (i * n + i) 0) lam)
/-- The largest of some values. -/
def maxWord (vs : List Word) : Word := match vs with | [] => 0 | v :: t => t.foldl max32 v
/-- INV under a damping: none when a pivot is singular (R205). The pivots and the result are free values. -/
def invOf (n : Nat) (xs : List Word) (lam : Word) : Option (List Word) :=
  let lim := fvMul (of32 (maxWord (dampDiag n xs lam))) (.fin false 1 (-20))
  let bad := (upTo n).any (fun i =>
    let p := of32 (Config.matProd xs [0x32, lam, 1] i)
    !fvFinite p || !fvLtNum lim p)
  if bad then none else some (freeSym xs [0x32, lam, 0] n)
/-- Iterate M of IROOT. -/
def irootM (n : Nat) (xs : List Word) (lam : Word) (p4 : Bool) (i : Nat) : List Word := freeSym xs [0x33, lam, if p4 then 4 else 2, 1, BitVec.ofNat 32 i] n
/-- Iterate Y of IROOT. -/
def irootY (n : Nat) (xs : List Word) (lam : Word) (p4 : Bool) (i : Nat) : List Word := freeSym xs [0x33, lam, if p4 then 4 else 2, 2, BitVec.ofNat 32 i] n
/-- M - I, exact. -/
def lessIdent (n : Nat) (m : List Word) : List Fv := m.zipIdx.map (fun v => if v.2 / n = v.2 % n then fvAdd (of32 v.1) (fvNegate (of32 one32)) else of32 v.1)
/-- IROOT under a damping, from iteration i on: none when it diverges or the limit passes (R206). -/
def irootGo (n : Nat) (xs : List Word) (lam : Word) (p4 : Bool) : Nat → Nat → Option (List Word)
  | 0, _ => none
  | k + 1, i =>
    let m := irootM n xs lam p4 i
    let y := irootY n xs lam p4 i
    let d := lessIdent n m
    if (m ++ y).any (fun v => !fvFinite (of32 v)) || fvLtNum (frobSq (lessIdent n (irootM n xs lam p4 (i - 1)))) (frobSq d) then none
    else if d.all (fun v => !fvLtNum (.fin false 1 (-12)) (if fvNeg v then fvNegate v else v)) then some y
    else irootGo n xs lam p4 k (i + 1)
/-- The dampings of R207: 0, then d times the mean of the diagonal, and 10, 100, 1,000 times that. -/
def dampings (n : Nat) (xs : List Word) (d : Word) : List Word :=
  let d1 := if fvPos (of32 d) && fvFinite (of32 d) then d else 0x358637BD
  let mean := div32 ((dampDiag n xs 0).foldl add32 0) (ofInt32 n)
  let l0 := mul32 d1 mean
  [0, l0, mul32 (ofInt32 10) l0, mul32 (ofInt32 100) l0, mul32 (ofInt32 1000) l0]
/-- The result of INV or IROOT over its attempts (R207). -/
def rootOf (op n : Nat) (xs : List Word) (d : Word) (imm : Nat) : Option (List Word) :=
  let lim := if bitsOf imm 15 12 = 0 then 16 else bitsOf imm 15 12
  (dampings n xs d).findSome? (fun l => if op = 0x32 then invOf n xs l else irootGo n xs l (imm.testBit 8) lim 1)
/-- What a matrix step gives for the destination; none for the fallback. -/
def SecRun.matrixOf (r : SecRun) (s : State) (op : Nat) (f : UpdFields) : TRes (Option (List Word)) := do
  let i := f.imm.toNat
  let xs ← r.readPlane s (i % 16)
  if op = 0x30 then
    let p := gramOf r.sec (i.testBit 8) xs
    if i.testBit 9 then
      let old ← r.readPlane s (bitsOf i 7 4)
      let a := r.scalar f f.a.val
      let b := r.scalar f f.b.val
      .ok (some ((old.zip p).map (fun v => fma32 a v.1 (mul32 b v.2))))
    else .ok (some p)
  else if op = 0x31 then
    .ok (orthOf r.sec xs (r.scalar f f.a.val) (r.scalar f f.b.val) (r.scalar f f.c.val) (if bitsOf i 11 8 = 0 then 5 else bitsOf i 11 8))
  else .ok (rootOf op (r.sec.kdim.getD (i % 16 - 8) 0) xs (r.scalar f f.a.val) i)
/-- A matrix step: its result, or the fallback of R207. -/
def SecRun.matrix (r : SecRun) (s : State) (op : Nat) (f : UpdFields) : TRes (State × SecRun) := do
  let dst := bitsOf f.imm.toNat 7 4
  match ← r.matrixOf s op f with
  | some ys =>
    let s1 ← r.writePlane s dst ys
    .ok (s1, { r with u := { r.u with secflags := r.u.secflags ||| 2 ^ dst } })
  | none =>
    let u1 := { r.u with secflags := r.u.secflags ||| 2 ^ 15, lastFb := true, fallbacks := r.u.fallbacks + 1 }
    if r.u.secflags.testBit dst then .ok (s, { r with u := u1 })
    else
      let s1 ← r.writePlane s dst (if dst < 7 then r.sec.ident else identK (r.sec.kdim.getD (dst - 8) 0))
      .ok (s1, { r with u := u1 })

/-! ### Instructions -/

/-- One instruction on the section at its current block (R184 to R190). SUMSQ and NORM2 add the block's
sum; they, a matrix step and END move to the next block, and take their own effect after the last one; a
matrix step or END right after a sweep's end acts at once (log 34). -/
def SecRun.step (r : SecRun) (s : State) (op : Nat) (f : UpdFields) : TRes (State × SecRun) :=
  if !updOk op f then .error (s, tsProgram)
  else if op = 0 then .ok (s, r)
  else if op = 1 ∨ op = 2 then
    (r.ldst s op f).map (fun o => (o.1, { o.2 with u := { o.2.u with elems := true } }))
  else if op = 0x20 ∨ op = 0x21 then
    let vs := (r.src f f.a.val).take r.count
    let acc := add32 r.u.acc (sumSq vs)
    if r.lastBlock then
      let v := if op = 0x21 then sqrt32 acc else acc
      .ok (({ r with u := { r.u with acc := 0, p := r.u.p.set (f.d.val - 16) v } } : SecRun).endSweep s)
    else .ok (({ r with u := { r.u with acc := acc, elems := true } } : SecRun).nextBlock s)
  else if 0x30 ≤ op then
    if r.u.elems && !r.lastBlock then .ok (r.nextBlock s)
    else
      let o := if r.u.elems then r.endSweep s else (s, r)
      if op = 0x3F then .ok (o.1, { o.2 with fin := true }) else o.2.matrix o.1 op f
  else
    let va := r.src f f.a.val
    let vb := r.src f f.b.val
    let vc := r.src f f.c.val
    let out := if op = 0x17 then updCvtLanes (f.imm.toNat % 16) va
      else (upTo 1024).map (fun l => updLane op (va.getD l 0) (vb.getD l 0) (vc.getD l 0))
    .ok (s, { r with u := { r.u with v := tabSet r.u.v f.d.val out, elems := true } })
/-- A list of instructions. -/
def SecRun.steps (is : List (Nat × UpdFields)) (a : State × SecRun) : TRes (State × SecRun) :=
  is.foldlM (fun b i => b.2.step b.1 i.1 i.2) a
/-- A sweep with the instruction that ends it: block by block (R186). -/
def SecRun.sweep (a : State × SecRun) (sw : List (Nat × UpdFields) × (Nat × UpdFields)) : TRes (State × SecRun) :=
  let once := sw.1.all (fun i => i.1 = 0) && decide (0x30 ≤ sw.2.1)
  (upTo (if once then 1 else a.2.sec.blocks)).foldlM (fun b _ => SecRun.steps (sw.1 ++ [sw.2]) b) a
/-- The section that a core works on, as far as it has got; at its start the slots are loaded (R186). -/
def State.secRun (s : State) (x0 : Ctx) (j l i : Nat) : TRes (State × SecRun) := do
  let x := { x0 with move := none }
  match (s.job? j).bind (fun y => (tabFind y.upds l).bind (fun u => (y.layer? l).map (fun ly => (u, ly)))) with
  | none => .error (s, tsProgram)
  | some (u, ly) =>
    let eb ← s.wRead x u.record (64 + 128 * i) 128
    let hb ← s.wRead x u.record 0 64
    let pb ← s.wRead x (leAt hb 16 8) 0 128
    let sec := sectAt eb
    let k := (s.core x.core).upd
    let c : UpdCtx := if k.on then k else { on := true, gen := s.free, p := u.pStep :: (wordsLE pb 32).drop 1, secflags := bitsOf sec.flags 11 0 }
    let s1 := if k.on then s else { s with free := s.free + 1 }
    .ok (s1, { x := x, sec := sec, u := c, t := to32 (.fin false u.t 0), bc1 := biasCorr (c.p.getD 1 0) u.t, bc2 := biasCorr (c.p.getD 2 0) u.t, dst := ly.altBuf })
/-- Note on the core how far its section has got, and how it ended. -/
def secNote (c : Nat) (r : TRes (State × SecRun)) : State :=
  match r with
  | .error (s1, e) => s1.setDone c { status := e }
  | .ok (s1, q) =>
    let s2 := s1.setCore c { s1.core c with upd := q.u }
    if q.fin then s2.setDone c {} else s2

/-- The section that a core runs, when nothing has ended it: context, job, layer and section number. -/
def State.onSection (s : State) (c : Nat) : Option (Ctx × Nat × Nat × Nat) :=
  match s.running c with
  | none => none
  | some (x, t) =>
    match t.owner, t.sec with
    | .job j, some (l, i) => some (x, j, l, i)
    | _, _ => none
/-- One update instruction on the section that a core runs. -/
def State.updRow (s : State) (c op : Nat) (f : UpdFields) : State :=
  match s.onSection c with
  | none => s
  | some (x, j, l, i) =>
    match s.secRun x j l i with
    | .error (s1, e) => s1.setDone c { status := e }
    | .ok (s1, r) => secNote c (r.step s1 op f)
/-- The whole program of a section (R186). -/
def State.sectionRun (s : State) (x : Ctx) (j l i : Nat) : TRes (State × SecRun) := do
  let prog := (((s.job? j).bind (fun y => tabFind y.upds l)).map (fun u => u.prog)).getD 0
  let hb ← s.wRead x prog 0 64
  let ib ← s.wRead x prog 64 (8 * leAt hb 6 2)
  let a ← s.secRun x j l i
  (sweepsOf [] (progInsns (hb ++ ib))).foldlM SecRun.sweep a
/-- SECTION_TASK (R186, R187): the section's program from its start; nothing when single instructions have
already begun it. -/
def execSectionTask (core : CoreId) (s : State) : Out :=
  let c := core.val
  .next (match s.onSection c with
    | none => s
    | some (x, j, l, i) => if (s.core c).upd.on then s else secNote c (s.sectionRun { x with move := none } j l i))
/-- UPD_NOP (R184). -/
def execUpdNop (core : CoreId) (f : UpdFields) (s : State) : Out := .next (s.updRow core.val 0x00 f)
/-- UPD_LD (R184). -/
def execUpdLd (core : CoreId) (f : UpdFields) (s : State) : Out := .next (s.updRow core.val 0x01 f)
/-- UPD_ST (R200). -/
def execUpdSt (core : CoreId) (f : UpdFields) (s : State) : Out := .next (s.updRow core.val 0x02 f)
/-- UPD_ADD (R184). -/
def execUpdAdd (core : CoreId) (f : UpdFields) (s : State) : Out := .next (s.updRow core.val 0x08 f)
/-- UPD_SUB (R184). -/
def execUpdSub (core : CoreId) (f : UpdFields) (s : State) : Out := .next (s.updRow core.val 0x09 f)
/-- UPD_MUL (R184). -/
def execUpdMul (core : CoreId) (f : UpdFields) (s : State) : Out := .next (s.updRow core.val 0x0A f)
/-- UPD_FMA (R184). -/
def execUpdFma (core : CoreId) (f : UpdFields) (s : State) : Out := .next (s.updRow core.val 0x0B f)
/-- UPD_DIV (R184). -/
def execUpdDiv (core : CoreId) (f : UpdFields) (s : State) : Out := .next (s.updRow core.val 0x0C f)
/-- UPD_SQRT (R184). -/
def execUpdSqrt (core : CoreId) (f : UpdFields) (s : State) : Out := .next (s.updRow core.val 0x0D f)
/-- UPD_RSQRT (R184). -/
def execUpdRsqrt (core : CoreId) (f : UpdFields) (s : State) : Out := .next (s.updRow core.val 0x0E f)
/-- UPD_ABS (R184). -/
def execUpdAbs (core : CoreId) (f : UpdFields) (s : State) : Out := .next (s.updRow core.val 0x0F f)
/-- SIGN (R184). -/
def execUpdSign (core : CoreId) (f : UpdFields) (s : State) : Out := .next (s.updRow core.val 0x10 f)
/-- UPD_MAX (R184). -/
def execUpdMax (core : CoreId) (f : UpdFields) (s : State) : Out := .next (s.updRow core.val 0x11 f)
/-- UPD_MIN (R184). -/
def execUpdMin (core : CoreId) (f : UpdFields) (s : State) : Out := .next (s.updRow core.val 0x12 f)
/-- CLAMP (R184). -/
def execUpdClamp (core : CoreId) (f : UpdFields) (s : State) : Out := .next (s.updRow core.val 0x13 f)
/-- UPD_SEL (R184). -/
def execUpdSel (core : CoreId) (f : UpdFields) (s : State) : Out := .next (s.updRow core.val 0x14 f)
/-- UPD_EXP (R184). -/
def execUpdExp (core : CoreId) (f : UpdFields) (s : State) : Out := .next (s.updRow core.val 0x15 f)
/-- UPD_LOG (R184). -/
def execUpdLog (core : CoreId) (f : UpdFields) (s : State) : Out := .next (s.updRow core.val 0x16 f)
/-- UPD_CVT (R184). -/
def execUpdCvt (core : CoreId) (f : UpdFields) (s : State) : Out := .next (s.updRow core.val 0x17 f)
/-- SUMSQ (R190). -/
def execUpdSumsq (core : CoreId) (f : UpdFields) (s : State) : Out := .next (s.updRow core.val 0x20 f)
/-- NORM2 (R190). -/
def execUpdNorm2 (core : CoreId) (f : UpdFields) (s : State) : Out := .next (s.updRow core.val 0x21 f)
/-- MSTEP_GRAM (R203). -/
def execMstepGram (core : CoreId) (f : UpdFields) (s : State) : Out := .next (s.updRow core.val 0x30 f)
/-- MSTEP_ORTH (R204). -/
def execMstepOrth (core : CoreId) (f : UpdFields) (s : State) : Out := .next (s.updRow core.val 0x31 f)
/-- MSTEP_INV (R205). -/
def execMstepInv (core : CoreId) (f : UpdFields) (s : State) : Out := .next (s.updRow core.val 0x32 f)
/-- MSTEP_IROOT (R206). -/
def execMstepIroot (core : CoreId) (f : UpdFields) (s : State) : Out := .next (s.updRow core.val 0x33 f)
/-- UPD_END (R184). -/
def execUpdEnd (core : CoreId) (f : UpdFields) (s : State) : Out := .next (s.updRow core.val 0x3F f)

/-! ### An update (R187, R188, R192, R201) -/

/-- The layer that an UPD task names. -/
def Task.updLayer (t : Task) : Nat := bitsOf (t.word 6) 15 0
/-- The skip decision of a layer (R166): none while it cannot be taken yet. When JOB_STOP has discarded the
step's other tasks the flag is taken as it stands (log 36). -/
def State.skipDecision (s : State) (j : Nat) (x : Job) (l : Layer) : Option Bool :=
  if flag (s.reg (.job j) 0x000) 30 then some (l.decision.getD x.range.ovfNow)
  else
    let alone : Bool := match x.map with | none => true | some m => decide (m.n = 1)
    let stuck := decide (x.st = .stopping) && s.cores.all (fun c => match c.2.run with
      | none => true
      | some r => r.task.owner ≠ .job j || (r.task.kind = 8 && r.task.sec.isNone))
    if stuck ∨ (x.range.wLeft = 0 ∧ (alone ∨ x.range.flagFinal)) then some x.range.ovfNow else none
/-- The step size is consumed (R198). -/
def State.consume (s : State) (j l : Nat) : State :=
  s.onJob j (fun x => x.mapLayer l (fun y => { y with seq := x.range.seq }))
/-- Hand over the broadcast that a record names, if any (R201, R160). -/
def State.updBcast (s : State) (x : Ctx) (j version : Nat) (skip : Bool) (header : List Byte) : TRes State :=
  if leAt header 24 8 = 0 then .ok s else s.handOff x j (leAt header 24 8) version skip
/-- A skipped update (R160, R167): the step size is consumed, the broadcast carries the skip, nothing else
changes. -/
def State.updSkip (s : State) (x : Ctx) (j : Nat) (l : Layer) (t : Task) : TRes State := do
  let hb ← s.wRead x (t.word 7) 0 64
  let s1 ← (s.consume j l.id).updBcast x j l.version true hb
  .ok (s1.markPlaced j l.id l.version true)
/-- Step 5 of R192: the update begins; its sections wait to be pushed. -/
def State.updBegin (s : State) (x : Ctx) (j c : Nat) (l : Layer) (t : Task) (start : Nat) : TRes State := do
  let s0 := s.consume j l.id
  let ph ← s0.wRead x (t.word 5) 0 64
  let pb ← s0.wRead x (t.word 5) 64 (8 * leAt ph 6 2)
  let hb ← s0.wRead x (t.word 7) 0 64
  if !progHead ph ∨ !progCrc (ph ++ pb) ∨ !progOk (progInsns (ph ++ pb)) ∨ !recHead hb l.id then .error (s0, tsProgram)
  else
    let n := leAt hb 2 2
    let u : Upd := { core := c, record := t.word 7, prog := t.word 5, sections := n, toPush := n, outstanding := n, t := (leAt hb 8 8 + 1) % 2 ^ 64, task := t, startTick := start, pStep := s0.reg (.job j) 0x020 }
    let s1 := s0.onJob j (fun y => { y.mapLayer l.id (fun m => { m with stalled := false }) with upds := tabSet y.upds l.id u })
    .ok ((s1.setCore c { s1.core c with run := none }).refill c 32)
/-- UPD (R192): the checks in order, up to the first that ends the update. Under STEP agreement the task
waits for the flag (R166); with the alternate buffer taken it stalls (R161, R162). -/
def execTaskUpd (core : CoreId) (s : State) : Out :=
  let c := core.val
  .next (match s.running c, (s.core c).run with
    | some (x0, t), some run =>
      match t.owner with
      | .job j =>
        (match s.job? j with
         | none => s
         | some y =>
           let x := { x0 with move := none }
           if t.kind ≠ 8 ∨ t.sec.isSome ∨ !jobRuns y then s
           else match y.layer? t.updLayer with
           | none => s.setDone c { status := tsProgram }
           | some l =>
             if !s.compat.getLsbD 3 ∧ l.seq = y.range.seq then
               (s.raise 0x3006 [y.part] true y.part (natLE 2 j ++ natLE 2 l.id ++ natLE 4 y.range.seq ++ natLE 8 y.step)).fence j 0x04 0 0 0 0
             else match s.skipDecision j y l with
             | none => s
             | some true =>
               if l.placed.isSome then s
               else (match s.updSkip x j l t with
                | .ok s1 => s1.setDone c {}
                | .error (s1, e) => s1.setDone c { status := e })
             | some false =>
               if !s.canPlace j l then
                 let u : Upd := { core := c, record := t.word 7, prog := t.word 5, sections := 0, toPush := 0, outstanding := 0, t := 0, stalled := true, task := t, startTick := run.start }
                 let s1 := s.onJob j (fun z => { z.mapLayer l.id (fun m => { m with stalled := true, stalls := (m.stalls + 1) % 2 ^ 32 }) with upds := tabSet z.upds l.id u })
                 s1.setCore c { s1.core c with run := none }
               else match s.updBegin x j c l t run.start with
                 | .ok s1 => s1
                 | .error (s1, e) => s1.setDone c { status := e })
      | _ => s
    | _, _ => s)
/-- Forget a layer's update on its job. -/
def State.dropUpd (s : State) (j l : Nat) : State := s.onJob j (fun x => { x with upds := tabDel x.upds l })
/-- UPD_RESUME (R161, R162, R192): a stalled update goes on once the layer may take a further version. -/
def execUpdResume (job layer : Nat) (s : State) : Out :=
  .next (match s.job? job with
    | none => s
    | some y =>
      match tabFind y.upds layer, y.layer? layer with
      | some u, some l =>
        if !u.stalled ∨ !jobRuns y ∨ !s.canPlace job l then s
        else match s.updBegin { s.ctxOf u.core u.task with move := none } job u.core l u.task u.startTick with
          | .ok s1 => s1
          | .error (s1, e) => (s1.dropUpd job layer).failJobTask job u.task u.core e
      | _, _ => s)
/-- What the end of an update writes into the record (R201, step 1). -/
def State.updRecord (s : State) (x : Ctx) (u : Upd) : TRes (State × List Byte) := do
  let hb ← s.wRead x u.record 0 64
  let fb := (leAt hb 32 4 + u.fallbacks) % 2 ^ 32
  let nf := (leAt hb 36 4 + u.nonfin) % 2 ^ 32
  let s1 ← s.wWrite x u.record 8 (natLE 8 u.t)
  let s2 ← s1.wWrite x u.record 32 (natLE 4 fb ++ natLE 4 nf ++ natLE 4 (flagAt u.lastFb 0 + flagAt (u.nonfin ≠ 0) 1))
  let s3 ← u.secflags.foldlM (fun st e => st.wWrite x u.record (64 + 128 * e.1 + 20) (natLE 4 e.2)) s2
  .ok (s3, hb)
/-- UPD_COMPLETE (R201): every section's ST to C has been written. -/
def execUpdComplete (job layer : Nat) (s : State) : Out :=
  .next (match s.job? job with
    | none => s
    | some y =>
      match tabFind y.upds layer, y.layer? layer with
      | some u, some l =>
        if u.stalled ∨ u.toPush ≠ 0 ∨ u.outstanding ≠ 0 ∨ !jobRuns y then s
        else
          let x := { s.ctxOf u.core u.task with move := none }
          let v := nextVer l.version
          let r : TRes State := do
            let (s1, hb) ← s.updRecord x u
            (s1.markPlaced job layer v false).updBcast x job v false hb
          match r with
          | .ok s1 => (s1.dropUpd job layer).endJobTask job u.task u.core {} u.startTick
          | .error (s1, e) => (s1.dropUpd job layer).failJobTask job u.task u.core e
      | _, _ => s)
/-- An internal task ends (R187, R188): its section's counts join the update, or the update is abandoned and
the UPD task fails in its place. -/
def State.endSection (s : State) (c j l i : Nat) (r : Result) : State :=
  match (s.job? j).bind (fun y => tabFind y.upds l) with
  | none => s.setCore c { s.core c with run := none }
  | some u =>
    if r.status ≠ 0 then
      let s1 := (s.setCore c { s.core c with run := none }).dropUpd j l
      let s2 := { s1 with cores := tabMap (fun _ k => { k with deque := k.deque.filter (fun t => !isSection j l t) }) s1.cores }
      let s3 := s2.cores.foldl (fun st e => match e.2.run with | some q => if isSection j l q.task then st.stopCore e.1 else st | none => st) s2
      s3.failJobTask j u.task c r.status
    else
      let k := (s.core c).upd
      let u1 := { u with outstanding := u.outstanding - 1, fallbacks := u.fallbacks + k.fallbacks, nonfin := u.nonfin + k.nonfin, lastFb := u.lastFb || k.lastFb, secflags := tabSet u.secflags i k.secflags }
      let s1 := s.onJob j (fun y => { y with upds := tabSet y.upds l u1, lastMove := s.tick })
      s1.setCore c { s1.core c with run := none, upd := {} }

/-! ### Checks at load (R179, R185) -/

/-- A structure of a job to be loaded: NOT_PERMITTED, BAD_ARGUMENT or VERIFY_FAILED when it cannot be read
(R129, R146). -/
def State.loadRead (s : State) (x : Ctx) (w off n : Nat) : Except Nat (List Byte) :=
  let a := ctxAddr x w
  if n = 0 then .ok []
  else if a.1 then (if a.2 + off + n ≤ stageBase then .ok (s.localMem.readN (localAt x.home (a.2 + off)) n) else .error stBadArg)
  else match s.span (some x.part) (a.2 + off) n with
    | .foreign => .error stNotPerm
    | .hole => .error stBadArg
    | .aperture => if s.apertureOk x.part (a.2 + off) n then (s.fwRead (a.2 + off) n) else .error stNotPerm
    | .ok => s.fwRead (a.2 + off) n
/-- A span as the load checks it: OK, or the status of R129. -/
def State.spanAt (s : State) (x : Ctx) (space : Bool) (a n : Nat) (write : Bool) : Nat :=
  if n = 0 then stOk
  else if space then (if a + n ≤ stageBase then stOk else stBadArg)
  else match s.span (some x.part) a n with
    | .ok => stOk
    | .foreign => stNotPerm
    | .hole => stBadArg
    | .aperture => if write then stBadArg else if s.apertureOk x.part a n then stOk else stNotPerm
/-- The same at an address word plus an offset. -/
def State.loadSpan (s : State) (x : Ctx) (w off n : Nat) (write : Bool) : Nat :=
  let a := ctxAddr x w
  s.spanAt x a.1 (a.2 + off) n write
/-- The program and record of an UPD task (R179, R185): its status, OK when the graph may load. The limits
that need the layer table are judged at JOB_START (log 35). -/
def State.updCheck (s : State) (x : Ctx) (ctrs : Nat) (t : Task) : Nat :=
  let r : Except Nat Nat := do
    let pw := t.word 5
    let rw := t.word 7
    if t.phase ≠ 3 ∨ bitsOf (t.word 6) 63 16 ≠ 0 ∨ !wordOk pw ∨ !wordOk rw ∨ addrOf pw % 64 ≠ 0 ∨ addrOf rw % 64 ≠ 0 ∨ rw.testBit 63 then .error stBadArg
    else
      let h ← s.loadRead x pw 0 64
      if !progHead h then .error stBadArg
      else
        let b ← s.loadRead x pw 64 (8 * leAt h 6 2)
        let is := progInsns (h ++ b)
        if !progCrc (h ++ b) then .error stVerify
        else if !((h.drop 8).take 52).all (· = 0) ∨ !progOk is then .error stBadArg
        else
          let hb ← s.loadRead x rw 0 64
          if !recHead hb t.updLayer then .error stBadArg
          else
            let _ ← s.loadRead x (leAt hb 16 8) 0 128
            let bc := leAt hb 24 8
            let cb ← if bc = 0 then (.ok []) else s.loadRead x bc 0 64
            if bc ≠ 0 ∧ (addrOf bc % 64 ≠ 0 ∨ !collOk ctrs (words64 cb 8)) then .error stBadArg else
            let bad ← (upTo (leAt hb 2 2)).foldlM (fun (a : Nat) i => do
              let eb ← s.loadRead x rw (64 + 128 * i) 128
              let sec := sectAt eb
              if !sec.ok eb is then .error stBadArg
              else .ok ((progPlanes is).foldl (fun a p => if a ≠ stOk ∨ p = 7 then a else s.loadSpan x (sec.plane p) 0 (sec.planeLen p) (p ≠ 1)) a)) stOk
            .ok bad
  match r with | .ok v => v | .error e => e
/-- The sections of a record lie within a layer's SIZE (R185). -/
def State.updFits (s : State) (x : Ctx) (t : Task) (size : Nat) : Bool :=
  let r : Except Nat Bool := do
    let hb ← s.loadRead x (t.word 7) 0 64
    (upTo (leAt hb 2 2)).foldlM (fun (a : Bool) i => do
      let eb ← s.loadRead x (t.word 7) (64 + 128 * i) 128
      let e := (sectAt eb).cEnds
      .ok (a && decide (e.1 ≤ size) && decide (e.2 ≤ size))) true
  match r with | .ok v => v | .error _ => false

end Sys2Proof.Machine
end

