-- ==== Sys2Proof/Machine/Graph.lean ====
section
/-! DEFINITION. The checks of a task graph at load (R59, R64, R76, R87, R88, R108, R121, R129, R131, R138,
R149, R157, R179, R185, R228), which a service image's steps share (R237). -/

namespace Sys2Proof.Machine

/-- What a graph is checked against: its counters and completion slots, the job's groups, and for a service
image the number of reserved cores. -/
structure GraphLim where
  ctrs : Nat
  cpl : Nat
  groups : Nat
  svc : Option Nat := none
deriving DecidableEq, Repr

/-- An answer of a check: nothing, or the failure. -/
abbrev Chk := Except Nat Unit
/-- Refuse with a status unless a condition holds. -/
def need (b : Bool) (st : Nat) : Chk := if b then .ok () else .error st
/-- A status as an answer. -/
def chkOf (st : Nat) : Chk := if st = stOk then .ok () else .error st

/-! ### Descriptors (R122 to R129) -/

/-- Header and wait entries (R122, R123, R129): BAD_ARGUMENT cases that no structure decides. -/
def headOk (lim : GraphLim) (part : Nat) (t : Task) : Bool :=
  let w0 := t.word 0
  bitsOf w0 63 62 = 0 && t.phase ≠ 7 && bitsOf w0 11 9 = part && bitsOf w0 14 12 ≤ 4 &&
  (upTo (min 4 (bitsOf w0 14 12))).all (fun i => decide (bitsOf (t.word (i + 1)) 13 0 < lim.ctrs) && !(t.word (i + 1)).testBit 15) &&
  bitsOf (t.word 1) 63 62 = 0 && (t.sigInc = 0 || t.sigId < lim.ctrs) &&
  (match lim.svc with
   | some cores => t.kind ≤ 6 && t.phase = 5 && t.home < cores && t.steal ≤ 1
   | none => t.kind ≤ 8 && (!t.cpl || bitsOf (t.word 3) 63 48 < lim.cpl) && t.verTag ≤ 4096) &&
  (if 4 ≤ t.kind ∧ t.kind ≤ 6 then t.steal = 0 else if t.kind = 8 then t.steal ≤ 1 else true)
/-- HOME is an enabled core of the job's groups, and not reserved (R17, R129, R138). -/
def State.homeCheck (s : State) (lim : GraphLim) (die : Nat) (t : Task) : Chk :=
  match lim.svc with
  | some _ => .ok ()
  | none =>
    if (tabFind s.remap t.home).isNone ∨ !lim.groups.testBit (t.home / 64) ∨ t.home / 512 ≠ die then .error stBadArg
    else need (s.core t.home).svc.isNone stNotPerm
/-- Does an address word name the local store? -/
def isLocal (w : Nat) : Bool := w.testBit 63
/-- The whole extent of a plane, from its first byte to its last. -/
def State.planeCheck (s : State) (x : Ctx) (cs : List Chunk) (write : Bool) : Chk :=
  match cs.filter (fun c => c.2.2 ≠ 0) with
  | [] => .ok ()
  | c :: t =>
    let lo := t.foldl (fun m d => min m d.2.1) c.2.1
    let hi := t.foldl (fun m d => max m (d.2.1 + d.2.2)) (c.2.1 + c.2.2)
    chkOf (s.loadSpan x c.1 lo (hi - lo) write)
/-- The planes of a GEMM task with the direction of their accesses. -/
def gemmPlanes (g : Gemm) (r : List Nat) (segs : List Seg) : List (List Chunk × Bool) :=
  let v := streamChunks g r (r.getD 0 0) (r.getD 1 0) 0 g.rows g.reduction
  let t := tileChunks g r (r.getD 2 0) (r.getD 3 0) g.tile g.cols
  let o := outChunks g r
  (if addrOf (r.getD 2 0) = 0 then [] else [(v.1, false), (v.2, false), (t.1, false), (t.2, false)]) ++
  segs.flatMap (fun sg =>
    let h := streamChunks g r (r.getD 14 0) (r.getD 15 0) sg.first sg.count g.rank
    let u := tileChunks g r sg.elem sg.scale g.rank g.cols
    [(h.1, false), (h.2, false), (u.1, false), (u.2, false)]) ++
  (if g.drain then [(o.1, true), (o.2, true), (if addrOf (r.getD 6 0) = 0 then [] else [(r.getD 6 0, 0, 4 * g.outCols)], false), (if addrOf (r.getD 7 0) = 0 then [] else [(r.getD 7 0, 0, 4)], true)] else [])
/-- A GEMM, GEMM_T or GEMM_WG body (R88, R126, R129). -/
def State.gemmCheck (s : State) (x : Ctx) (t : Task) : Chk := do
  let g := t.gemm
  need (g.ok t) stBadArg
  let segLocal := isLocal g.segTab && decide (g.segCount ≠ 0)
  need (t.steal = 0 || !(g.accAdd || !g.drain || isLocal g.record || segLocal)) stBadArg
  if isLocal g.record then
    chkOf (s.loadSpan x g.record 0 128 false)
    if g.segCount = 0 then (.ok ())
    else if segLocal then chkOf (s.loadSpan x g.segTab 0 (32 * g.segCount) false)
    else
      let sb ← s.loadRead x g.segTab 0 (32 * g.segCount)
      need (segsOk g sb) stBadArg
  else
    let rb ← s.loadRead x g.record 0 128
    let r := words64 rb 16
    need (recOk g r && recFinite g r) stBadArg
    let sb ← if g.segCount = 0 ∨ segLocal then (.ok []) else s.loadRead x g.segTab 0 (32 * g.segCount)
    let segs := if sb = [] then [] else segsOf g.segCount sb
    need (sb = [] || segsOk g sb) stBadArg
    need (t.steal = 0 || !(gemmWords r segs).any isLocal) stBadArg
    if segLocal then chkOf (s.loadSpan x g.segTab 0 (32 * g.segCount) false)
    (gemmPlanes g r segs).foldlM (fun _ p => s.planeCheck x p.1 p.2) ()
/-- A vector instruction word meets R120 and R121. -/
def vecWordOk (b : VecBody) (w : Nat) : Bool :=
  let op := bitsOf w 63 56
  let imm := bitsOf w 31 0
  bitsOf w 33 32 = 0 && bitsOf w 35 34 ≠ 3 &&
  (op ≤ 5 || (8 ≤ op && op ≤ 0x16) || (0x18 ≤ op && op ≤ 0x1E) || op = 0x3F) &&
  (if op = 1 ∨ op = 2 then imm / 2 ^ 24 < 64
   else if op = 3 then imm % 512 < b.accRows && bitsOf imm 15 9 ≤ 16
   else if op = 0x1D then isMx (imm % 16) else true)
/-- The memory accesses of a vector instruction: address register, offset, bytes, write. -/
def vecAccess (w : Nat) : List (Nat × Int × Nat × Bool) :=
  let f := vecFields w
  let n := 4 * (f.imm.toNat / 2 ^ 24 + 1)
  let r := f.zb.val % 16
  match bitsOf w 63 56 with
  | 0x01 => [(r, immOff f.imm, n, false)]
  | 0x02 => [(r, immOff f.imm, n, true)]
  | 0x04 => [(r, immOff f.imm, 4, false)]
  | 0x1D => [(r, 0, 8 * codeWidth (f.imm.toNat % 16), true), (f.zc.val % 16, 0, 2, true)]
  | 0x1E => [(r, immOff f.imm, 4, true)]
  | _ => []
/-- The extent of one access over every iteration. -/
def State.vecSpan (s : State) (x : Ctx) (iter : Nat) (a : List (Nat × Int)) (e : Nat × Int × Nat × Bool) : Chk := do
  let (w, stride) := a.getD e.1 (0, 0)
  let c := ctxAddr x w
  let first := (c.2 : Int) + e.2.1
  let last := first + ((iter : Int) - 1) * stride
  need (0 ≤ first && 0 ≤ last && first % 64 = 0 && (iter = 1 || stride % 64 = 0)) stBadArg
  let lo := (min first last).toNat
  chkOf (s.spanAt x c.1 lo ((max first last).toNat - lo + e.2.2.1) e.2.2.2)
/-- A VEC body with its program and argument table (R121, R127, R129). -/
def State.vecCheck (s : State) (x : Ctx) (t : Task) : Chk := do
  let b := t.vecBody
  need (b.ok t) stBadArg
  need (t.steal = 0 || !(isLocal b.prog || isLocal b.args)) stBadArg
  let pb ← if isLocal b.prog then (.ok []) else s.loadRead x b.prog 0 (8 * b.len)
  let ab ← if isLocal b.args then (.ok []) else s.loadRead x b.args 0 256
  let ws := if pb = [] then [] else words64 pb b.len
  need (ws.all (vecWordOk b)) stBadArg
  let a := if ab = [] then [] else (upTo 16).map (fun i => (leAt ab (16 * i) 8, (BitVec.ofNat 32 (leAt ab (16 * i + 8) 4)).toInt))
  need (a.all (fun e => wordOk e.1) && (t.steal = 0 || !a.any (fun e => isLocal e.1))) stBadArg
  if isLocal b.prog then chkOf (s.loadSpan x b.prog 0 (8 * b.len) false)
  if isLocal b.args then chkOf (s.loadSpan x b.args 0 256 false)
  if ab = [] then .ok ()
  else (ws.flatMap vecAccess).foldlM (fun _ e => s.vecSpan x b.iter a e) ()
/-- A LOAD, STORE or GATHER body (R128, R129). -/
def State.moveCheck (s : State) (x : Ctx) (t : Task) : Chk := do
  let m := t.moveBody
  need (m.ok t) stBadArg
  if t.kind ≠ 6 then chkOf (s.loadSpan x m.dev 0 m.len (t.kind = 5))
/-- A COLL body with its descriptor (R124, R226, R228). -/
def State.collCheck (s : State) (x : Ctx) (lim : GraphLim) (t : Task) : Chk := do
  need (t.word 6 = 0 && t.word 7 = 0 && wordOk (t.word 5) && !isLocal (t.word 5) && addrOf (t.word 5) % 64 = 0) stBadArg
  let b ← s.loadRead x (t.word 5) 0 64
  need (collOk lim.ctrs (words64 b 8)) stBadArg
/-- One descriptor (R129). -/
def State.taskCheck (s : State) (x0 : Ctx) (lim : GraphLim) (die : Nat) (t : Task) : Chk := do
  need (headOk lim x0.part t) stBadArg
  s.homeCheck lim die t
  let x := { x0 with home := t.home, core := t.home }
  match t.kind with
  | 0 => s.gemmCheck x t
  | 1 => s.gemmCheck x t
  | 2 => s.gemmCheck x t
  | 3 => s.vecCheck x t
  | 7 => s.collCheck x lim t
  | 8 => chkOf (s.updCheck x lim.ctrs t)
  | _ => s.moveCheck x t

/-! ### Images (R131, R149) -/

/-- A graph image's header. -/
structure GraphHead where
  count : Nat
  ctrs : Nat
  cpl : Nat
  lists : List (Nat × Nat)
  table : Nat
deriving DecidableEq, Repr
/-- Parse a header of 64 bytes. -/
def graphHead (h : List Byte) : GraphHead :=
  { count := leAt h 8 4, ctrs := leAt h 12 4, cpl := leAt h 16 4, lists := (upTo 4).map (fun d => (leAt h (24 + 8 * d) 4, leAt h (28 + 8 * d) 4)), table := leAt h 56 4 }
/-- Length of the image: to the end of the furthest of its parts. -/
def GraphHead.len (g : GraphHead) : Nat :=
  (g.lists.filter (fun l => l.2 ≠ 0)).foldl (fun m l => max m (l.1 + 64 * l.2)) (max 64 (g.table + 8 * g.ctrs))
/-- Pairwise disjoint spans. -/
def disjointAll : List (Nat × Nat) → Bool
  | [] => true
  | a :: t => t.all (fun b => !overlaps a.1 a.2 b.1 b.2) && disjointAll t
/-- Header and layout (R131). -/
def GraphHead.ok (g : GraphHead) (h : List Byte) : Bool :=
  let ls := g.lists.filter (fun l => l.2 ≠ 0)
  leAt h 0 4 = 0x47544B32 && leAt h 4 2 = 0x0200 && leAt h 6 2 = 0 && leAt h 20 4 = 0 &&
  1 ≤ g.count && g.count ≤ 16777216 && 1 ≤ g.ctrs && g.ctrs ≤ 16384 && g.cpl ≤ 65536 &&
  ls.all (fun l => 64 ≤ l.1 && l.1 % 64 = 0) && 64 ≤ g.table && g.table % 8 = 0 &&
  disjointAll ((g.table, 8 * g.ctrs) :: ls.map (fun l => (l.1, 64 * l.2))) &&
  (g.lists.map (·.2)).foldl (· + ·) 0 = g.count
/-- The descriptors of an image with the die of their list. -/
def graphTasks (job : Nat) (img : List Byte) (g : GraphHead) : List (Nat × Task) :=
  g.lists.zipIdx.flatMap (fun l => (upTo l.1.2).map (fun i =>
    (l.2, ({ owner := .job job, w := words64 (img.drop (l.1.1 + 64 * i)) 8 } : Task))))
/-- No F or B task waits on a counter that a W task signals (R149). -/
def phasesOk (ts : List (Nat × Task)) : Bool :=
  let sig := (ts.filter (fun t => t.2.phase = 2 && t.2.sigInc ≠ 0)).map (fun t => t.2.sigId)
  ts.all (fun t => !(t.2.phase = 0 || t.2.phase = 1) || t.2.waits.all (fun w => !sig.contains w.1))
/-- At most one UPD task names each layer (R179). -/
def updsOk (ts : List (Nat × Task)) : Bool := allDistinct ((ts.filter (fun t => t.2.kind = 8)).map (fun t => t.2.updLayer))
/-- Count by a key: how many tasks of a selection have each. -/
def countBy (k : Task → Nat) (ts : List (Nat × Task)) : Tab Nat :=
  ts.foldl (fun m t => tabSet m (k t.2) (tabGet 0 m (k t.2) + 1)) []
/-- Every check of a graph's tasks. -/
def State.graphCheck (s : State) (x : Ctx) (lim : GraphLim) (ts : List (Nat × Task)) : Chk := do
  ts.foldlM (fun _ t => s.taskCheck x lim t.1 t.2) ()
  need (phasesOk ts && updsOk ts) stBadArg

end Sys2Proof.Machine
end

