-- ==== Sys2Proof/Machine/Services.lean ====
section
/-! DEFINITION. Loop services (R236 to R261): images and contracts, reservations, admission and the proving
run, the period machine, completion records, publication. -/

namespace Sys2Proof.Machine

/-! ### Images and contracts (R236 to R239) -/

/-- The header of a service image (R236). -/
structure SvcHead where
  cores : Nat
  wc : Nat
  tasks : Nat
  taskOff : Nat
  initBytes : Nat
  initOff : Nat
  counters : Nat
  wmapN : Nat
  ctrOff : Nat
  wmapOff : Nat
  proveOff : Nat
  inBytes : Nat
  outBytes : Nat
  stateBytes : Nat
deriving DecidableEq, Repr
/-- Parse a header. -/
def svcHead (h : List Byte) : SvcHead :=
  { cores := leAt h 6 2, wc := leAt h 8 4, tasks := leAt h 12 4, taskOff := leAt h 16 4, initBytes := leAt h 20 4, initOff := leAt h 24 4, counters := leAt h 28 2, wmapN := leAt h 30 2, ctrOff := leAt h 32 4, wmapOff := leAt h 36 4, proveOff := leAt h 40 4, inBytes := leAt h 44 4, outBytes := leAt h 48 4, stateBytes := leAt h 52 4 }
/-- The limits of R236, within an image of `n` bytes. -/
def SvcHead.ok (g : SvcHead) (h : List Byte) (n : Nat) : Bool :=
  leAt h 0 4 = 0x53564732 && leAt h 4 2 = 0x0100 && leAt h 56 8 = 0 && 64 ≤ n &&
  8 ≤ g.cores && g.cores ≤ 512 && g.cores % 8 = 0 && 1 ≤ g.tasks && g.tasks ≤ 65536 &&
  g.initBytes ≤ 458752 && g.initBytes % 64 = 0 && 1 ≤ g.counters && g.counters ≤ 1024 &&
  1 ≤ g.wmapN && g.wmapN ≤ 4096 && 64 ≤ g.inBytes && g.inBytes ≤ 0x1000000 && g.inBytes % 64 = 0 &&
  g.outBytes ≤ 131072 && g.outBytes % 64 = 0 && g.stateBytes ≤ 0x4000000 && g.stateBytes % 4096 = 0 &&
  g.taskOff + 64 * g.tasks ≤ n && g.initOff + g.cores * g.initBytes ≤ n && g.ctrOff + 4 * g.counters ≤ n &&
  g.wmapOff + 16 * g.wmapN ≤ n && g.proveOff + g.inBytes ≤ n
/-- The contract's blocks: column group and core count (R238). -/
def contractBlocks (a : List Byte) : List (Nat × Nat) := (upTo (leAt a 67 1)).map (fun i => (leAt a (68 + 2 * i) 1, leAt a (69 + 2 * i) 1))
/-- The fields of a contract that no memory decides (R238, R239). -/
def contractOk (a : List Byte) (g : SvcHead) : Bool :=
  let p := leAt a 12 4
  let d := leAt a 16 4
  let bl := contractBlocks a
  leAt a 8 1 < 64 && leAt a 9 1 < 8 && leAt a 10 1 < 2 && leAt a 11 1 < 3 && 5000 ≤ p && p ≤ 1000000000 &&
  2000 ≤ d && d ≤ p && (leAt a 10 1 = 1 || (1 ≤ leAt a 20 4 && leAt a 20 4 ≤ 65535)) &&
  wordOk (leAt a 24 8) && !(leAt a 24 8).testBit 63 && leAt a 24 8 % 64 = 0 && leAt a 32 8 % 64 = 0 &&
  wordOk (leAt a 40 8) && !(leAt a 40 8).testBit 63 && leAt a 40 8 % 4096 = 0 &&
  wordOk (leAt a 48 8) && !(leAt a 48 8).testBit 63 && leAt a 48 8 % 4096 = 0 &&
  !overlaps (leAt a 40 8) g.stateBytes (leAt a 48 8) g.stateBytes && leAt a 56 8 % 4096 = 0 &&
  4 ≤ leAt a 64 1 && leAt a 64 1 ≤ 12 && leAt a 66 1 < 2 && 1 ≤ leAt a 67 1 && leAt a 67 1 ≤ 8 &&
  (a.drop 84).all (· = 0) && bl.all (fun b => b.1 < 32 && 8 ≤ b.2 && b.2 ≤ 64 && b.2 % 8 = 0) &&
  (bl.map (·.2)).foldl (· + ·) 0 = g.cores
/-- A span that a contract names: OK, NOT_PERMITTED or BAD_ARGUMENT (R240). -/
def State.spanSt (s : State) (p a n : Nat) : Nat :=
  if n = 0 then stOk
  else match s.span (some p) a n with
    | .ok => stOk
    | .hole => stBadArg
    | _ => stNotPerm
/-- A span at an address of the R40 form: host memory is not checked. -/
def State.r40St (s : State) (p w n : Nat) : Nat := if r40Dev w then s.spanSt p (w % 2 ^ 63) n else stOk
/-- Every address of a contract, and its groups, lie inside the partition (R240). -/
def State.contractSpans (s : State) (p : Nat) (a : List Byte) (g : SvcHead) : Chk := do
  chkOf (s.spanSt p (leAt a 24 8) g.inBytes)
  chkOf (s.r40St p (leAt a 32 8) g.outBytes)
  chkOf (s.spanSt p (leAt a 40 8) g.stateBytes)
  chkOf (s.spanSt p (leAt a 48 8) g.stateBytes)
  chkOf (s.r40St p (leAt a 56 8) (32 * 2 ^ leAt a 64 1))
  need ((contractBlocks a).all (fun b => s.groupPart b.1 = some p)) stNotPerm
/-- The base of an output staging area: the highest free 4 KiB units at the top of the partition's highest
range (DESIGN CHOICE, log 37). -/
def State.stageFor (s : State) (p n : Nat) : Option Nat :=
  match (s.ranges.filter (fun r => r.part = some p)).getLast? with
  | none => none
  | some r =>
    let used := (s.svcs.filter (fun e => e.2.part = p)).map (fun e => (e.2.stage, roundUp e.2.outBytes 4096))
    let top := (r.base + r.len) / 4096 * 4096
    let size := roundUp n 4096
    let cands := (top :: used.map (·.1)).filter (fun t => decide (r.base + size ≤ t) && used.all (fun u => !overlaps (t - size) size u.1 u.2))
    (cands.foldl (fun m t => match m with | none => some t | some x => some (max x t)) none).map (· - size)
/-- The cores of a reservation, block by block, each from the highest logical ids of its group that are
neither reserved nor HOME of a loaded task (R239). -/
def State.reserve (s : State) (bl : List (Nat × Nat)) : Option (List Nat) :=
  bl.foldl (fun (acc : Option (List Nat)) b =>
    match acc with
    | none => none
    | some cs =>
      let free := (upTo 64).map (· + 64 * b.1) |>.filter (fun c => (tabFind s.remap c).isSome && (s.core c).svc.isNone && !cs.contains c && !s.jobs.any (fun e => e.2.homes.contains c))
      if free.length < b.2 then none else some (cs ++ free.drop (free.length - b.2))) (some [])

/-! ### Weights (R256) -/

/-- Entry i of a snapshot image. -/
def snapEntry (img : List Byte) (i : Nat) : List Byte := (img.drop (64 + 32 * i)).take 32
/-- Check a region's contents as service weights: 0, or the reason of PUBLISH_FAILED (0x10 VERIFY, 0x11
MISMATCH). -/
def State.weightsCheck (s : State) (base len : Nat) (wmap : List (Nat × Nat)) : Nat :=
  match s.devRead base 64 with
  | none => 0x10
  | some h =>
    let n := leAt h 6 2
    if leAt h 0 4 ≠ 0x534E5032 ∨ leAt h 4 2 ≠ 0x0100 ∨ (leAt h 20 4) % 2 ≠ 0 ∨ len < 64 + 32 * n then 0x10
    else match s.devRead base (64 + 32 * n) with
      | none => 0x10
      | some hd =>
        let es := (upTo n).map (snapEntry hd)
        let layerOk := fun (e : List Byte) =>
          decide (leAt e 8 8 + leAt e 16 8 ≤ len) && (match s.devRead (base + leAt e 8 8) (leAt e 16 8) with
            | none => false
            | some d => decide (crc32c d = leAt e 24 4))
        if crc32c (zeroed hd 60 4) ≠ leAt h 60 4 ∨ !es.all layerOk then 0x10
        else if wmap.all (fun w => es.any (fun e => leAt e 0 2 = w.1 && leAt e 16 8 = w.2)) then 0
        else 0x11
/-- The first uncorrectable line that a check of weights meets, as its address. -/
def State.weightsUe (s : State) (base len : Nat) : Option Nat :=
  let n := leAt (s.devMem.readN base 64) 6 2
  let es := (upTo n).map (snapEntry (s.devMem.readN base (64 + 32 * n)))
  let parts := (base, 64 + 32 * n) :: (es.filter (fun e => leAt e 8 8 + leAt e 16 8 ≤ len)).map (fun e => (base + leAt e 8 8, leAt e 16 8))
  (parts.findSome? (fun p => badIn s.mem.badLines p.1 p.2)).map (· * 64)
/-- The weight map of an image. -/
def weightMap (img : List Byte) (g : SvcHead) : List (Nat × Nat) :=
  (upTo g.wmapN).map (fun i => (leAt img (g.wmapOff + 16 * i) 2, leAt img (g.wmapOff + 16 * i + 8) 8))
/-- A region by number. -/
def State.region? (s : State) (i : Nat) : Option Region := tabFind s.mem.regions i

/-! ### Admission (R241, R242) -/

/-- W_A in ticks: 1.04 * WC_CYCLES / f + 10 us, rounded up. -/
def admitTicks (wc gopp : Nat) : Nat := ceilDiv (104 * wc) (10 * oppFreq gopp) + 1000
/-- t_IN in ticks, rounded up: no requirement changes, since W_A and D are whole. -/
def State.inTicks (s : State) (src bytes : Nat) : Nat :=
  match src with
  | 0 => ceilDiv bytes (10 * s.rf .svcDev 0x008 6 0)
  | 1 => ceilDiv bytes 1000
  | _ => 0
/-- GOPP raised to the highest guarantee in the contract's groups (R241). -/
def State.raiseGopp (s : State) (gopp : Nat) (bl : List (Nat × Nat)) : Nat :=
  bl.foldl (fun m b => match s.guarantee b.1 with | none => m | some o => min m o) gopp
/-- The result of REFUSED_ADMISSION (R240). -/
def refusedResult (measured required : Nat) : List Byte := zeros 4 ++ natLE 4 measured ++ natLE 4 required

/-! ### Reserved cores -/

/-- Abandon a training task on a reserved core (R139): no record, no signal; it returns to the head of its
HOME core's deque, or waits in the walker while that deque is full. -/
def State.evict (s : State) (c : Nat) : State :=
  match (s.core c).run with
  | none => s
  | some r =>
    match r.task.owner with
    | .svc _ => s
    | .job j =>
      let t := r.task
      let s1 := s.stopCore c
      let h := s1.core t.home
      let gone := (s1.job? j).any (fun x => x.st ≠ .running)
      let s2 := if gone then s1.tryStopped j
        else if h.deque.length < 32 then s1.setCore t.home { h with deque := t :: h.deque }
        else match s1.job? j with
          | none => s1
          | some x =>
            let d := coreDie t.home
            let w := tabGet {} x.walkers d
            s1.setJob j { x with walkers := tabSet x.walkers d { w with returned := w.returned ++ [t] } }
      s2.stat (c / 64) (fun g => { g with restarts := (g.restarts + 1) % 65536, durOver := (g.durOver + 1) % 65536 })
/-- What a reserved core's own tasks leave behind when they stop: R114, and an empty deque. -/
def State.flushCore (s : State) (c : Nat) : State :=
  let s1 := (s.evict c).stopCore c
  s1.setCore c { s1.core c with deque := [] }
/-- Reserved cores, staging and counters hold undefined values after a proving run. -/
def State.afterProving (s : State) (v : Svc) : State :=
  let g := s.mem.gen
  let s1 := v.cores.foldl (fun st c => { st with acc := st.acc.filter (fun e => e.1 / 40960 ≠ c), accFlags := st.accFlags.filter (fun e => e.1 / 512 ≠ c), accGen := tabSet st.accGen c (g + 1), localMem := st.localMem.scramble (c * 2 ^ 20) (2 ^ 20) g }) s
  let s2 := (upTo v.counters).foldl (fun st i => let (n, st1) := st.draw; st1.setCtr (v.ctrBase + i) (BitVec.ofNat 64 n)) s1
  let s3 := { s2 with mem := { s2.mem with gen := g + 2 } }
  if v.outBytes = 0 then s3 else s3.scrambleDev v.stage v.outBytes
/-- A guarantee has lapsed now (R24, R243): PWRBRK_N, or a thermal throttle of one of its groups. -/
def State.lapsed (s : State) (v : Svc) : Bool := s.power.pwrbrk || v.blocks.any (fun b => tabGet false s.con.groupThrottle b.1)
/-- The proving run starts: training tasks leave the reserved cores, and nothing is measured yet. -/
def State.startProving (s : State) (k : Nat) (v : Svc) : State :=
  let s1 := v.cores.foldl (fun st c => st.flushCore c) s
  s1.setSvc k { v with st := .proving, lapse := s.lapsed v, measured := 0, runs := 0, discarded := 0 }

/-! ### SVC_REGISTER (R240) -/

/-- What registration has read: the partition, image address, key, digest and image. -/
abbrev SvcImage := Nat × Nat × Nat × List Byte × List Byte
/-- Read and verify the image that a contract names (R240, step 1). -/
def State.svcImage (s : State) (r : Req) : Except Nat SvcImage :=
  let w := leAt r.arg 0 8
  let a := addrOf w
  let part := match r.scope with | some p => some p | none => s.setOwner (a / slotBytes)
  match part with
  | none => .error stBadArg
  | some p =>
    if r.arg.length ≠ 128 ∨ !wordOk w ∨ w.testBit 63 ∨ a % 64 ≠ 0 ∨ a < 256 then .error stBadArg
    else do
      chkOf (s.spanSt p (a - 256) 256)
      match s.fwRead (a - 256) 256 with
      | .error e => .error e
      | .ok blk =>
        let n := leAt blk 16 8
        if n = 0 then .error stVerify
        else
          chkOf (s.spanSt p (a - 256) (256 + n))
          match s.fwRead a n with
          | .error e => .error e
          | .ok img =>
            match s.verifyImage blk img 4 (some p) with
            | none => .error stVerify
            | some (key, dig) => .ok (p, a, key, dig, img)
/-- The checks of R240 up to admission: the service they lead to, with its reservation. -/
def State.svcContract (s : State) (r : Req) (i : SvcImage) : Except Nat Svc := do
  let a := r.arg
  let p := i.1
  let img := i.2.2.2.2
  let g := svcHead (img.take 64)
  need (g.ok (img.take 64) img.length && contractOk a g) stBadArg
  s.contractSpans p a g
  let stage := s.stageFor p g.outBytes
  let region ← match s.region? (leAt a 8 1) with
    | none => .error stBadArg
    | some x => if x.part = some p then .ok x else .error stNotPerm
  let x : Ctx := { core := 0, home := 0, part := p, auto := false, move := none, bases := [stage.getD (leAt a 24 8), leAt a 24 8, leAt a 48 8, leAt a 40 8, region.base] }
  let lim : GraphLim := { ctrs := g.counters, cpl := 0, groups := 0, svc := some g.cores }
  (upTo g.tasks).foldlM (fun _ n => s.taskCheck x lim 0 { owner := .svc 0, w := words64 (img.drop (g.taskOff + 64 * n)) 8 }) ()
  match s.weightsCheck region.base region.len (weightMap img g) with
  | 0x10 => .error (match s.weightsUe region.base region.len with | some u => s.ueStatus u 1 | none => stVerify)
  | 0x11 => .error stBadArg
  | _ => .ok ()
  let bl := contractBlocks a
  match s.reserve bl, s.findCtrs p (g.counters + 2), stage, tabFree s.svcs 64 with
  | some cs, some base, some st, some _ =>
    if 512 < (s.svcs.map (fun e => e.2.cores.length)).foldl (· + ·) cs.length then .error stNoRes
    else
      let gopp := s.raiseGopp (leAt a 9 1) bl
      .ok { part := p, mailbox := r.mb, image := i.2.1, wcCycles := g.wc, gopp := gopp, doorbellMode := leAt a 10 1 = 1, inSrc := leAt a 11 1, period := leAt a 12 4, deadline := leAt a 16 4, inInc := leAt a 20 4, inAddr := leAt a 24 8, outAddr := leAt a 32 8, state0 := leAt a 40 8, state1 := leAt a 48 8, ring := leAt a 56 8, ringLog2 := leAt a 64 1, blocks := bl, cores := cs, ctrBase := base, counters := g.counters, inBytes := g.inBytes, outBytes := g.outBytes, stateBytes := g.stateBytes, stage := st, waTicks := admitTicks g.wc gopp, wregion := leAt a 8 1 }
  | _, _, _, _ => .error stNoRes
/-- The registers that show a contract (R260). -/
def State.svcRegs (s : State) (k : Nat) (v : Svc) (intEn vec : Nat) : State :=
  let ctrl := fieldAt v.gopp 3 29 + flagAt v.doorbellMode 28 + fieldAt v.inSrc 2 26 + fieldAt v.cores.length 10 16 + fieldAt intEn 1 15 + fieldAt vec 8 0
  (((s.dropRegs (.svc k)).setReg (.svc k) 0x000 (BitVec.ofNat 32 ctrl)).setReg (.svc k) 0x004 (BitVec.ofNat 32 v.period)).setReg (.svc k) 0x008 (BitVec.ofNat 32 v.deadline)
/-- SVC_REGISTER (R240): the command responds after the proving run. -/
def cmdSvcRegister (s : State) (r : Req) : CmdOut :=
  match s.svcImage r with
  | .error e => failWith s e
  | .ok i =>
    match s.svcContract r i with
    | .error e => failWith s e
    | .ok v =>
      let t := s.inTicks v.inSrc v.inBytes + v.waTicks
      if v.deadline < t then .done s stRefused (refusedResult 0 t)
      else
        let k := (tabFree s.svcs 64).getD 0
        let s1 := v.cores.foldl (fun st c => st.setCore c { st.core c with svc := some k }) s
        let s2 := (upTo (v.counters + 2)).foldl (fun st n => st.setCtr (v.ctrBase + n) 0) s1
        let s3 := ((s2.setSvc k v).svcRegs k v (leAt r.arg 66 1) (leAt r.arg 65 1)).measure ⟨4, v.part, i.2.2.1, k, i.2.2.2.1⟩
        .wait (s3.startProving k v) k 0
/-- SVC_REGISTER. -/
def execSvcRegister (mb : MbId) (s : State) : Out := .next (runCmd s mb.val 0x0601 (.block 0) false cmdSvcRegister)

/-- Release everything that a service holds (R254): its cores, counters, staging area, regions. -/
def State.svcFree (s : State) (k : Nat) : State :=
  match s.svc? k with
  | none => s
  | some v =>
    let s1 := v.cores.foldl (fun st c => st.setCore c { st.core c with svc := none }) s
    (({ s1 with svcs := tabDel s1.svcs k }).dropRegs (.svc k)).unmeasure 4 k
/-- The result of a registration (R240). -/
def registerResult (k : Nat) (v : Svc) : List Byte :=
  let firsts := (v.blocks.foldl (fun (a : List Nat × List Nat) b => (a.1 ++ [a.2.headD 0xFFFF], a.2.drop b.2)) ([], v.cores)).1
  natLE 2 k ++ natLE 1 v.gopp ++ zeros 1 ++ natLE 4 v.measured ++ natLE 4 v.waTicks ++ natLE 4 (v.deadline - v.waTicks) ++
  natLE 2 (v.ctrBase + v.counters) ++ natLE 2 (v.ctrBase + v.counters + 1) ++
  ((firsts ++ List.replicate 8 0xFFFF).take 8).flatMap (natLE 2)
/-- The proving run has ended well: the service is REGISTERED, and its command answers. -/
def State.proved (s : State) (k : Nat) (v : Svc) : State :=
  let s1 := s.setSvc k { v with st := .registered, resuming := false, lapse := false, window := [] }
  if v.resuming then s1.answerWhere (fun w => w.op = 0x0605 && w.what = k) stOk []
  else s1.answerWhere (fun w => w.op = 0x0601 && w.what = k) stOk (registerResult k v)
/-- The proving run has failed: a new service is released, a suspended one stays SUSPENDED (R252). -/
def State.notProved (s : State) (k : Nat) (v : Svc) (status : Nat) : State :=
  if v.resuming then
    (s.setSvc k { v with st := .suspended, resuming := false, lapse := false }).answerWhere (fun w => w.op = 0x0605 && w.what = k) status []
  else
    (s.svcFree k).answerWhere (fun w => w.op = 0x0601 && w.what = k) status
      (if status = stRefused then refusedResult v.measured (s.inTicks v.inSrc v.inBytes + v.waTicks) else [])
/-- PROVING_RUN_COMPLETE (R243): one run has ended with its measured cycles. A run in which the guarantee
lapsed is discarded. -/
def execProvingRunComplete (svc : SvcId) (cycles : Nat) (s : State) : Out :=
  let k := svc.val
  .next (match s.svc? k with
    | none => s
    | some v =>
      if v.st ≠ .proving then s
      else
        let s1 := s.afterProving v
        if v.lapse ∨ s.lapsed v then
          let v1 := { v with discarded := v.discarded + 1, lapse := s.lapsed v }
          if v1.discarded = 16 then s1.notProved k v1 stTimeout else s1.setSvc k v1
        else
          let v1 := { v with runs := v.runs + 1, measured := max v.measured cycles }
          if v.wcCycles < cycles then s1.notProved k v1 stRefused
          else if v1.runs = 16 then s1.proved k v1
          else s1.setSvc k v1)
/-- The service that a request names in word 0 bits 5:0, of the mailbox's partition. -/
def State.reqSvc (s : State) (r : Req) : Except Nat (Nat × Svc) :=
  let k := bitsOf (r.w 0) 5 0
  match s.svc? k with
  | none => .error stBadArg
  | some v => if r.scope = none ∨ r.scope = some v.part then .ok (k, v) else .error stNotPerm
/-- SVC_RESUME (R252): the proving run again. -/
def cmdSvcResume (s : State) (r : Req) : CmdOut :=
  match s.reqSvc r with
  | .error e => failWith s e
  | .ok (k, v) =>
    if v.st ≠ .suspended ∨ v.leaving then failWith s stWrong
    else .wait (s.startProving k { v with resuming := true }) k 0
/-- SVC_RESUME. -/
def execSvcResume (mb : MbId) (s : State) : Out := .next (runCmd s mb.val 0x0605 (.exact 1) false cmdSvcResume)
/-- SVC_ARM (R245): periods count afresh from 0. -/
def cmdSvcArm (s : State) (r : Req) : CmdOut :=
  match s.reqSvc r with
  | .error e => failWith s e
  | .ok (k, v) =>
    let t0 := r.w 1
    if v.st ≠ .registered ∨ v.leaving then failWith s stWrong
    else if (if v.doorbellMode then decide (t0 ≠ 0) else decide (t0 < s.tick + 10000) || decide (s.tick + 2 ^ 40 < t0)) then failWith s stBadArg
    else
      let s1 := (s.setCtr (v.ctrBase + v.counters) 0).setCtr (v.ctrBase + v.counters + 1) 0
      okNow (s1.setSvc k { v with st := .armed, ph := .idle, t0 := t0, k := 0, started := false, heldDb := false })
/-- SVC_ARM. -/
def execSvcArm (mb : MbId) (s : State) : Out := .next (runCmd s mb.val 0x0603 (.exact 2) false cmdSvcArm)
/-- SVC_DEREGISTER (R254): at once while no period runs, else at the end of the running one. -/
def cmdSvcDeregister (s : State) (r : Req) : CmdOut :=
  match s.reqSvc r with
  | .error e => failWith s e
  | .ok (k, v) =>
    if v.st = .proving ∨ v.leaving then failWith s stWrong
    else if v.ph = .idle then okNow (s.svcFree k)
    else .wait (s.setSvc k { v with leaving := true }) k 0
/-- SVC_DEREGISTER. -/
def execSvcDeregister (mb : MbId) (s : State) : Out := .next (runCmd s mb.val 0x0602 (.exact 1) false cmdSvcDeregister)

/-! ### Records (R255) -/

/-- A completion record. -/
structure SvcRec where
  per : Nat
  kind : Nat
  reason : Nat := 0
  lapse : Bool := false
  new : Bool := false
  region : Nat := 0
  start : Nat
  tIn : Nat
  tEnd : Nat
  cycles : Nat := 0
  num : Nat := 0
deriving DecidableEq, Repr
/-- The bytes of a record. -/
def SvcRec.bytes (c : SvcRec) (gap : Bool) : List Byte :=
  natLE 4 c.per ++ natLE 1 c.kind ++ natLE 1 c.reason ++ natLE 1 (flagAt c.lapse 0 + flagAt c.new 1 + flagAt gap 2) ++ natLE 1 c.region ++
  natLE 8 c.start ++ natLE 4 c.tIn ++ natLE 4 c.tEnd ++ natLE 4 c.cycles ++ natLE 1 (c.num % 16) ++ zeros 3
/-- Write a record, then count a DONE period in DONE_CTR, then raise the vector. A full ring discards the
record, counts it, and marks the next one. -/
def State.svcRecord (s : State) (k : Nat) (c : SvcRec) : State :=
  match s.svc? k with
  | none => s
  | some v =>
    let n := 2 ^ v.ringLog2
    let ctrl := s.reg (.svc k) 0x000
    let full := decide ((v.prod + 2 * n - s.rf (.svc k) 0x01C 12 0 % (2 * n)) % (2 * n) = n)
    let s1 := if full then s.setSvc k { v with ringLost := satAdd 0xFF v.ringLost 1, gap := true }
      else (s.r40Write (v.ring + 32 * (v.prod % n)) (c.bytes v.gap)).setSvc k { v with prod := (v.prod + 1) % (2 * n), gap := false }
    let s2 := if c.kind = 1 then s1.addCtr (v.ctrBase + v.counters + 1) 1 else s1
    if !full ∧ flag ctrl 15 then s2.msi (fld ctrl 7 0) else s2
/-- The index of the current or last period. -/
def Svc.cur (v : Svc) : Nat := v.k - 1
/-- CYCLES of a period: a free value once RUN was reached (log 4), else 0. -/
def State.svcCycles (s : State) (v : Svc) : Nat × State :=
  if v.ph = .run ∨ v.ph = .writeback then s.draw else (0, s)
/-- The record of the current period. -/
def State.periodRec (s : State) (v : Svc) (kind reason cycles : Nat) : SvcRec :=
  { per := v.cur, kind := kind, reason := reason, lapse := v.lapse, new := v.newWeights, start := v.start, tIn := (match v.inputTick with | none => 0xFFFFFFFF | some t => t - v.start), tEnd := s.tick - v.start, cycles := cycles, num := v.num }

/-! ### The end of a period -/

/-- SVC_MISSED, at most once per 100 ms (R261). -/
def State.svcMissEvent (s : State) (k : Nat) : State :=
  match s.svc? k with
  | none => s
  | some v =>
    if v.missSince = 0 ∨ v.missEvent.any (fun t => s.tick < t + 10000000) then s
    else
      (s.setSvc k { v with missSince := 0, missEvent := some s.tick }).raise 0x5001 [v.part] true v.part (natLE 2 k ++ natLE 4 v.missSince)
/-- A deregistration that waited for the period's end completes (R254). -/
def State.svcLeave (s : State) (k : Nat) : State :=
  match s.svc? k with
  | none => s
  | some v => if v.leaving ∧ v.ph = .idle then ((s.svcFree k).answerWhere (fun w => w.op = 0x0602 && w.what = k) stOk []).pewterDone (v.mailbox - 56) else s
/-- Count a started period in the window of R252. -/
def Svc.push (v : Svc) (miss : Bool) : Svc := { v with window := (miss :: v.window).take 1000 }
/-- Abandon the period (R250): every task on the reserved cores stops, a MISSED record is written, and the
third counted miss suspends the service (R252). Reasons: 1 INPUT_LATE, 2 OVERRUN, 3 TASK_FAULT. -/
def State.svcMiss (s : State) (k reason : Nat) : State :=
  match s.svc? k with
  | none => s
  | some v =>
    let own := fun (c : CoreS) => c.run.any (fun r => r.task.owner = .svc k)
    let s1 := v.cores.foldl (fun st c =>
      let st1 := if own (st.core c) then st.stopCore c else st
      st1.setCore c { st1.core c with deque := (st1.core c).deque.filter (fun t => t.owner ≠ .svc k) }) s
    let (cyc, s2) := s1.svcCycles v
    let counted := reason ≠ 1 && !v.lapse
    let v1 := v.push counted
    let sus := counted && decide (3 ≤ windowMisses v1)
    let v2 := { v1 with ph := .idle, todo := [], missSince := v.missSince + 1, st := if sus then .suspended else v.st, late := if reason = 1 then satAdd 0xFFFF v.late 1 else v.late, overrun := if reason = 2 then satAdd 0xFFFF v.overrun 1 else v.overrun, taskFault := if reason = 3 then satAdd 0xFF v.taskFault 1 else v.taskFault, heldDb := v.heldDb && !sus }
    let s3 := (s2.setSvc k v2).svcRecord k (s.periodRec v 2 reason cyc)
    let s4 := if sus then (s3.svcRecord k { s.periodRec v 5 0 cyc with lapse := false, new := false }).raise 0x5002 [v.part] true v.part (natLE 2 k) else s3
    (s4.svcMissEvent k).svcLeave k
/-- What the clock has ended by now: a period past D, or past C without complete input. -/
def State.svcOverdue (s : State) (k : Nat) : State :=
  match s.svc? k with
  | none => s
  | some v =>
    if v.ph = .idle ∨ v.ph = .writeback then s
    else if v.inputTick.isNone then (if v.start + (v.deadline - v.waTicks) ≤ s.tick then s.svcMiss k 1 else s)
    else if v.start + v.deadline ≤ s.tick then s.svcMiss k 2 else s
/-- INPUT_CUTOFF (R248): at C without complete input the period is MISSED. -/
def execInputCutoff (svc : SvcId) (s : State) : Out :=
  .next (match s.svc? svc.val with
    | none => s
    | some v => if (v.ph = .clean ∨ v.ph = .input) ∧ v.inputTick.isNone ∧ v.start + (v.deadline - v.waTicks) ≤ s.tick then s.svcMiss svc.val 1 else s)
/-- DEADLINE (R250): at D the period is abandoned. -/
def execDeadline (svc : SvcId) (s : State) : Out :=
  .next (match s.svc? svc.val with
    | none => s
    | some v => if v.ph ≠ .idle ∧ v.ph ≠ .writeback ∧ v.inputTick.isSome ∧ v.start + v.deadline ≤ s.tick then s.svcMiss svc.val 2 else s)
/-- The last task of a period has completed (R249). -/
def State.svcLast (s : State) (k : Nat) : State :=
  match s.svc? k with
  | none => s
  | some v => if s.tick + 300 ≤ v.start + v.deadline then s.setSvc k { v with ph := .writeback } else s.svcMiss k 2
/-- A task of a service ends (R237, R250): its signal and NUM bits, or the period's TASK_FAULT. -/
def State.endSvcTask (s : State) (k : Nat) (t : Task) (core : Nat) (r : Result) (start : Nat) : State :=
  match s.svc? k with
  | none => s
  | some v =>
    if v.ph ≠ .run then s
    else if r.status ≠ 0 then s.svcMiss k 3
    else
      let s1 := if t.sigInc = 0 then s else s.addCtr (v.ctrBase + t.sigId) t.sigInc
      let s2 := (s1.countDone core t start).setSvc k { v with num := v.num ||| r.num0 / 2 ^ 28, tasksLeft := v.tasksLeft - 1 }
      if v.tasksLeft = 1 then s2.svcLast k else s2.svcRelease k
/-- WRITEBACK_DONE (R248, R251, R255): staging goes to the output region, the written state buffer becomes
the committed one, the DONE record is written and DONE_CTR advances. A failed copy ends the period as
TASK_FAULT. -/
def execWritebackDone (svc : SvcId) (s : State) : Out :=
  let k := svc.val
  .next (match s.svc? k with
    | none => s
    | some v =>
      if v.ph ≠ .writeback then s
      else match (if v.outBytes = 0 then some [] else s.devRead v.stage v.outBytes) with
        | none => (s.devReadBad v.stage v.outBytes).svcMiss k 3
        | some bs =>
          let s1 := s.r40Write v.outAddr bs
          let (cyc, s2) := s1.svcCycles v
          let v1 := { v.push false with ph := .idle, committed := !v.committed, doneCount := (v.doneCount + 1) % 2 ^ 32 }
          ((s2.setSvc k v1).svcRecord k (s.periodRec v 1 0 cyc)).svcLeave k)
/-- SVC_MISSED (R261): the misses since the last event are reported once 100 ms have passed. -/
def execSvcMissed (svc : SvcId) (s : State) : Out := .next (s.svcMissEvent svc.val)

/-! ### The start of a period -/

/-- Read the counter table and the initial blocks of an image: none when a line is uncorrectable. -/
def State.svcInit (s : State) (v : Svc) (g : SvcHead) : Option (List Byte × List (List Byte)) := do
  let ct ← s.devRead (v.image + g.ctrOff) (4 * g.counters)
  let bl ← (upTo v.cores.length).mapM (fun i => s.devRead (v.image + g.initOff + i * g.initBytes) g.initBytes)
  return (ct, bl)
/-- A pending publication takes effect with a PUBLISHED record (R257). -/
def State.svcPublish (s : State) (k : Nat) (v : Svc) (start : Nat) : State :=
  match v.pubRegion with
  | none => s.setSvc k { v with newWeights := false }
  | some w =>
    (s.setSvc k { v with wregion := w, pubRegion := none, newWeights := true }).svcRecord k { per := v.k, kind := 3, region := w, start := start, tIn := 0xFFFFFFFF, tEnd := s.tick - start }
/-- A period starts (R248): pending fields apply, the reserved cores are cleaned, counters and local stores
take their initial contents, a publication becomes current. A read that fails ends it as TASK_FAULT. -/
def State.svcStart (s : State) (k start : Nat) : State :=
  match s.svc? k with
  | none => s
  | some v =>
    let s1 := v.cores.foldl (fun st c => st.flushCore c) (s.boundary (.svc k))
    let s2 := s1.svcPublish k v start
    match s2.svc? k with
    | none => s2
    | some v2 =>
      let inCtr := (s2.ctr (v.ctrBase + v.counters)).toNat
      let inDone := v.doorbellMode || reached inCtr ((v.k + 1) * v.inInc)
      let hb := s2.devMem.readN v.image 64
      let g := svcHead hb
      let v3 := { v2 with ph := .clean, start := start, started := true, k := v.k + 1, cleanDone := false, inputTick := if inDone then some start else none, tasksLeft := g.tasks, todo := upTo g.tasks, num := 0, lapse := s.lapsed v, heldDb := false }
      let s3 := s2.setSvc k v3
      match s3.svcInit v g with
      | none => (s3.devReadBad (v.image + g.ctrOff) (4 * g.counters)).svcMiss k 3
      | some (ct, bl) =>
        let s4 := (upTo g.counters).foldl (fun st i => st.setCtr (v.ctrBase + i) (BitVec.ofNat 64 (leAt ct (4 * i) 4))) s3
        (v.cores.zip bl).foldl (fun st e => { st with localMem := st.localMem.writeL (e.1 * 2 ^ 20) e.2 }) s4
/-- PERIOD_START (R245, R247): a timer period at its exact tick, or a held doorbell at the previous start
plus P. -/
def execPeriodStart (svc : SvcId) (s : State) : Out :=
  let k := svc.val
  let s1 := s.svcOverdue k
  .next (match s1.svc? k with
    | none => s1
    | some v =>
      if v.st ≠ .armed ∨ v.ph ≠ .idle then s
      else if !v.doorbellMode then (if v.t0 + v.k * v.period ≤ s.tick then s1.svcStart k (v.t0 + v.k * v.period) else s)
      else if v.heldDb ∧ v.start + v.period ≤ s.tick then s1.svcStart k (v.start + v.period) else s)
/-- CLEAN_DONE (R248). -/
def execCleanDone (svc : SvcId) (s : State) : Out :=
  .next (match s.svc? svc.val with
    | none => s
    | some v => if v.ph = .clean then s.setSvc svc.val { v with ph := .input, cleanDone := true } else s)
/-- RUN_START (R248): input complete and the clean start done, the tasks are released. -/
def execRunStart (svc : SvcId) (s : State) : Out :=
  .next (match s.svc? svc.val with
    | none => s
    | some v =>
      if v.ph = .input ∧ v.inputTick.isSome ∧ s.tick < v.start + v.deadline then (s.setSvc svc.val { v with ph := .run }).svcRelease svc.val
      else s)

/-! ### Doorbells (R246, R247) -/

/-- A doorbell that R247 ignores. -/
def State.badDb (s : State) (k : Nat) (v : Svc) : State := s.setSvc k { v with badDb := satAdd 0xFF v.badDb 1 }
/-- A doorbell of a service written through a page. -/
def State.svcBell (s : State) (mb k : Nat) (val : Nat) : State :=
  let s0 := s.svcOverdue k
  match s.svc? k, s0.svc? k with
  | some old, some v =>
    if s.mbPart mb ≠ some old.part then s.countErr (.mb mb)
    else if v.st ≠ .armed then s0.badDb k v
    else if v.doorbellMode then
      (if val ≠ v.k % 2 ^ 32 ∨ v.heldDb then s0.badDb k v
       else if v.ph = .idle ∧ (!v.started ∨ v.start + v.period ≤ s.tick) then s0.svcStart k s.tick
       else s0.setSvc k { v with heldDb := true, earlyDb := satAdd 0xFF v.earlyDb 1 })
    else
      let idx := if v.ph = .clean ∨ v.ph = .input then v.cur else v.k
      let open_ := (v.ph = .idle || v.ph = .clean || v.ph = .input) &&
        !reached (s0.ctr (v.ctrBase + v.counters)).toNat ((idx + 1) * v.inInc)
      if open_ ∧ val = idx % 2 ^ 32 then s0.addCtr (v.ctrBase + v.counters) v.inInc else s0.badDb k v
  | some old, none => if s.mbPart mb ≠ some old.part then s.countErr (.mb mb) else s0
  | none, _ => s.countErr (.mb mb)

/-! ### Publication (R256, R257) -/

/-- PUBLISH (R256): accepted, then verified. -/
def cmdPublish (s : State) (r : Req) : CmdOut :=
  match s.reqSvc r with
  | .error e => failWith s e
  | .ok (k, v) =>
    let w := bitsOf (r.w 0) 13 8
    if v.pubRegion.isSome ∨ v.pubVerify.isSome then failWith s stWrong
    else match s.region? w with
      | none => failWith s stBadArg
      | some x => if x.part ≠ some v.part then failWith s stBadArg else okNow (s.setSvc k { v with pubVerify := some w })
/-- PUBLISH. -/
def execPublish (mb : MbId) (s : State) : Out := .next (runCmd s mb.val 0x0604 (.exact 1) false cmdPublish)
/-- PUBLISH_VERIFIED (R256, R257): the region becomes pending, or PUBLISH_FAILED is recorded. -/
def execPublishVerified (svc : SvcId) (s : State) : Out :=
  let k := svc.val
  .next (match s.svc? k with
    | none => s
    | some v =>
      match v.pubVerify with
      | none => s
      | some w =>
        let img := s.devMem.readN v.image 64
        let g := svcHead img
        let mapBytes := s.devMem.readN (v.image + g.wmapOff) (16 * g.wmapN)
        let why := match s.region? w with
          | none => 0x10
          | some x => s.weightsCheck x.base x.len (weightMap mapBytes { g with wmapOff := 0 })
        if why = 0 then s.setSvc k { v with pubVerify := none, pubRegion := some w }
        else
          let ue := (s.region? w).bind (fun x => s.weightsUe x.base x.len)
          let s0 := match ue with | some u => s.devReadBad u 1 | none => s
          let (st, s1) := s0.draw
          let (ti, s2) := s1.draw
          let (te, s3) := s2.draw
          (s3.setSvc k { v with pubVerify := none }).svcRecord k { per := v.k, kind := 4, reason := why, region := w, start := st, tIn := ti, tEnd := te })

end Sys2Proof.Machine
end

