-- ==== Sys2Proof/Machine/Complete.lean ====
section
/-! DEFINITION. How tasks end: completion with its record and signal (R142, R144), the hang of a task
(R145), and a job that no longer moves (R133). -/

namespace Sys2Proof.Machine

/-- A core's finished task ends: an internal Bronze task, a task of a job, or a task of a service. -/
def State.endTask (s : State) (c : Nat) (run : Run) (r : Result) : State :=
  let t := run.task
  match t.owner, t.sec with
  | .job j, some (l, i) => s.endSection c j l i r
  | .job j, none => (s.setCore c { s.core c with run := none }).endJobTask j t c r run.start
  | .svc k, _ => (s.setCore c { s.core c with run := none }).endSvcTask k t c r run.start
/-- TASK_COMPLETE (R142, R144): the task whose work is done leaves its core. -/
def execTaskComplete (core : CoreId) (s : State) : Out :=
  .next (match (s.core core.val).run with
    | none => s
    | some run =>
      match run.done with
      | none => s
      | some r => s.endTask core.val run r)
/-- A second in ticks. -/
abbrev second : Nat := 100000000
/-- HANG (R145): a task that has run for more than 1 s fails, its core is reset and CORE_HANG raised. A UPD
task whose sections run on is no task on a core. The job bytes of a service's event are a free value. -/
def execHang (core : CoreId) (s : State) : Out :=
  let c := core.val
  .next (match (s.core c).run with
    | none => s
    | some run =>
      if run.done.isSome ∨ s.tick ≤ run.start + second then s
      else
        let (f, s0) := s.draw
        let part : Option Nat := match run.task.owner with
          | .job j => (s.job? j).map (fun x => x.part)
          | .svc k => (s.svc? k).map (fun x => x.part)
        let job : Nat := match run.task.owner with | .job j => j | .svc _ => f
        let s1 := (match run.task.owner with | .job _ => s | .svc _ => s0).raise 0x2002 part.toList true (part.getD 0xFF) (natLE 2 c ++ natLE 2 job)
        (s1.stopCore c).endTask c run { status := tsHang })
/-- A task of the job is running or in a deque, or an update of it is under way. -/
def State.jobBusy (s : State) (j : Nat) (x : Job) : Bool :=
  x.upds ≠ [] || s.cores.any (fun c => decide (runJob c.2 = some j) || c.2.deque.any (fun t => t.owner = .job j))
/-- A walker still holds unreleased tasks of its list. -/
def Job.unreleased (x : Job) : Bool :=
  x.lists.zipIdx.any (fun l => let w := tabGet {} x.walkers l.2; decide (w.next < l.1.2) || !w.fetched.isEmpty)
/-- GRAPH_STALL (R133): unreleased tasks, none running or in a deque, and no counter change for the stall
time. -/
def execGraphStall (job : Nat) (s : State) : Out :=
  .next (match s.job? job with
    | none => s
    | some x =>
      if x.st ≠ .running ∨ x.stallMs = 0 ∨ !x.unreleased ∨ s.jobBusy job x ∨ s.tick < x.lastMove + x.stallMs * 100000 then s
      else s.fence job 0x02 0 0 0 0)

end Sys2Proof.Machine
end

