-- ==== Sys2Proof/Machine/Jobs.lean ====
section
/-! DEFINITION. Commands on jobs (R131, R146, R477): loading a task graph, starting, stopping, restarting and
unloading; what begins a step (R158, R169 to R172, R197); sync counters and group statistics by command. -/

namespace Sys2Proof.Machine

/-! ### Loading (R146) -/

/-- A graph image and the completion area, read and checked in the order of R146 up to the CRC. -/
def State.graphImage (s : State) (p iw cw : Nat) : Except Nat (Nat × GraphHead × List Byte) := do
  let a := addrOf iw
  need (wordOk iw && !iw.testBit 63 && a % 64 = 0) stBadArg
  chkOf (s.spanSt p a 64)
  match s.fwRead a 64 with
  | .error e => .error e
  | .ok h =>
    let g := graphHead h
    if g.cpl ≠ 0 then
      need (wordOk cw && !cw.testBit 63 && addrOf cw % 16 = 0) stBadArg
      chkOf (s.spanSt p (addrOf cw) (16 * g.cpl))
    need (g.ok h) stBadArg
    chkOf (s.spanSt p a g.len)
    match s.fwRead a g.len with
    | .error e => .error e
    | .ok img => if crc32c (zeroed img 60 4) = leAt h 60 4 then .ok (a, g, img) else .error stVerify
/-- Keep what later steps need of a graph's tasks (R131, R155, R158, R166, R218, R239). -/
def jobOfGraph (p mb groups a cw stall : Nat) (base : Nat) (g : GraphHead) (img : List Byte) (ts : List (Nat × Task)) : Job :=
  let named := ts.filter (fun t => t.2.verTag ≠ 0)
  { part := p, mailbox := mb, groups := groups, image := a, taskCount := g.count, lists := g.lists, ctrBase := base, ctrCount := g.ctrs, incs := (upTo g.ctrs).map (fun i => leAt img (g.table + 8 * i) 4), inits := (upTo g.ctrs).map (fun i => leAt img (g.table + 8 * i + 4) 4), homes := ts.foldl (fun (l : List Nat) t => if l.contains t.2.home then l else t.2.home :: l) [], records := (ts.filter (fun t => t.2.kind = 8)).foldl (fun m t => tabSet m t.2.updLayer (t.2.word 7)) [], bOf := countBy Task.verTag (named.filter (fun t => t.2.phase = 1)), fOf := countBy Task.verTag (named.filter (fun t => t.2.phase = 0)), wCount := (ts.filter (fun t => t.2.phase = 2)).length, segB := countBy Task.rseg (ts.filter (fun t => t.2.phase = 1 && t.2.rseg ≠ 0)), cpl := addrOf cw, cplCount := g.cpl, stallMs := stall }
/-- Every counter of a job takes its INIT value (R131, R140). -/
def State.initCtrs (s : State) (x : Job) : State :=
  x.inits.zipIdx.foldl (fun st e => st.setCtr (x.ctrBase + e.2) (BitVec.ofNat 64 e.1)) s
/-- The checks of JOB_LOAD_GRAPH in order: the job they lead to, and its id. -/
def State.loadGraph (s : State) (r : Req) : Except Nat (Nat × Job) := do
  let w1 := r.w 1
  let groups := bitsOf w1 31 0
  let p := match r.scope with | some p => p | none => bitsOf w1 34 32
  need (bitsOf (r.w 0) 62 48 = 0 && bitsOf w1 47 35 = 0 && groups ≠ 0 && (s.part? p).isSome) stBadArg
  need ((maskBits groups).all (fun g => s.groupPart g = some p)) stNotPerm
  let (a, g, img) ← s.graphImage p (r.w 0) (r.w 2)
  let ts := graphTasks 0 img g
  let x : Ctx := { core := 0, home := 0, part := p, auto := false, move := none }
  s.graphCheck x { ctrs := g.ctrs, cpl := g.cpl, groups := groups } ts
  match s.findCtrs p g.ctrs, tabFree s.jobs 16 with
  | some base, some j => .ok (j, jobOfGraph p r.mb groups a (r.w 2) (bitsOf w1 63 48) base g img ts)
  | _, _ => .error stNoRes
/-- JOB_LOAD_GRAPH (R146). -/
def cmdJobLoadGraph (s : State) (r : Req) : CmdOut :=
  match s.loadGraph r with
  | .error e => failWith s e
  | .ok (j, x) =>
    let s1 := (((s.setJob j x).dropRegs (.job j)).dropRegs (.xp j)).initCtrs x
    .done s1 stOk (natLE 2 j ++ zeros 2 ++ natLE 4 x.ctrBase)
/-- JOB_LOAD_GRAPH. -/
def execJobLoadGraph (mb : MbId) (s : State) : Out := .next (runCmd s mb.val 0x0401 (.exact 3) false cmdJobLoadGraph)

/-! ### Range control (R168 to R172) -/

/-- Range control at a boundary of a step that ran in normal service, and SKIPS in every phase (R168). -/
def Range.atBoundary (r : Range) (growth : Nat) : Range :=
  let r1 := { r with ovfLast := r.ovfNow, skips := if r.ovfNow then satAdd 0xFFFF r.skips 1 else r.skips }
  if r.phase ≠ 0 then r1
  else if r.ovfNow then { r1 with e := r.e - 1, clean := 0 }
  else
    let c := min 0xFFFF (r.clean + 1)
    if growth ≠ 0 ∧ growth ≤ c then { r1 with e := min 32 (r.e + 1), clean := 0 } else { r1 with clean := c }
/-- The phase of the step about to begin after n steps (R172). -/
def phaseOf (ctrl steps : Word) (n : Nat) : Nat :=
  if flag ctrl 31 then 2
  else if !flag ctrl 26 && n < fld steps 15 0 then 1
  else if flag ctrl 26 && n < fld steps 31 16 then 3
  else 0
/-- Enter a phase: normal service starts from INIT_LOG2 (R172). -/
def Range.enter (r : Range) (ph init : Nat) (first : Bool) : Range :=
  if ph = 0 then (if first ∨ r.phase ≠ 0 then { r with phase := 0, e := init, clean := 0 } else r)
  else { r with phase := ph, clean := 0 }
/-- Largest finite value of a tensor's format (R170). -/
def fmaxOf (fmt : Nat) : Nat := if fmt = 6 then 448 else if fmt = 7 then 57344 else if fmt = 0xA then 65504 else 127
/-- Units of 2^-149 in a positive finite FP32 pattern. -/
def fpUnits (w : Nat) : Nat := if w / 2 ^ 23 = 0 then w else (2 ^ 23 + w % 2 ^ 23) * 2 ^ (w / 2 ^ 23 - 1)
/-- The exponent of the scale of a tensor whose largest history entry has this pattern (R170). -/
def scaleExp (fmt margin a : Nat) : Int :=
  if a = 0x7F800000 then -126
  else
    let k : Int := ((fmaxOf fmt * 2 ^ 449 / fpUnits a).log2 : Int) - 300 - margin
    max (-126) (min 127 k)
/-- The largest positive entry of a history that is not NaN, 0 if there is none (R170). -/
def histMax (hs : List Nat) : Nat := (hs.filter (fun w => w ≤ 0x7F800000)).foldl max 0
/-- FP32 2^k for k from -127 to 127. -/
def pow2w (k : Int) : Nat := if k = -127 then 2 ^ 22 else (k + 127).toNat * 2 ^ 23
/-- The exponent of s: 0 outside the per-tensor phases, or without a positive entry. -/
def tensorExp (per : Bool) (fmt margin : Nat) (hs : List Nat) : Int :=
  let a := histMax hs
  if !per ∨ a = 0 then 0 else scaleExp fmt margin a
/-- The device reads memory at a boundary: none when a line is uncorrectable, the failing state beside. -/
def State.bRead (s : State) (a n : Nat) : Except State (List Byte) :=
  match s.devRead a n with | none => .error (s.devReadBad a n) | some b => .ok b
/-- The device writes part of a line at a boundary: an uncorrectable line fails it (R271). -/
def State.bWrite (s : State) (a : Nat) (bs : List Byte) : Except State State :=
  if (badIn s.mem.badLines a bs.length).isSome ∧ ¬(a % 64 = 0 ∧ bs.length % 64 = 0) then .error (s.devReadBad a bs.length)
  else .ok (s.devWrite a bs)
/-- One patch of a tensor (R171): the operand record's Q, TA or TB word. -/
def State.patch (s : State) (e : Int) (w : Nat) : Except State State :=
  let a := bitsOf w 47 6 * 64
  match w % 4 with
  | 0 => s.bWrite (a + 96) (natLE 4 (pow2w e))
  | 1 => s.bWrite (a + 88) (natLE 4 (pow2w (-e)))
  | _ => s.bWrite (a + 92) (natLE 4 (pow2w (-e)))
/-- Histories, amax slots and patches of one tensor (R170, R171): at a start the history becomes zeros, at a
boundary that ends step t the amax slot enters it. -/
def State.tensorStep (s : State) (x : Job) (margin : Nat) (ended : Option Nat) (t : Tensor) (patches : List Nat) : Except State State := do
  let per := x.range.phase ≠ 0
  let (s1, hs) ← match ended with
    | none => do
      let s1 ← s.bWrite t.history (zeros 64)
      .ok (s1, List.replicate 16 0)
    | some n => do
      let am ← s.bRead t.amax 4
      let s1 ← s.bWrite (t.history + 4 * (n % 16)) am
      let s2 ← s1.bWrite t.amax (zeros 4)
      let hb ← s2.bRead t.history 64
      .ok (s2, (upTo 16).map (fun i => leAt hb (4 * i) 4))
  patches.foldlM (fun st w => st.patch (tensorExp per t.fmt margin hs) w) s1
/-- Scales and the loss-scale word before the first task of a step (R169 to R171). -/
def State.scaleStep (s : State) (j : Nat) (ended : Option Nat) : Except State State :=
  match s.job? j with
  | none => .ok s
  | some x => do
    let margin := s.rf (.job j) 0x000 29 27
    let s1 ← x.tensors.foldlM (fun st t => st.tensorStep x margin ended t t.list) s
    match x.scaleWord with
    | none => .ok s1
    | some a => s1.bWrite a (natLE 4 (if x.range.phase = 0 then (x.range.e + 127) * 2 ^ 23 else one32.toNat))

/-! ### The step page (R197) -/

/-- Read the step page if it is enabled: the value is applied as a write accepted at the latch point. A page
outside the partition counts as torn. `counted`: a mailbox value reaches the same boundary, whose place the
page's takes, so that one value takes effect (R50, R195). -/
def State.stepPage (s : State) (j : Nat) (counted : Bool) : Except State State :=
  match s.job? j with
  | none => .ok s
  | some x =>
    let lo := s.reg (.job j) 0x028
    let a := (s.reg (.job j) 0x02C).toNat * 2 ^ 32 + fld lo 31 12 * 4096
    if !flag lo 0 then .ok s
    else
      let torn := s.setJob j { x with range := { x.range with torn := satAdd 0xFFFF x.range.torn 1 } }
      if s.span (some x.part) a 16 ≠ .ok then .ok torn
      else match s.devRead a 16 with
        | none => .error (s.devReadBad a 16)
        | some b =>
          let seq := leAt b 0 4
          let val := leAt b 4 4
          if leAt b 8 4 ≠ (seq ^^^ val ^^^ 0x5A5A5A5A) ∨ bitsOf val 30 23 = 255 then .ok torn
          else if x.range.pageSeq = some seq then .ok s
          else .ok ((s.setReg (.job j) 0x020 (BitVec.ofNat 32 val)).setJob j { x with range := { x.range with pageSeq := some seq, seq := if counted then x.range.seq else (x.range.seq + 1) % 2 ^ 32 } })

/-! ### Starting (R146, R160, R179, R185, R218, R220, R228) -/

/-- The step's counts at its start (R134, R155, R158, R165, R166, R218). -/
def Job.begin (x : Job) (tick : Nat) : Job :=
  let r := x.range
  let left := (r.segF.filter (fun e => tabGet 0 x.segB e.1 = 0)).foldl (fun n e => n + e.2) 0
  { x with done := 0, walkers := [], lastMove := tick, layers := x.layers.zipIdx.map (fun e => { e.1 with ref := tabGet 0 x.bOf (e.2 + 1), fLeft := tabGet 0 x.fOf (e.2 + 1), wrapped := false }), range := { r with wLeft := x.wCount, flagFinal := false, ovfNow := tabGet false r.flags x.step, flags := tabDel r.flags x.step, segF := [], segB := [], ckptLive := r.ckptLive - left, ckptPeak := if left = 0 then r.ckptPeak else max r.ckptPeak (r.ckptLive - left) } }
/-- The counter that a regather of a layer signals, among the graph's collectives. -/
def regatherCtrs (descs : List (List Nat)) (layer : Nat) : List Nat :=
  (descs.filter (fun w => bitsOf (w.getD 0 0) 3 0 = 6 && (w.getD 0 0).testBit 62 && bitsOf (w.getD 0 0) 41 26 = layer && bitsOf (w.getD 1 0) 15 0 ≠ 0)).map
    (fun w => bitsOf (w.getD 0 0) 55 42)
/-- The collective descriptor at an address word. -/
def State.collAt (s : State) (w : Nat) : List Nat := words64 (s.devMem.readN (addrOf w) 64) 8
/-- What a task must meet once the layer and gather tables stand (R157, R160, R179, R185, R218, R228). -/
def State.taskStartOk (s : State) (ctx : Ctx) (x : Job) (descs : List (List Nat)) (t : Task) : Bool :=
  (t.verTag = 0 || (match x.named t with
    | none => false
    | some l => t.waits.contains (l.ctr, true, 0) && ((x.gather l.id).mode ≠ 2 || t.phase ≠ 1 ||
        t.waits.any (fun w => (regatherCtrs descs l.id).contains w.1)))) &&
  (t.kind ≠ 7 || collLayerOk x (s.collAt (t.word 5))) &&
  (t.kind ≠ 8 || (match x.layer? t.updLayer with
    | none => false
    | some l => l.owner && s.updFits { ctx with home := t.home, core := t.home } t l.size &&
        (let bc := leAt (s.devMem.readN (addrOf (t.word 7)) 64) 24 8
         bc = 0 || collLayerOk x (s.collAt bc))))
/-- A pair of layers whose buffers overlap is open (R220). -/
def Job.openPair (x : Job) : Bool :=
  x.layers.any (fun l => x.layers.any (fun m => decide (l.id ≠ m.id) && overlaps l.buf0 l.size m.buf0 m.size && !((x.gather l.id).mode = 2 && (x.gather m.id).mode = 2)))
/-- The checks that JOB_START makes over the graph and the tables (log 35). -/
def State.startCheck (s : State) (x : Job) : Nat :=
  match s.fwRead x.image 64 with
  | .error e => e
  | .ok h =>
    let g := graphHead h
    match s.fwRead x.image g.len with
    | .error e => e
    | .ok img =>
      let ts := (graphTasks 0 img g).map (·.2)
      let descs := (ts.filter (fun t => t.kind = 7)).map (fun t => s.collAt (t.word 5))
      let ctx : Ctx := { core := 0, home := 0, part := x.part, auto := false, move := none }
      if x.openPair ∨ !ts.all (s.taskStartOk ctx x descs) ∨
          x.layers.any (fun l => x.inits.getD l.ctr 0 ≠ 0 || x.incs.getD l.ctr 0 ≠ 1) then stBadArg else stOk
/-- A layer at JOB_START: version 1 in BUF0 (R156). At a restart its consumed SEQ is the current one (R477). -/
def Layer.fresh (l : Layer) (seq : Nat) : Layer :=
  { id := l.id, single := l.single, owner := l.owner, ctr := l.ctr, buf0 := l.buf0, buf1 := l.buf1, size := l.size, seq := seq }
/-- The first step of a job begins (R169 to R172, R197). A failed access at it fences the job (R271). -/
def State.startJob (s : State) (j : Nat) (x : Job) (restart : Bool) : State :=
  let gs := tabMap (fun _ (g : Gather) => ({ mode := g.mode, source := g.source } : Gather)) x.gathers
  let seq := fun (l : Layer) => if restart then x.range.seq else l.seq
  let r0 : Range := { seq := x.range.seq, pageSeq := x.range.pageSeq, torn := x.range.torn }
  let ph := phaseOf (s.reg (.job j) 0x000) (s.reg (.job j) 0x004) 0
  let r1 := r0.enter ph (s.rf (.job j) 0x000 5 0) true
  let y := { x with st := .running, step := 0, layers := x.layers.map (fun (l : Layer) => l.fresh (seq l)), gathers := gs, range := r1, fault := none, heard := [], sentTick := [], colls := [], upds := [], startTick := s.tick }
  let s1 := s.setJob j (y.begin s.tick)
  match (do let s2 ← s1.stepPage j false; s2.scaleStep j none : Except State State) with
  | .ok s3 => s3
  | .error s3 => s3.fence j 0x09 0 0 0 0
/-- The job that word 0 bits 15:0 names, of the mailbox's partition. -/
def State.jobArg (s : State) (r : Req) : Except Nat (Nat × Job) :=
  match s.reqJob r (bitsOf (r.w 0) 15 0) with
  | .error e => .error e
  | .ok x => .ok (bitsOf (r.w 0) 15 0, x)
/-- JOB_START (R146). -/
def cmdJobStart (s : State) (r : Req) : CmdOut :=
  match s.jobArg r with
  | .error e => failWith s e
  | .ok (j, x) =>
    if x.st ≠ .loaded then failWith s stWrong
    else
      let c := s.startCheck x
      if c ≠ stOk then failWith s c else okNow (s.startJob j x false)
/-- JOB_START. -/
def execJobStart (mb : MbId) (s : State) : Out := .next (runCmd s mb.val 0x0402 (.exact 1) false cmdJobStart)
/-- JOB_RESTART (R477): a fenced job under a newer epoch starts as freshly loaded. -/
def cmdJobRestart (s : State) (r : Req) : CmdOut :=
  match s.jobArg r with
  | .error e => failWith s e
  | .ok (j, x) =>
    if x.st ≠ .fenced ∨ x.epoch ≤ (x.fault.map (fun f => f.epoch)).getD 0 then failWith s stWrong
    else
      let c := s.startCheck x
      if c ≠ stOk then failWith s c else okNow ((s.initCtrs x).startJob j x true)
/-- JOB_RESTART. -/
def execJobRestart (mb : MbId) (s : State) : Out := .next (runCmd s mb.val 0x0405 (.exact 1) false cmdJobRestart)

/-! ### Stopping and unloading (R146) -/

/-- A task of a job other than an internal Bronze task. -/
def outerTask (j : Nat) (t : Task) : Bool := decide (t.owner = .job j) && t.sec.isNone
/-- JOB_STOP releases nothing further and empties the job's deque entries; an update that has started runs to
its end (log 39). -/
def State.stopJob (s : State) (j : Nat) (x : Job) : State :=
  let s1 := s.setJob j { x with st := .stopping, walkers := [] }
  let s2 := { s1 with cores := tabMap (fun _ (c : CoreS) => { c with deque := c.deque.filter (fun t => !outerTask j t) }) s1.cores }
  s2.refillAll.tryStopped j
/-- JOB_STOP. -/
def cmdJobStop (s : State) (r : Req) : CmdOut :=
  match s.jobArg r with
  | .error e => failWith s e
  | .ok (j, x) =>
    if x.st ≠ .running then failWith s stWrong
    else
      let s1 := s.stopJob j x
      match s1.job? j with
      | some y => if y.st = .stopping then .wait s1 j 0 else okNow s1
      | none => okNow s1
/-- JOB_STOP. -/
def execJobStop (mb : MbId) (s : State) : Out := .next (runCmd s mb.val 0x0403 (.exact 1) false cmdJobStop)
/-- JOB_UNLOAD. -/
def cmdJobUnload (s : State) (r : Req) : CmdOut :=
  match s.jobArg r with
  | .error e => failWith s e
  | .ok (j, x) => if jobRuns x then failWith s stWrong else okNow (s.unloadJob j)
/-- JOB_UNLOAD. -/
def execJobUnload (mb : MbId) (s : State) : Out := .next (runCmd s mb.val 0x0404 (.exact 1) false cmdJobUnload)
/-- JOB_FENCE (R477): cause OPERATOR. -/
def cmdJobFence (s : State) (r : Req) : CmdOut :=
  match s.jobArg r with
  | .error e => failWith s e
  | .ok (j, x) => if !jobRuns x then failWith s stWrong else okNow (s.fence j 0x0D 0 0 0 0)
/-- JOB_FENCE. -/
def execJobFence (mb : MbId) (s : State) : Out := .next (runCmd s mb.val 0x0406 (.exact 1) false cmdJobFence)
/-- JOB_FAULT_INFO (R477). -/
def cmdJobFaultInfo (s : State) (r : Req) : CmdOut :=
  match s.jobArg r with
  | .error e => failWith s e
  | .ok (_, x) =>
    match x.st, x.fault with
    | .fenced, some f => .done s stOk (natLE 1 f.cause ++ natLE 1 f.origin ++ natLE 1 f.originCause ++ zeros 1 ++ natLE 4 f.epoch ++ natLE 8 f.step ++ natLE 8 f.tick ++ natLE 4 f.more ++ natLE 2 f.tstatus ++ natLE 2 f.core)
    | _, _ => failWith s stWrong
/-- JOB_FAULT_INFO. -/
def execJobFaultInfo (mb : MbId) (s : State) : Out := .next (runCmd s mb.val 0x0407 (.exact 1) false cmdJobFaultInfo)
/-- PEWTER_STOP (R309): the program halts; its jobs are stopped and unloaded, its services deregistered, its
mailbox unbound. It answers when the last of them has ended. -/
def cmdPewterStop (s : State) (r : Req) : CmdOut :=
  let m := bitsOf (r.w 0) 5 0
  if m < 56 then failWith s stBadArg
  else match tabFind s.pewter (m - 56) with
    | none => failWith s stWrong
    | some p =>
      if r.scope ≠ none ∧ r.scope ≠ some p.part then failWith s stNotPerm
      else if p.stopping then failWith s stWrong
      else
        let s1 := { s with pewter := tabSet s.pewter (m - 56) { p with stopping := true } }
        let s2 := if r.mb = m then s1 else s1.setMb m { part := some p.part }
        let s3 := s2.jobs.foldl (fun st e =>
          if e.2.mailbox ≠ m then st
          else if e.2.st = .running then (st.stopJob e.1 e.2).pewterJob e.1
          else st.pewterJob e.1) s2
        let s4 := s3.svcs.foldl (fun st e =>
          if e.2.mailbox ≠ m then st
          else if e.2.ph = .idle then st.svcFree e.1
          else st.setSvc e.1 { e.2 with leaving := true }) s3
        let s5 := s4.pewterDone (m - 56)
        if (tabFind s5.pewter (m - 56)).isNone then okNow s5 else .wait s5 m 0
/-- PEWTER_STOP. -/
def execPewterStop (mb : MbId) (s : State) : Out := .next (runCmd s mb.val 0x0121 (.exact 1) false cmdPewterStop)

/-! ### Counters and statistics (R146) -/

/-- The counter that a command names, when its owner is in the mailbox's partition. -/
def State.ctrArg (s : State) (r : Req) : Except Nat Nat :=
  let c := bitsOf (r.w 0) 13 0
  if r.scope ≠ none ∧ s.ctrPart c ≠ r.scope then .error stNotPerm else .ok c
/-- SYNC_READ. -/
def cmdSyncRead (s : State) (r : Req) : CmdOut :=
  match s.ctrArg r with | .error e => failWith s e | .ok c => .done s stOk (natLE 8 (s.ctr c).toNat)
/-- SYNC_READ. -/
def execSyncRead (mb : MbId) (s : State) : Out := .next (runCmd s mb.val 0x0408 (.exact 1) false cmdSyncRead)
/-- SYNC_ADD. -/
def cmdSyncAdd (s : State) (r : Req) : CmdOut :=
  match s.ctrArg r with | .error e => failWith s e | .ok c => okNow (s.addCtr c (r.w 1))
/-- SYNC_ADD. -/
def execSyncAdd (mb : MbId) (s : State) : Out := .next (runCmd s mb.val 0x0409 (.exact 2) false cmdSyncAdd)
/-- SYNC_SET: refused while the job that owns the counter runs. A service that waits for its input sees the
new value. -/
def cmdSyncSet (s : State) (r : Req) : CmdOut :=
  match s.ctrArg r with
  | .error e => failWith s e
  | .ok c =>
    if s.jobs.any (fun e => decide (e.2.ctrBase ≤ c) && decide (c < e.2.ctrBase + e.2.ctrCount) && jobRuns e.2) then failWith s stWrong
    else okNow ((s.setCtr c (BitVec.ofNat 64 (r.w 1))).addCtr c 0)
/-- SYNC_SET. -/
def execSyncSet (mb : MbId) (s : State) : Out := .next (runCmd s mb.val 0x040A (.exact 2) false cmdSyncSet)
/-- GROUP_STATS. -/
def cmdGroupStats (s : State) (r : Req) : CmdOut :=
  let g := bitsOf (r.w 0) 4 0
  if r.scope ≠ none ∧ s.groupPart g ≠ r.scope then failWith s stNotPerm
  else
    let x := s.grp g
    .done s stOk (natLE 8 x.completed ++ natLE 4 x.thiefTakes ++ natLE 4 x.stolenFrom ++ natLE 4 x.crossDie ++ natLE 2 x.durOver ++ natLE 2 x.restarts ++ natLE 4 x.heldRel)
/-- GROUP_STATS. -/
def execGroupStats (mb : MbId) (s : State) : Out := .next (runCmd s mb.val 0x040C (.exact 1) false cmdGroupStats)

end Sys2Proof.Machine
end

