-- ==== Sys2Proof/Machine/Training.lean ====
section
/-! DEFINITION. The training step by command and event (R134, R155 to R177): layer, scale and segment
tables, layer status, the step boundary, snapshots. -/

namespace Sys2Proof.Machine

/-! ### Tables (R156, R164, R171) -/

/-- Parse a layer-table entry of 32 bytes. -/
def layerOf (b : List Byte) : Layer :=
  { id := leAt b 0 2, single := (leAt b 2 1).testBit 0, owner := (leAt b 2 1).testBit 1, ctr := leAt b 4 2, buf0 := leAt b 8 8, buf1 := leAt b 16 8, size := leAt b 24 8 }
/-- An entry's own limits (R156). -/
def layerEntryOk (ctrs : Nat) (b : List Byte) : Bool :=
  let l := layerOf b
  let word := fun (w : Nat) => wordOk w && !w.testBit 63 && w % 4096 = 0
  l.id ≠ 0xFFFF && leAt b 2 1 < 4 && leAt b 3 1 = 0 && l.ctr < ctrs && leAt b 6 2 = 0 && word l.buf0 &&
  (l.single || (word l.buf1 && !overlaps l.buf0 l.size l.buf1 l.size)) && l.size % 4096 = 0
/-- The buffers of an entry. -/
def Layer.bufs (l : Layer) : List Nat := if l.single then [l.buf0] else [l.buf0, l.buf1]
/-- No two entries overlap but the BUF0 of two SINGLE layers (R220). -/
def layersApart : List Layer → Bool
  | [] => true
  | l :: t => t.all (fun m => (l.single && m.single) || l.bufs.all (fun a => m.bufs.all (fun b => !overlaps a l.size b m.size))) && layersApart t
/-- JOB_LAYER_TABLE (R164); it discards the gather table and the map (R234). -/
def cmdJobLayerTable (s : State) (r : Req) : CmdOut :=
  match s.freshJob r with
  | .error e => failWith s e
  | .ok x =>
    let n := r.arg.length / 32
    let bs := (upTo n).map (fun i => (r.arg.drop (32 * i)).take 32)
    let ls := bs.map layerOf
    if 4096 < n then failWith s stNoRes
    else if r.arg.length % 32 ≠ 0 ∨ n = 0 ∨ !bs.all (layerEntryOk x.ctrCount) ∨ !allDistinct (ls.map (·.id)) ∨ !layersApart ls then failWith s stBadArg
    else match (ls.flatMap (fun l => l.bufs.map (fun a => s.spanSt x.part a l.size))).find? (· ≠ stOk) with
      | some e => failWith s e
      | none => okNow (s.setJob (bitsOf (r.w 0) 15 0) { x with layers := ls.map (fun l => { l with buf0 := addrOf l.buf0, buf1 := addrOf l.buf1 }), gathers := [], map := none })
/-- JOB_LAYER_TABLE. -/
def execJobLayerTable (mb : MbId) (s : State) : Out := .next (runCmd s mb.val 0x0410 (.block 1) false cmdJobLayerTable)
/-- A location that the scale table names (R171): outside the partition NOT_PERMITTED, a hole or the
aperture BAD_ARGUMENT. -/
def State.locSt (s : State) (p a n : Nat) : Nat :=
  match s.span (some p) a n with
  | .ok => stOk
  | .foreign => stNotPerm
  | _ => stBadArg
/-- One tensor of the scale table with its patch list (R171). -/
def State.tensorOf (s : State) (p : Nat) (b : List Byte) : Except Nat Tensor := do
  let dev := fun (w : Nat) => wordOk w && !w.testBit 63
  let n := leAt b 4 4
  let am := leAt b 8 8
  let hi := leAt b 16 8
  let pl := leAt b 24 8
  need ([6, 7, 8, 0xA].contains (leAt b 2 1) && leAt b 3 1 = 0 && 1 ≤ n && n ≤ 256 && dev am && dev hi && hi % 64 = 0 && dev pl) stBadArg
  chkOf (s.locSt p am 4)
  chkOf (s.locSt p hi 64)
  chkOf (s.locSt p pl (8 * n))
  match s.fwRead pl (8 * n) with
  | .error e => .error e
  | .ok pb =>
    let ws := words64 pb n
    need (ws.all (fun w => w % 4 ≠ 3 && bitsOf w 5 2 = 0 && bitsOf w 63 48 = 0)) stBadArg
    ws.foldlM (fun _ w => chkOf (s.locSt p (bitsOf w 47 6 * 64) 128)) ()
    .ok { id := leAt b 0 2, fmt := leAt b 2 1, amax := am, history := hi, list := ws }
/-- The whole scale table (R171). -/
def State.scaleTable (s : State) (p : Nat) (a : List Byte) : Except Nat (Nat × List Tensor) := do
  let n := leAt a 8 4
  let w := leAt a 0 8
  need (64 ≤ a.length && 1 ≤ n) stBadArg
  need (n ≤ 4096) stNoRes
  need (a.length = 64 + 32 * n && leAt a 12 52 = 0 && wordOk w && !w.testBit 63) stBadArg
  chkOf (s.locSt p w 4)
  let ts ← (upTo n).mapM (fun i => s.tensorOf p ((a.drop (64 + 32 * i)).take 32))
  need (allDistinct (ts.map (·.id))) stBadArg
  .ok (w, ts)
/-- JOB_SCALE_TABLE (R171). -/
def cmdJobScaleTable (s : State) (r : Req) : CmdOut :=
  match s.freshJob r with
  | .error e => failWith s e
  | .ok x =>
    match s.scaleTable x.part r.arg with
    | .error e => failWith s e
    | .ok (w, ts) => okNow (s.setJob (bitsOf (r.w 0) 15 0) { x with scaleWord := some w, tensors := ts })
/-- JOB_SCALE_TABLE. -/
def execJobScaleTable (mb : MbId) (s : State) : Out := .next (runCmd s mb.val 0x0411 (.block 1) false cmdJobScaleTable)
/-- JOB_RSEG_TABLE (R164); reserved bytes must be 0 (log 73). -/
def cmdJobRsegTable (s : State) (r : Req) : CmdOut :=
  match s.freshJob r with
  | .error e => failWith s e
  | .ok x =>
    let es := (upTo (r.arg.length / 16)).map (fun i => (leAt r.arg (16 * i) 2, leAt r.arg (16 * i + 4) 4))
    let rs := (upTo (r.arg.length / 16)).all (fun i => leAt r.arg (16 * i + 2) 2 = 0 && leAt r.arg (16 * i + 8) 8 = 0)
    if r.arg.length % 16 ≠ 0 ∨ !rs ∨ es.any (fun e => e.1 = 0) ∨ !allDistinct (es.map (·.1)) then failWith s stBadArg
    else okNow (s.setJob (bitsOf (r.w 0) 15 0) { x with rsegs := es.foldl (fun t e => tabSet t e.1 e.2) [] })
/-- JOB_RSEG_TABLE. -/
def execJobRsegTable (mb : MbId) (s : State) : Out := .next (runCmd s mb.val 0x0412 (.block 1) false cmdJobRsegTable)
/-- JOB_LAYER_STATUS (R164). -/
def cmdJobLayerStatus (s : State) (r : Req) : CmdOut :=
  match s.jobArg r with
  | .error e => failWith s e
  | .ok (_, x) =>
    match x.layer? (bitsOf (r.w 0) 31 16) with
    | none => failWith s stBadArg
    | some l =>
      .done s stOk (natLE 4 l.version ++ natLE 4 (if l.skipCommit then 0 else l.placed.getD 0) ++ natLE 4 l.ref ++ natLE 4 (flagAt l.stalled 0 + flagAt l.skippedLast 1) ++ natLE 4 l.skips ++ natLE 4 l.waitedRef ++ natLE 4 l.stalls)
/-- JOB_LAYER_STATUS. -/
def execJobLayerStatus (mb : MbId) (s : State) : Out := .next (runCmd s mb.val 0x0413 (.exact 1) false cmdJobLayerStatus)

/-! ### The step boundary (R134, R168 to R172) -/

/-- Invalidate both slots of every core of a job (R134). -/
def State.dropSlots (s : State) (groups : Nat) : State :=
  { s with cores := tabMap (fun c k => if groups.testBit (c / 64) then invalidSlots k else k) s.cores }
/-- The range control of a job at the boundary that ends a step: its counts first, then the phase of the
step about to begin. -/
def State.rangeStep (s : State) (j growth : Nat) (x : Job) : Range :=
  let ph := phaseOf (s.reg (.job j) 0x000) (s.reg (.job j) 0x004) x.step
  (x.range.atBoundary growth).enter ph (s.rf (.job j) 0x000 5 0) false
/-- STEP_BOUNDARY (R134): once every task of every list has completed, pending values apply, then the step
page, then range control, scales and patches; the lists start again. A failed access fences the job there
and the next step does not begin (R271). -/
def execStepBoundary (job : Nat) (s : State) : Out :=
  .next (match s.job? job with
    | none => s
    | some x =>
      if x.st ≠ .running ∨ x.done ≠ x.taskCount then s
      else
        let ended := x.step
        let growth := s.rf (.job job) 0x000 23 8
        let s1 := (s.onJob job (fun y => { y with step := (y.step + 1) % 2 ^ 64, snaps := y.snaps.map (fun n => if n.step = ended then { n with armed := true } else n) })).jobBoundary job
        match s1.stepPage job ((s.pending? (.job job) 0x020).1 ≠ 0) with
        | .error s2 => s2.fence job 0x09 0 0 0 0
        | .ok s2 =>
          match s2.job? job with
          | none => s2
          | some y =>
            let z := { y with range := s2.rangeStep job growth y }
            match (s2.setJob job z).scaleStep job (some ended) with
            | .error s3 => s3.fence job 0x09 0 0 0 0
            | .ok s3 =>
              let s4 := if y.layers.any (fun l => l.wrapped) then s3.dropSlots x.groups else s3
              s4.onJob job (fun w => w.begin s.tick))

/-! ### Snapshots (R175 to R177) -/

/-- Bytes of a layer in a snapshot image: its buffer, or the FP32 master weights section by section. -/
def State.masterParts (s : State) (x : Job) (l : Layer) : List (Nat × Nat) :=
  match tabFind x.records l.id with
  | none => []
  | some w =>
    let a := addrOf w
    let n := leAt (s.devMem.readN a 64) 2 2
    (upTo n).map (fun i => let sec := sectAt (s.devMem.readN (a + 64 + 128 * i) 128); (addrOf (sec.plane 0), sec.planeLen 0))
/-- The layers that a snapshot covers, in table order. -/
def Job.owned (x : Job) : List Layer := x.layers.filter (fun l => l.owner)
/-- The version that a snapshot of a step takes of a layer: the one its step committed. -/
def snapVersion (step : Nat) (l : Layer) : Nat := if l.commits = step + 1 then l.version else l.prev
/-- Where a layer's data lies. -/
def State.snapParts (s : State) (x : Job) (master : Bool) (step : Nat) (l : Layer) : List (Nat × Nat) :=
  if master then s.masterParts x l else [(l.buf (snapVersion step l), l.size)]
/-- Total of the lengths of parts. -/
def partsLen (ps : List (Nat × Nat)) : Nat := (ps.map (·.2)).foldl (· + ·) 0
/-- Offsets of the layers of an image whose lengths are given: each 4 KiB aligned behind the entries. -/
def snapOffsets (lens : List Nat) : List Nat :=
  (lens.foldl (fun (a : List Nat × Nat) n => (a.1 ++ [a.2], roundUp (a.2 + n) 4096)) ([], roundUp (64 + 32 * lens.length) 4096)).1
/-- Length of the image. -/
def snapLen (lens : List Nat) : Nat :=
  lens.zip (snapOffsets lens) |>.foldl (fun m e => max m (e.1 + e.2)) (64 + 32 * lens.length)
/-- SNAPSHOT (R175): accepted, with its outcome in the completion record. -/
def cmdSnapshot (s : State) (r : Req) : CmdOut :=
  match s.jobArg r with
  | .error e => failWith s e
  | .ok (j, x) =>
    let w0 := r.w 0
    let i := bitsOf w0 21 16
    let host := w0.testBit 32
    let remote := w0.testBit 33
    let master := w0.testBit 34
    let step := r.w 1
    let qpn := bitsOf (r.w 3) 15 0
    if bitsOf w0 31 22 ≠ 0 ∨ bitsOf w0 63 35 ≠ 0 ∨ (host ∧ r.w 2 % 4096 ≠ 0) ∨ bitsOf (r.w 3) 31 16 ≠ 0 ∨ !wordOk (r.w 4) ∨ (r.w 4).testBit 63 ∨ r.w 4 % 16 ≠ 0 ∨
        (s.region? i).isNone ∨ (remote ∧ (s.qp? qpn).all (fun q => q.job ≠ j)) then failWith s stBadArg
    else if (s.region? i).all (fun g => g.part ≠ some x.part) then failWith s stNotPerm
    else if s.spanSt x.part (r.w 4) 16 ≠ stOk then failWith s (s.spanSt x.part (r.w 4) 16)
    else if !jobRuns x ∨ step < x.step ∨ s.svcRegion i then failWith s stWrong
    else
      let lens := x.owned.map (fun l => partsLen (if master then s.masterParts x l else [(0, l.size)]))
      match s.region? i with
      | none => failWith s stBadArg
      | some g =>
        if g.len < snapLen lens then failWith s stNoRes
        else
          let n : Snap := { region := i, shipHost := host, shipRemote := remote, master := master, step := step, host := r.w 2, qpn := qpn, rkey := bitsOf (r.w 3) 63 32, cpl := r.w 4 }
          okNow ((s.setRegion i { g with writers := g.writers + 1 }).setJob j { x with snaps := x.snaps ++ [n] })
/-- SNAPSHOT. -/
def execSnapshot (mb : MbId) (s : State) : Out := .next (runCmd s mb.val 0x0A01 (.exact 5) false cmdSnapshot)
/-- A 32-byte entry of the image. -/
def snapEntryOf (l : Layer) (ver off : Nat) (data : List Byte) : List Byte :=
  natLE 2 l.id ++ zeros 2 ++ natLE 4 ver ++ natLE 8 off ++ natLE 8 data.length ++ natLE 4 (crc32c data) ++ zeros 4
/-- Header and entries of an image with the header CRC in place, and that CRC. -/
def snapHead (n : Snap) (epoch : Nat) (entries : List (List Byte)) : List Byte × Nat :=
  let h0 := natLE 4 0x534E5032 ++ natLE 2 0x0100 ++ natLE 2 entries.length ++ natLE 8 n.step ++ natLE 4 epoch ++ natLE 4 (flagAt n.master 0) ++ zeros 40
  let crc := crc32c (h0 ++ entries.flatten)
  (putAt h0 60 (natLE 4 crc) ++ entries.flatten, crc)
/-- Read the parts of a layer. -/
def State.readParts (s : State) (ps : List (Nat × Nat)) : Except State (List Byte) := do
  let bs ← ps.mapM (fun p => if p.2 = 0 then .ok [] else s.bRead p.1 p.2)
  .ok bs.flatten
/-- The layers of an image: entry and data of each. -/
def State.snapData (s : State) (x : Job) (n : Snap) : Except State (List (Nat × List Byte × List Byte)) := do
  let ls := x.owned
  let ds ← ls.mapM (fun l => s.readParts (s.snapParts x n.master n.step l))
  let offs := snapOffsets (ds.map List.length)
  .ok ((ls.zip (ds.zip offs)).map (fun e => (e.2.2, snapEntryOf e.1 (snapVersion n.step e.1) e.2.2 e.2.1, e.2.1)))
/-- Replace a snapshot of a job. -/
def State.setSnap (s : State) (j i : Nat) (n : Snap) : State := s.onJob j (fun x => { x with snaps := x.snaps.set i n })
/-- Copy and ship one snapshot. Where the image lands in the remote region is a free value (log 40). -/
def State.snapCopy (s : State) (j i : Nat) (x : Job) (n : Snap) : State :=
  match s.snapData x n, s.region? n.region with
  | .error s1, _ => (s1.setSnap j i { n with copied := true, copyTick := s.tick, count := x.owned.length, status := stVerify })
  | _, none => s
  | .ok ls, some g =>
    let (head, crc) := snapHead n x.epoch (ls.map (fun l => l.2.1))
    let s1 := ls.foldl (fun st l => st.devWrite (g.base + l.1) l.2.2) (s.devWrite g.base head)
    let img := s1.devMem.readN g.base (snapLen (ls.map (fun l => l.2.2.length)))
    let s2 := if n.shipHost then s1.hostWrite n.host img else s1
    let (at_, s3) := if n.shipRemote then s2.draw else (0, s2)
    let wr := if n.shipRemote then (s3.qp? n.qpn).map (fun q => q.wrNum) else none
    let s4 := if n.shipRemote then s3.postMsg n.qpn n.rkey at_ img none none else s3
    s4.setSnap j i { n with copied := true, copyTick := s.tick, count := ls.length, crc := crc, wr := wr }
/-- Every owned layer has committed the version of the snapshot's step (R176). -/
def snapReady (x : Job) (n : Snap) : Bool := n.armed && !n.copied && x.owned.all (fun l => n.step + 1 ≤ l.commits)
/-- SNAPSHOT_COPY (R176): the oldest snapshot that is ready is copied at one instant (log 40), and layers
that waited for it go on. -/
def execSnapshotCopy (job : Nat) (s : State) : Out :=
  .next (match s.job? job with
    | none => s
    | some x =>
      if !jobRuns x then s
      else match x.snaps.zipIdx.find? (fun e => snapReady x e.1) with
        | none => s
        | some (n, i) => (s.snapCopy job i x n).regrant job)
/-- Shipping has finished: nothing goes to a peer, or its work request has completed. -/
def State.shipped (s : State) (n : Snap) : Bool :=
  n.status ≠ stOk || !n.shipRemote || (match n.wr, s.qp? n.qpn with
    | some w, some q => q.st = .rts && !q.wrs.any (fun e => e.num = w)
    | _, _ => false)
/-- Write a snapshot's completion record and forget it (R176). -/
def State.snapEnd (s : State) (j : Nat) (x : Job) (i : Nat) (n : Snap) (status : Nat) : State :=
  let (f, s0) := if n.copied then (n.crc, s) else s.draw
  let s1 := match s0.region? n.region with
    | none => s0
    | some g => s0.setRegion n.region { g with writers := g.writers - 1 }
  (s1.setJob j { x with snaps := x.snaps.eraseIdx i }).devWrite n.cpl (natLE 2 status ++ natLE 2 x.owned.length ++ natLE 4 f ++ natLE 8 n.step)
/-- SNAPSHOT_COMPLETE (R176): OK or VERIFY_FAILED once copied and shipped; WRONG_STATE when the job was
fenced, or stopped, first. -/
def execSnapshotComplete (job : Nat) (s : State) : Out :=
  .next (match s.job? job with
    | none => s
    | some x =>
      match x.snaps.zipIdx.find? (fun e => !jobRuns x || (e.1.copied && s.shipped e.1)) with
      | none => s
      | some (n, i) =>
        let lost := !jobRuns x && !(n.copied && s.shipped n && x.st ≠ .fenced)
        s.snapEnd job x i n (if lost then stWrong else n.status))
/-- SNAPSHOT_SHIP_TIMEOUT (R176): 10 s after the copy. -/
def execSnapshotShipTimeout (job : Nat) (s : State) : Out :=
  .next (match s.job? job with
    | none => s
    | some x =>
      match x.snaps.zipIdx.find? (fun e => e.1.copied && !s.shipped e.1 && decide (e.1.copyTick + 1000000000 ≤ s.tick)) with
      | none => s
      | some (n, i) => if !jobRuns x then s else s.snapEnd job x i n stTimeout)

end Sys2Proof.Machine
end

