-- ==== Sys2Proof/Machine/RegWrite.lean ====
section
/-! DEFINITION. Writing and reading registers from outside (R44 to R57): what each write is checked for and
what it sets off, direct accesses over BAR0 and BAR2 (R47, R291, R292), doorbells, CFG_WRITE and
CFG_READ. -/

namespace Sys2Proof.Machine

/-! ### Checks -/

/-- A mailbox is idle for a change of COMPAT (R56). -/
def Mailbox.quiet (m : Mailbox) : Bool :=
  m.st = .disabled || (m.prod = m.cmdCons && m.exec.isNone && m.held.isNone)
/-- May COMPAT be written (R56)? Never while a bring-up step runs (R451). A CFG_WRITE on mailbox 0 does not
count against mailbox 0: its own request has been taken, and it alone executes there. -/
def State.compatOk (s : State) : Bool :=
  s.bu.result ≠ 1 && (!s.power.cp || (upTo 64).all (fun n => (s.mb n).quiet))
/-- Is a write of BU_STEP accepted (R447)? -/
def State.buAccepts (s : State) (code : Nat) : Bool :=
  !(s.bu.result = 1 || code = 0 || s.bu.next ≠ code || s.power.tripped || !s.power.v48)
/-- MEM_WIN must stay a multiple of the size of BAR4 (R294): the window after the write. -/
def State.winOk (s : State) (off : Nat) (v : Word) : Bool :=
  let lo := if off = 0x060 then fld v 31 30 else s.rf .mem 0x060 31 30
  let hi := if off = 0x064 then fld v 7 0 else s.rf .mem 0x064 7 0
  (hi * 2 ^ 32 + lo * 2 ^ 30) % 2 ^ s.link.bar4Log2 = 0
/-- Named bits that are written 1. -/
def setBit (mask v : Word) (i : Nat) : Bool := flag (mask &&& v) i
/-- A write that its chapter ignores and counts: internal check-value channels (R440), ENABLE of mailboxes 1
to 55 while the device is DETACHED (R314). -/
def State.regIgnored (s : State) (b : Blk) (off : Nat) (mask v : Word) : Bool :=
  match b with
  | .cv c => 8 ≤ c
  | .mb n => off = 0x020 && s.link.detached && 1 ≤ n && n < 56 && setBit mask v 31
  | _ => false
/-- The status of a write of named bits: the class rules (R45), the register's own range, and the states
that its chapter asks for. -/
def State.regCheck (s : State) (b : Blk) (off : Nat) (mask v : Word) : Nat :=
  if b = .bu ∧ off = 0x100 then (if s.compatOk then stOk else stStatic)
  else
    let st := s.writeStatus b off mask v
    if st ≠ stOk ∧ st ≠ stPending then st
    else match b with
    | .bu =>
      if off = 0x000 then
        (if !s.buAccepts (fld v 7 0) then stWrong else if fld v 7 0 = 7 ∧ 3 ≤ fld v 11 8 then stBadArg else st)
      else st
    | .cv c => if off = 0x000 ∧ setBit mask v 31 ∧ (s.cv c).st = 1 then stWrong else st
    | .sub i => if off = 0x800 ∧ setBit mask v 31 ∧ ((s.sub i).barred ∨ !s.subExists i) then stWrong else st
    | .mem => if (off = 0x060 ∨ off = 0x064) ∧ !s.winOk off (mergeBits (s.reg b off) mask v) then stBadArg else st
    | .xpDev => if off = 0x000 ∧ mask ≠ 0 ∧ s.xp.qps ≠ [] then stWrong else st
    | _ => st

/-! ### Effects -/

/-- A step that a REGISTER_WRITE or a CFG_WRITE of BU_STEP runs: nothing in it fails (log 41). -/
def buPlain (code mode : Nat) (s : State) : State × BuEnd :=
  match code with
  | 0x01 => stepPowerHub true false false s
  | 0x02 => stepLoadFw .ok s
  | 0x03 => stepPowerDies 0 s
  | 0x04 => stepLockClocks 0 0 s
  | 0x05 => stepTrainSolder [] 0 s
  | 0x06 => stepTrainMemory (List.replicate 192 255) s
  | 0x07 => stepTestMemory mode [] s
  | 0x08 => stepTestCores [] s
  | 0x09 => stepApplyDefects s
  | 0x0A => stepStartOptics 0 s
  | 0x0B => stepStartCp true s
  | _ => stepAttest .ok s
/-- COMPAT changes (R57): a change of MB_V2 resets mailbox 0's indices as R29 does. -/
def State.compatSet (s : State) (mask v : Word) : State :=
  let new := ((s.compat &&& ~~~(mask.setWidth 4)) ||| ((mask &&& v).setWidth 4))
  let s1 := { s with compat := new }
  if new.getLsbD 2 = s.compat.getLsbD 2 then s1
  else (s1.setMb 0 { s1.mb 0 with cmdCons := 0, prod := 0, rspProd := 0 }).setReg (.mb 0) 0x028 0
/-- Named bits of MB_CTRL: the register changes, and then ENABLE acts (R29). -/
def State.mbCtrl (s : State) (n : Nat) (mask v : Word) : State :=
  let was := flag (s.reg (.mb n) 0x020) 31
  let s1 := s.applyWrite (.mb n) 0x020 mask v
  let is := flag (s1.reg (.mb n) 0x020) 31
  if is ∧ !was then s1.mbEnable n else if was ∧ !is then s1.mbDisable n else s1
/-- Named bits of CV_CTRL, START and STOP judged against the state before the write (R442, R443, R445). -/
def State.cvCtrl (s : State) (c : Nat) (mask v : Word) : State :=
  let busy := (s.cv c).st = 1
  let s1 := s.applyWrite (.cv c) 0x000 (mask &&& ~~~0xC0000000) v
  let bad := (setBit mask v 31 && busy) || (setBit mask v 30 && !busy)
  let s2 := if bad then s1.countErr (.cv c) else s1
  if setBit mask v 31 ∧ !busy then s2.cvBegin c else if setBit mask v 30 ∧ busy then s2.cvHalt c else s2
/-- Named bits of MAC_CTRL: ENABLE lights the bay or stops the sub-port (R318, R324). -/
def State.macCtrl (s : State) (i : Nat) (mask v : Word) : State :=
  let was := flag (s.reg (.sub i) 0x800) 31
  let s1 := s.applyWrite (.sub i) 0x800 mask v
  let is := flag (s1.reg (.sub i) 0x800) 31
  if is ∧ !was then s1.relight (i / 4) else if was ∧ !is then s1.portOff i else s1
/-- Clear HALF bits (W1C, R337). -/
def State.halfClear (s : State) (i off : Nat) (w : Word) : State :=
  let x := s.sub i
  let base := 32 * ((off - 0x200) / 4)
  s.setSub i { x with half := x.half.filter (fun e => !(decide (base ≤ e.1) && decide (e.1 < base + 32) && flag w (e.1 - base))) }
/-- A write of named bits that its checks have passed. -/
def State.regApply (s : State) (b : Blk) (off : Nat) (mask v : Word) : State :=
  match b with
  | .mb n =>
    if off = 0x000 ∨ off = 0x008 then s.doorbell n (fld (mask &&& v) 6 0)
    else if off = 0x020 then s.mbCtrl n mask v
    else if off = 0x028 then (s.applyWrite b off mask v).rspConsMoved n
    else if 0x100 ≤ off ∧ off < 0x200 then s.svcBell n ((off - 0x100) / 4) (mask &&& v).toNat
    else s.applyWrite b off mask v
  | .cv c =>
    if off = 0x000 then s.cvCtrl c mask v
    else if off = 0x004 then (if setBit mask v 29 then s.setCv c { s.cv c with mismatch := false } else s)
    else s.applyWrite b off mask v
  | .sub i =>
    if off = 0x800 then s.macCtrl i mask v
    else if 0x200 ≤ off ∧ off < 0x20C then s.halfClear i off (mask &&& v)
    else s.applyWrite b off mask v
  | .port p =>
    let s1 := s.applyWrite b off mask v
    if s1.mode1 p = s.mode1 p then s1 else s1.modeChanged p
  | .bu =>
    if off = 0x000 then s.buStep (fld v 7 0) (buPlain (fld v 7 0) (fld v 11 8))
    else if off = 0x018 then
      { s with bu := { s.bu with tripDie := s.bu.tripDie && !setBit mask v 31, tripMem := s.bu.tripMem && !setBit mask v 30 } }
    else if off = 0x100 then s.compatSet mask v
    else s.applyWrite b off mask v
  | .job j =>
    let s1 := s.applyWrite b off mask v
    if off = 0x020 ∧ mask ≠ 0 ∧ !s.runs b then s1.onJob j (fun x => { x with range := { x.range with seq := (x.range.seq + 1) % 2 ^ 32 } })
    else s1
  | .pw =>
    let s1 := s.applyWrite b off mask v
    if off = 0x004 then { s1 with con := { s1.con with unatt := [] } } else s1
  | _ => s.applyWrite b off mask v

/-! ### Direct accesses -/

/-- BAR and offset to block and offset: BAR0 holds the bring-up window alone. -/
def barReg (bar off : Nat) : Option (Blk × Nat) :=
  if bar = 0 then (if off < 0x1000 then some (.bu, off) else none) else bar2Reg off
/-- The host reaches a BAR over the link that is up; BAR2 needs four lanes (R288) and HCLK (R448). -/
def State.barUp (s : State) (bar : Nat) : Bool :=
  s.link.up && (bar = 0 || (s.power.hub && 4 ≤ s.link.width))
/-- A direct write of a register (R47): `page` is its offset in its 4 KiB page. -/
def State.directWrite (s : State) (b : Blk) (off page : Nat) (v : Word) : State :=
  let mask := s.directMask b off v
  let reserved := (v &&& ~~~(anyMask b off)) ≠ 0
  let note := fun (st : Nat) (t : State) => t.noteWrite b page st
  if s.regIgnored b off mask v then note stOk (s.countErr b)
  else if writableMask b off = 0 then note stOk (s.countErr b)
  else
    let s1 := if reserved then s.countErr b else s
    let st := s1.regCheck b off mask v
    if st = stStatic then note st (if reserved then s1 else s1.countErr b)
    else if st = stOk ∨ st = stPending then note st (s1.regApply b off mask v)
    else match b with
      | .cv c => if off = 0x000 ∧ st = stWrong then note st (s1.cvCtrl c mask v) else note st s1
      | _ => note st s1
/-- A host write through a BAR (R47, R291, R292). Host writes to the pages of mailboxes 56 to 63 are ignored
and counted (R25); the MSI-X table keeps what is written. -/
def State.barWrite (s : State) (bar off : Nat) (v : Word) : State :=
  if !s.barUp bar then s
  else match barReg bar off with
    | some (.mb n, o) =>
      if 56 ≤ n then State.noteWrite (s.countErr (.mb n)) (.mb n) o stOk
      else s.directWrite (.mb n) o o v
    | some (b, o) => s.directWrite b o (off % 0x1000) v
    | none =>
      if bar = 2 ∧ 0x60000 ≤ off ∧ off < 0x61000 then { s with link := { s.link with msixTab := tabSet s.link.msixTab (off - 0x60000) v } }
      else s
/-- A host read through a BAR. -/
def State.barRead (s : State) (bar off : Nat) : State :=
  if !s.barUp bar then { s with busOut := [] }
  else match barReg bar off with
    | some (b, o) => let (v, s1) := s.readReg b o; { s1 with busOut := natLE 4 v.toNat }
    | none =>
      if bar = 2 ∧ 0x60000 ≤ off ∧ off < 0x61000 then { s with busOut := natLE 4 (tabGet (0 : Word) s.link.msixTab (off - 0x60000)).toNat }
      else { s with busOut := zeros 4 }
/-- An access that the link can make: a word of BAR0 (64 KiB) or BAR2 (1 MiB) (R291). -/
def barHas (bar off : Nat) : Bool := off % 4 = 0 && ((bar = 0 && off < 0x10000) || (bar = 2 && off < 0x100000))
/-- REGISTER_WRITE. -/
def execRegisterWrite (bar off : Nat) (v : Word) (s : State) : Out :=
  if barHas bar off then .next (s.barWrite bar off v) else .fault .noSuchRegister
/-- REGISTER_READ (R8, R10, R20). -/
def execRegisterRead (bar off : Nat) (s : State) : Out :=
  if barHas bar off then .next (s.barRead bar off) else .fault .noSuchRegister
/-- COMPAT_WRITE (R56). -/
def execCompatWrite (v : Word) (s : State) : Out := .next (s.barWrite 0 0x100 v)

/-- A write to a mailbox's page by the agent that owns the mailbox: the host for 0 to 55, the Pewter cluster
for 56 to 63 (R25). -/
def State.mbWrite (s : State) (mb off : Nat) (v : Word) : State :=
  if mb < 56 then s.barWrite 2 (mb * 0x1000 + off) v
  else if s.fw then s.directWrite (.mb mb) off off v else s
/-- MB_DOORBELL (R30). -/
def execMbDoorbell (mb : MbId) (v : Word) (s : State) : Out := .next (s.mbWrite mb.val 0x000 v)
/-- MB_DOORBELL_F (R34): every CXL.mem write that the host has completed is already in device memory. -/
def execMbDoorbellF (mb : MbId) (v : Word) (s : State) : Out := .next (s.mbWrite mb.val 0x008 v)
/-- MAILBOX_ENABLE (R29): MB_CTRL is written with ENABLE 1. -/
def execMailboxEnable (mb : MbId) (v : Word) (s : State) : Out := .next (s.mbWrite mb.val 0x020 (v ||| 0x80000000))
/-- MAILBOX_DISABLE (R29): MB_CTRL is written with ENABLE 0. -/
def execMailboxDisable (mb : MbId) (v : Word) (s : State) : Out := .next (s.mbWrite mb.val 0x020 (v &&& 0x7FFFFFFF))
/-- MB_RSP_CONS (R32). -/
def execMbRspCons (mb : MbId) (v : Word) (s : State) : Out := .next (s.mbWrite mb.val 0x028 v)
/-- SVC_DOORBELL (R246, R247). -/
def execSvcDoorbell (mb : MbId) (svc : SvcId) (v : Word) (s : State) : Out := .next (s.mbWrite mb.val (0x100 + 4 * svc.val) v)
/-- CV_START (R442): CV_CTRL is written with START 1 and STOP 0. -/
def execCvStart (ch : CvId) (v : Word) (s : State) : Out :=
  .next (s.barWrite 2 (0x40000 + ch.val * 0x1000) ((v &&& 0x3FFFFFFF) ||| 0x80000000))
/-- CV_STOP (R443): CV_CTRL is written with STOP 1 and START 0. -/
def execCvStop (ch : CvId) (v : Word) (s : State) : Out :=
  .next (s.barWrite 2 (0x40000 + ch.val * 0x1000) ((v &&& 0x3FFFFFFF) ||| 0x40000000))
/-- BAR2 offset of a sub-port's MAC_CTRL (R338). -/
def macCtrlOff (i : Nat) : Nat := 0x50000 + (i / 2) * 0x1000 + 0x800 + 0x100 * (i % 2)
/-- PORT_ENABLE (R324): MAC_CTRL is written with ENABLE 1. -/
def execPortEnable (sub : SubId) (v : Word) (s : State) : Out := .next (s.barWrite 2 (macCtrlOff sub.val) (v ||| 0x80000000))
/-- PORT_DISABLE (R324): MAC_CTRL is written with ENABLE 0. -/
def execPortDisable (sub : SubId) (v : Word) (s : State) : Out := .next (s.barWrite 2 (macCtrlOff sub.val) (v &&& 0x7FFFFFFF))

/-! ### CFG_WRITE and CFG_READ -/

/-- One entry: register address word, mask, value. -/
structure CfgEntry where
  addr : Nat
  mask : Word
  val : Word
deriving DecidableEq, Repr
/-- The entries of a request (R44): up to three in the payload, up to 4,096 in the block. -/
def cfgEntries (r : Req) : Option (List CfgEntry) :=
  let mk := fun (a d : Nat) => (⟨a, BitVec.ofNat 32 d, BitVec.ofNat 32 (d / 2 ^ 32)⟩ : CfgEntry)
  if r.argblk then
    (if r.arg.length % 16 ≠ 0 ∨ 4096 * 16 < r.arg.length then none
     else some ((upTo (r.arg.length / 16)).map (fun i => mk (leAt r.arg (16 * i) 8) (leAt r.arg (16 * i + 8) 8))))
  else some ((upTo (r.w 0 % 4)).map (fun i => mk (r.w (1 + 2 * i)) (r.w (2 + 2 * i))))
/-- A mailbox page. -/
def Blk.isMb (b : Blk) : Bool := match b with | .mb _ => true | _ => false
/-- May a mailbox reach a register (R173, R260, R287, R338, R368, R390, R409, R429, R439)? Of the partition
registers a partition mailbox writes its own event queue's CONS alone. -/
def State.cfgRight (s : State) (scope : Option Nat) (b : Blk) (off : Nat) (write : Bool) : Nat :=
  let own := fun (p : Nat) => if scope = none ∨ scope = some p then stOk else stNotPerm
  match b with
  | .job j => (match s.job? j with | none => stBadArg | some x => own x.part)
  | .xp j => (match s.job? j with | none => stBadArg | some x => own x.part)
  | .svc k => (match s.svc? k with | none => stBadArg | some v => own v.part)
  | .svcDev => if write ∧ scope ≠ none then stNotPerm else stOk
  | .part p => if 8 ≤ p then stBadArg else if scope = none ∨ (scope = some p ∧ (!write ∨ off = 0x018)) then stOk else stNotPerm
  | .mb n => if scope = none ∨ (n ≠ 0 ∧ (s.mb n).part = scope) then stOk else stNotPerm
  | .cv c => if scope = none ∨ (scope ≠ none ∧ c < 8 ∧ (s.cv c).part = scope) then stOk else stNotPerm
  | _ => if scope = none then stOk else stNotPerm
/-- The register that an address word names for a mailbox, or the failure. In space 0x2 a partition reaches
the pages of its own mailboxes (R26) and nothing else (R338, R390, R439). -/
def State.cfgTarget (s : State) (scope : Option Nat) (a : Nat) (write : Bool) : Except Nat (Blk × Nat) :=
  if bitsOf a 59 48 ≠ 0 then .error stBadArg
  else if scope ≠ none ∧ [0x0, 0x3, 0x7].contains (bitsOf a 63 60) then .error stNotPerm
  else match regOf a with
    | none => .error stBadArg
    | some (b, off) =>
      let e := if scope ≠ none ∧ bitsOf a 63 60 = 2 ∧ !b.isMb then stNotPerm else s.cfgRight scope b off write
      if e ≠ stOk then .error e else if !regExists b off then .error stBadArg else .ok (b, off)
/-- A register whose write sets something off; in one CFG_WRITE these come after the plain fields. -/
def isAction (b : Blk) (off : Nat) : Bool :=
  match b with
  | .mb _ => off = 0x000 || off = 0x008 || off = 0x020 || (0x100 ≤ off && off < 0x200)
  | .cv _ => off = 0x000
  | .sub _ => off = 0x800
  | .port _ => off = 0xA00
  | .bu => off = 0x000 || off = 0x100
  | _ => false
/-- One checked entry. -/
structure CfgRow where
  blk : Blk
  off : Nat
  mask : Word
  val : Word
deriving DecidableEq, Repr
/-- Status of a row on the state reached so far; S fields are judged against the state at acceptance. -/
def State.rowCheck (s0 s : State) (r : CfgRow) : Nat :=
  if s0.regIgnored r.blk r.off r.mask r.val ∨ writableMask r.blk r.off = 0 then stOk
  else if s0.runs r.blk ∧ r.mask &&& clsMask r.blk r.off .s ≠ 0 then (if r.blk = .bu ∧ r.off = 0x100 then s0.regCheck r.blk r.off r.mask r.val else stStatic)
  else
    let st := s0.regCheck r.blk r.off r.mask r.val
    if st ≠ stOk ∧ st ≠ stPending then (if st = stBadArg then s.regCheck r.blk r.off r.mask r.val else st)
    else if valueOk r.blk r.off (match r.blk with | .sub i => s.mode1 (i / 2) | _ => false) (mergeBits (s.shown r.blk r.off) r.mask r.val) then st
    else stBadArg
/-- Apply one row: reserved bits and ignored entries count (R9, R47). -/
def State.rowApply (s : State) (r : CfgRow) : State :=
  let m := r.mask &&& writableMask r.blk r.off
  if s.regIgnored r.blk r.off r.mask r.val ∨ writableMask r.blk r.off = 0 then s.countErr r.blk
  else
    let s1 := if r.mask &&& r.val &&& ~~~(anyMask r.blk r.off) = 0 then s else s.countErr r.blk
    s1.regApply r.blk r.off m r.val
/-- Every row in turn: the first failing status, or the new state and whether a field is pending. -/
def State.cfgRows (s0 : State) : State → Bool → List CfgRow → Except Nat (State × Bool)
  | s, p, [] => .ok (s, p)
  | s, p, r :: rs =>
    let st := s0.rowCheck s r
    if st = stOk ∨ st = stPending then s0.cfgRows (s.rowApply r) (p || st = stPending) rs else .error st
/-- Boundary at which pending values of a block apply: a sub-port counts each direction's own (R48). -/
def State.targetSeq (s : State) (b : Blk) : Nat :=
  match b with
  | .sub i => if s.macPending i true then s.nextBoundary b else tabGet 0 s.bseq (rxSeq i) + 1
  | _ => s.nextBoundary b
/-- The entries of a CFG_WRITE for one block instance (R44, R45): done entirely or not at all. -/
def State.cfgDo (s : State) (rows : List CfgRow) : Except Nat (State × Nat × Nat) :=
  match rows with
  | [] => .error stBadArg
  | r0 :: _ =>
    if rows.any (fun r => r.blk ≠ r0.blk) then .error stBadArg
    else
      let ordered := rows.filter (fun r => !isAction r.blk r.off) ++ rows.filter (fun r => isAction r.blk r.off)
      match s.cfgRows s false ordered with
      | .error e => .error e
      | .ok (s1, p) => .ok (s1, if p then stPending else stOk, if p then s1.targetSeq r0.blk else 0)
/-- The rows of a request. -/
def State.cfgParse (s : State) (scope : Option Nat) (es : List CfgEntry) : Except Nat (List CfgRow) :=
  es.mapM (fun e => do
    let (b, off) ← s.cfgTarget scope e.addr true
    return ⟨b, off, e.mask, e.val⟩)
/-- CFG_WRITE (R44, R45). While it executes, clearing its own mailbox's ENABLE waits for its response. -/
def cmdCfgWrite (s : State) (r : Req) : CmdOut :=
  match cfgEntries r with
  | none => failWith s stBadArg
  | some es =>
    match s.cfgParse r.scope es with
    | .error e => failWith s e
    | .ok rows =>
      let own := rows.any (fun x => x.blk = .mb r.mb)
      let s1 := if own then s.setMb r.mb { s.mb r.mb with exec := some ⟨r.op, r.tag, r.noint, 0, 0⟩ } else s
      match s1.cfgDo rows with
      | .error e => failWith (if e = stStatic then (match rows with | [] => s | x :: _ => s.countErr x.blk) else s) e
      | .ok (s2, st, seq) => .done s2 st (natLE 8 seq)
/-- CFG_WRITE. -/
def execCfgWrite (mb : MbId) (s : State) : Out := .next (runCmd s mb.val 0x0110 .cfg false cmdCfgWrite)
/-- CFG_READ (R46). -/
def cmdCfgRead (s : State) (r : Req) : CmdOut :=
  match s.cfgTarget r.scope (r.w 0) false with
  | .error e => failWith s e
  | .ok (b, off) =>
    let (v, s1) := s.readReg b off
    let m := (s.pending? b off).1
    let act := if isHighWord b off then v else s.active b off
    .done s1 stOk (natLE 4 act.toNat ++ natLE 4 v.toNat ++ natLE 4 m.toNat ++ zeros 4 ++ natLE 8 (if m = 0 then 0 else s.targetSeq b))
/-- CFG_READ. -/
def execCfgRead (mb : MbId) (s : State) : Out := .next (runCmd s mb.val 0x0111 (.exact 1) false cmdCfgRead)
/-- UPD_STEP_PARAMS (R196): a write of UPD_STEP_SIZE as a B field. -/
def cmdUpdStepParams (s : State) (r : Req) : CmdOut :=
  let w := r.w 0
  let j := bitsOf w 15 0
  let v := BitVec.ofNat 32 (w / 2 ^ 32)
  if bitsOf w 31 16 ≠ 0 then failWith s stBadArg
  else match s.job? j with
    | none => failWith s stBadArg
    | some x =>
      if r.scope ≠ none ∧ r.scope ≠ some x.part then failWith s stNotPerm
      else match s.cfgDo [⟨.job j, 0x020, 0xFFFFFFFF, v⟩] with
        | .error e => failWith s e
        | .ok (s1, st, seq) => .done s1 st (natLE 8 seq)
/-- UPD_STEP_PARAMS. -/
def execUpdStepParams (mb : MbId) (s : State) : Out := .next (runCmd s mb.val 0x0501 (.exact 1) false cmdUpdStepParams)

end Sys2Proof.Machine
end

