-- ==== Sys2Proof/Machine/Dispatch.lean ====
section
/-! DEFINITION. One arm for each row of the table of operations and events. -/

namespace Sys2Proof.Machine

/-- The effect of a command on everything but the queue. -/
def exec (i : Instr) (s : State) : Host.Outcome State Fault Refusal :=
  match i with
  | .mbDoorbell mb v => Sys2Proof.Machine.execMbDoorbell mb v s
  | .mbDoorbellF mb v => Sys2Proof.Machine.execMbDoorbellF mb v s
  | .mailboxEnable mb v => Sys2Proof.Machine.execMailboxEnable mb v s
  | .mailboxDisable mb v => Sys2Proof.Machine.execMailboxDisable mb v s
  | .mbRspCons mb v => Sys2Proof.Machine.execMbRspCons mb v s
  | .registerWrite bar off v => Sys2Proof.Machine.execRegisterWrite bar off v s
  | .compatWrite v => Sys2Proof.Machine.execCompatWrite v s
  | .svcDoorbell mb svc v => Sys2Proof.Machine.execSvcDoorbell mb svc v s
  | .cfgWrite mb => Sys2Proof.Machine.execCfgWrite mb s
  | .cfgRead mb => Sys2Proof.Machine.execCfgRead mb s
  | .attach mb => Sys2Proof.Machine.execAttach mb s
  | .sessionCred mb => Sys2Proof.Machine.execSessionCred mb s
  | .pewterStart mb => Sys2Proof.Machine.execPewterStart mb s
  | .pewterStop mb => Sys2Proof.Machine.execPewterStop mb s
  | .partCreate mb => Sys2Proof.Machine.execPartCreate mb s
  | .partDestroy mb => Sys2Proof.Machine.execPartDestroy mb s
  | .partReconfigure mb => Sys2Proof.Machine.execPartReconfigure mb s
  | .partMailbox mb => Sys2Proof.Machine.execPartMailbox mb s
  | .evqSet mb => Sys2Proof.Machine.execEvqSet mb s
  | .secIdentity mb => Sys2Proof.Machine.execSecIdentity mb s
  | .secAttest mb => Sys2Proof.Machine.execSecAttest mb s
  | .secKeyEnroll mb => Sys2Proof.Machine.execSecKeyEnroll mb s
  | .secKeyRemove mb => Sys2Proof.Machine.execSecKeyRemove mb s
  | .secJobShare mb => Sys2Proof.Machine.execSecJobShare mb s
  | .secJobAgree mb => Sys2Proof.Machine.execSecJobAgree mb s
  | .biasSet mb => Sys2Proof.Machine.execBiasSet mb s
  | .biasQuery mb => Sys2Proof.Machine.execBiasQuery mb s
  | .regionCreate mb => Sys2Proof.Machine.execRegionCreate mb s
  | .regionDestroy mb => Sys2Proof.Machine.execRegionDestroy mb s
  | .regionSeal mb => Sys2Proof.Machine.execRegionSeal mb s
  | .regionAssign mb => Sys2Proof.Machine.execRegionAssign mb s
  | .regionQuery mb => Sys2Proof.Machine.execRegionQuery mb s
  | .memLayout mb => Sys2Proof.Machine.execMemLayout mb s
  | .hostDma mb => Sys2Proof.Machine.execHostDma mb s
  | .hostDmaComplete cmd o => Sys2Proof.Machine.execHostDmaComplete cmd o s
  | .jobLoadGraph mb => Sys2Proof.Machine.execJobLoadGraph mb s
  | .jobStart mb => Sys2Proof.Machine.execJobStart mb s
  | .jobStop mb => Sys2Proof.Machine.execJobStop mb s
  | .jobUnload mb => Sys2Proof.Machine.execJobUnload mb s
  | .jobRestart mb => Sys2Proof.Machine.execJobRestart mb s
  | .jobFence mb => Sys2Proof.Machine.execJobFence mb s
  | .jobFaultInfo mb => Sys2Proof.Machine.execJobFaultInfo mb s
  | .syncRead mb => Sys2Proof.Machine.execSyncRead mb s
  | .syncAdd mb => Sys2Proof.Machine.execSyncAdd mb s
  | .syncSet mb => Sys2Proof.Machine.execSyncSet mb s
  | .groupStats mb => Sys2Proof.Machine.execGroupStats mb s
  | .jobLayerTable mb => Sys2Proof.Machine.execJobLayerTable mb s
  | .jobScaleTable mb => Sys2Proof.Machine.execJobScaleTable mb s
  | .jobRsegTable mb => Sys2Proof.Machine.execJobRsegTable mb s
  | .jobLayerStatus mb => Sys2Proof.Machine.execJobLayerStatus mb s
  | .jobMap mb => Sys2Proof.Machine.execJobMap mb s
  | .jobGatherTable mb => Sys2Proof.Machine.execJobGatherTable mb s
  | .jobMapStatus mb => Sys2Proof.Machine.execJobMapStatus mb s
  | .jobGatherStatus mb => Sys2Proof.Machine.execJobGatherStatus mb s
  | .updStepParams mb => Sys2Proof.Machine.execUpdStepParams mb s
  | .svcRegister mb => Sys2Proof.Machine.execSvcRegister mb s
  | .provingRunComplete svc cycles => Sys2Proof.Machine.execProvingRunComplete svc cycles s
  | .svcDeregister mb => Sys2Proof.Machine.execSvcDeregister mb s
  | .svcArm mb => Sys2Proof.Machine.execSvcArm mb s
  | .publish mb => Sys2Proof.Machine.execPublish mb s
  | .publishVerified svc => Sys2Proof.Machine.execPublishVerified svc s
  | .svcResume mb => Sys2Proof.Machine.execSvcResume mb s
  | .pwCapSet mb => Sys2Proof.Machine.execPwCapSet mb s
  | .pwAcctOwn mb => Sys2Proof.Machine.execPwAcctOwn mb s
  | .pwAcctAssign mb => Sys2Proof.Machine.execPwAcctAssign mb s
  | .pwAcctRead mb => Sys2Proof.Machine.execPwAcctRead mb s
  | .pwAcctClear mb => Sys2Proof.Machine.execPwAcctClear mb s
  | .pwPrefSet mb => Sys2Proof.Machine.execPwPrefSet mb s
  | .pwTenantStatus mb => Sys2Proof.Machine.execPwTenantStatus mb s
  | .pwGroupRead mb => Sys2Proof.Machine.execPwGroupRead mb s
  | .xpAddrSet mb => Sys2Proof.Machine.execXpAddrSet mb s
  | .xpQpCreate mb => Sys2Proof.Machine.execXpQpCreate mb s
  | .xpQpConnect mb => Sys2Proof.Machine.execXpQpConnect mb s
  | .xpQpDestroy mb => Sys2Proof.Machine.execXpQpDestroy mb s
  | .xpQpQuery mb => Sys2Proof.Machine.execXpQpQuery mb s
  | .xpPost mb => Sys2Proof.Machine.execXpPost mb s
  | .xpTrigPost mb => Sys2Proof.Machine.execXpTrigPost mb s
  | .xpTrigCancel mb => Sys2Proof.Machine.execXpTrigCancel mb s
  | .xpReg mb => Sys2Proof.Machine.execXpReg mb s
  | .xpRevoke mb => Sys2Proof.Machine.execXpRevoke mb s
  | .revokeDrained region => Sys2Proof.Machine.execRevokeDrained region s
  | .cvAssign mb => Sys2Proof.Machine.execCvAssign mb s
  | .snapshot mb => Sys2Proof.Machine.execSnapshot mb s
  | .snapshotCopy job => Sys2Proof.Machine.execSnapshotCopy job s
  | .snapshotComplete job => Sys2Proof.Machine.execSnapshotComplete job s
  | .snapshotShipTimeout job => Sys2Proof.Machine.execSnapshotShipTimeout job s
  | .wsInstall mb => Sys2Proof.Machine.execWsInstall mb s
  | .wsInstallComplete o => Sys2Proof.Machine.execWsInstallComplete o s
  | .wsRemove mb => Sys2Proof.Machine.execWsRemove mb s
  | .wsGrant mb => Sys2Proof.Machine.execWsGrant mb s
  | .wsLoad mb => Sys2Proof.Machine.execWsLoad mb s
  | .wsLoadComplete load o => Sys2Proof.Machine.execWsLoadComplete load o s
  | .wsStatus mb => Sys2Proof.Machine.execWsStatus mb s
  | .dlRead mb => Sys2Proof.Machine.execDlRead mb s
  | .dlRemove mb => Sys2Proof.Machine.execDlRemove mb s
  | .diagCoreMap mb => Sys2Proof.Machine.execDiagCoreMap mb s
  | .powerHub identityOk copy0Bad copy1Bad => Sys2Proof.Machine.execPowerHub identityOk copy0Bad copy1Bad s
  | .loadFw o => Sys2Proof.Machine.execLoadFw o s
  | .powerDies fabFail => Sys2Proof.Machine.execPowerDies fabFail s
  | .lockClocks groupFail dieFail => Sys2Proof.Machine.execLockClocks groupFail dieFail s
  | .trainSolder failed halfFail => Sys2Proof.Machine.execTrainSolder failed halfFail s
  | .trainMemory margins => Sys2Proof.Machine.execTrainMemory margins s
  | .testMemory mode rows => Sys2Proof.Machine.execTestMemory mode rows s
  | .testCores fails => Sys2Proof.Machine.execTestCores fails s
  | .applyDefects => Sys2Proof.Machine.execApplyDefects s
  | .startOptics engineFail => Sys2Proof.Machine.execStartOptics engineFail s
  | .startCp ready => Sys2Proof.Machine.execStartCp ready s
  | .attest o => Sys2Proof.Machine.execAttest o s
  | .bringupStepEnd => Sys2Proof.Machine.execBringupStepEnd s
  | .bringupTimeout => Sys2Proof.Machine.execBringupTimeout s
  | .cvStart ch v => Sys2Proof.Machine.execCvStart ch v s
  | .cvStop ch v => Sys2Proof.Machine.execCvStop ch v s
  | .cvScanEnd ch => Sys2Proof.Machine.execCvScanEnd ch s
  | .taskFetch job die => Sys2Proof.Machine.execTaskFetch job die s
  | .taskRelease job die => Sys2Proof.Machine.execTaskRelease job die s
  | .taskPop core => Sys2Proof.Machine.execTaskPop core s
  | .taskSteal core => Sys2Proof.Machine.execTaskSteal core s
  | .taskGemm core => Sys2Proof.Machine.execTaskGemm core s
  | .taskGemmT core => Sys2Proof.Machine.execTaskGemmT core s
  | .taskGemmWg core => Sys2Proof.Machine.execTaskGemmWg core s
  | .taskVec core => Sys2Proof.Machine.execTaskVec core s
  | .taskLoad core => Sys2Proof.Machine.execTaskLoad core s
  | .taskStore core => Sys2Proof.Machine.execTaskStore core s
  | .taskGather core => Sys2Proof.Machine.execTaskGather core s
  | .taskColl core => Sys2Proof.Machine.execTaskColl core s
  | .taskUpd core => Sys2Proof.Machine.execTaskUpd core s
  | .taskSvc core => Sys2Proof.Machine.execTaskSvc core s
  | .taskComplete core => Sys2Proof.Machine.execTaskComplete core s
  | .hang core => Sys2Proof.Machine.execHang core s
  | .graphStall job => Sys2Proof.Machine.execGraphStall job s
  | .stepBoundary job => Sys2Proof.Machine.execStepBoundary job s
  | .vecNop core f => Sys2Proof.Machine.execVecNop core f s
  | .vecLd core f => Sys2Proof.Machine.execVecLd core f s
  | .vecSt core f => Sys2Proof.Machine.execVecSt core f s
  | .vecLdacc core f => Sys2Proof.Machine.execVecLdacc core f s
  | .vecBcast core f => Sys2Proof.Machine.execVecBcast core f s
  | .vecMovi core f => Sys2Proof.Machine.execVecMovi core f s
  | .vecAdd core f => Sys2Proof.Machine.execVecAdd core f s
  | .vecSub core f => Sys2Proof.Machine.execVecSub core f s
  | .vecMul core f => Sys2Proof.Machine.execVecMul core f s
  | .vecFma core f => Sys2Proof.Machine.execVecFma core f s
  | .vecDiv core f => Sys2Proof.Machine.execVecDiv core f s
  | .vecMax core f => Sys2Proof.Machine.execVecMax core f s
  | .vecMin core f => Sys2Proof.Machine.execVecMin core f s
  | .vecAbs core f => Sys2Proof.Machine.execVecAbs core f s
  | .vecSqrt core f => Sys2Proof.Machine.execVecSqrt core f s
  | .vecRsqrt core f => Sys2Proof.Machine.execVecRsqrt core f s
  | .vecExp core f => Sys2Proof.Machine.execVecExp core f s
  | .vecLog core f => Sys2Proof.Machine.execVecLog core f s
  | .vecTanh core f => Sys2Proof.Machine.execVecTanh core f s
  | .vecSigmoid core f => Sys2Proof.Machine.execVecSigmoid core f s
  | .vecErf core f => Sys2Proof.Machine.execVecErf core f s
  | .vecCmplt core f => Sys2Proof.Machine.execVecCmplt core f s
  | .vecSel core f => Sys2Proof.Machine.execVecSel core f s
  | .vecRsum core f => Sys2Proof.Machine.execVecRsum core f s
  | .vecRmax core f => Sys2Proof.Machine.execVecRmax core f s
  | .vecCvt core f => Sys2Proof.Machine.execVecCvt core f s
  | .vecQmx core f => Sys2Proof.Machine.execVecQmx core f s
  | .vecAmax core f => Sys2Proof.Machine.execVecAmax core f s
  | .vecEnd core f => Sys2Proof.Machine.execVecEnd core f s
  | .sectionTask core => Sys2Proof.Machine.execSectionTask core s
  | .updResume job layer => Sys2Proof.Machine.execUpdResume job layer s
  | .updComplete job layer => Sys2Proof.Machine.execUpdComplete job layer s
  | .updNop core f => Sys2Proof.Machine.execUpdNop core f s
  | .updLd core f => Sys2Proof.Machine.execUpdLd core f s
  | .updSt core f => Sys2Proof.Machine.execUpdSt core f s
  | .updAdd core f => Sys2Proof.Machine.execUpdAdd core f s
  | .updSub core f => Sys2Proof.Machine.execUpdSub core f s
  | .updMul core f => Sys2Proof.Machine.execUpdMul core f s
  | .updFma core f => Sys2Proof.Machine.execUpdFma core f s
  | .updDiv core f => Sys2Proof.Machine.execUpdDiv core f s
  | .updSqrt core f => Sys2Proof.Machine.execUpdSqrt core f s
  | .updRsqrt core f => Sys2Proof.Machine.execUpdRsqrt core f s
  | .updAbs core f => Sys2Proof.Machine.execUpdAbs core f s
  | .updSign core f => Sys2Proof.Machine.execUpdSign core f s
  | .updMax core f => Sys2Proof.Machine.execUpdMax core f s
  | .updMin core f => Sys2Proof.Machine.execUpdMin core f s
  | .updClamp core f => Sys2Proof.Machine.execUpdClamp core f s
  | .updSel core f => Sys2Proof.Machine.execUpdSel core f s
  | .updExp core f => Sys2Proof.Machine.execUpdExp core f s
  | .updLog core f => Sys2Proof.Machine.execUpdLog core f s
  | .updCvt core f => Sys2Proof.Machine.execUpdCvt core f s
  | .updSumsq core f => Sys2Proof.Machine.execUpdSumsq core f s
  | .updNorm2 core f => Sys2Proof.Machine.execUpdNorm2 core f s
  | .mstepGram core f => Sys2Proof.Machine.execMstepGram core f s
  | .mstepOrth core f => Sys2Proof.Machine.execMstepOrth core f s
  | .mstepInv core f => Sys2Proof.Machine.execMstepInv core f s
  | .mstepIroot core f => Sys2Proof.Machine.execMstepIroot core f s
  | .updEnd core f => Sys2Proof.Machine.execUpdEnd core f s
  | .layerCommit job layer => Sys2Proof.Machine.execLayerCommit job layer s
  | .reduceToOwner job coll => Sys2Proof.Machine.execReduceToOwner job coll s
  | .bcastFromOwner job coll => Sys2Proof.Machine.execBcastFromOwner job coll s
  | .allGather job coll => Sys2Proof.Machine.execAllGather job coll s
  | .reduceScatter job coll => Sys2Proof.Machine.execReduceScatter job coll s
  | .allToAll job coll => Sys2Proof.Machine.execAllToAll job coll s
  | .ringShift job coll => Sys2Proof.Machine.execRingShift job coll s
  | .layerGather job coll => Sys2Proof.Machine.execLayerGather job coll s
  | .collMessageReceive job m => Sys2Proof.Machine.execCollMessageReceive job m s
  | .gatherRequestServe job layer => Sys2Proof.Machine.execGatherRequestServe job layer s
  | .collComplete job coll => Sys2Proof.Machine.execCollComplete job coll s
  | .periodStart svc => Sys2Proof.Machine.execPeriodStart svc s
  | .cleanDone svc => Sys2Proof.Machine.execCleanDone svc s
  | .runStart svc => Sys2Proof.Machine.execRunStart svc s
  | .inputCutoff svc => Sys2Proof.Machine.execInputCutoff svc s
  | .deadline svc => Sys2Proof.Machine.execDeadline svc s
  | .writebackDone svc => Sys2Proof.Machine.execWritebackDone svc s
  | .svcMissed svc => Sys2Proof.Machine.execSvcMissed svc s
  | .controlInterval x => Sys2Proof.Machine.execControlInterval x s
  | .pllLock group => Sys2Proof.Machine.execPllLock group s
  | .muxSwitch group => Sys2Proof.Machine.execMuxSwitch group s
  | .railSettle group => Sys2Proof.Machine.execRailSettle group s
  | .switchAbandon group => Sys2Proof.Machine.execSwitchAbandon group s
  | .switchRetry group => Sys2Proof.Machine.execSwitchRetry group s
  | .droopDetect group detector => Sys2Proof.Machine.execDroopDetect group detector s
  | .stretchEnd group => Sys2Proof.Machine.execStretchEnd group s
  | .dutyFrame group => Sys2Proof.Machine.execDutyFrame group s
  | .powerSample e => Sys2Proof.Machine.execPowerSample e s
  | .pwrbrkAssert => Sys2Proof.Machine.execPwrbrkAssert s
  | .pwrbrkRelease => Sys2Proof.Machine.execPwrbrkRelease s
  | .thermalSample t => Sys2Proof.Machine.execThermalSample t s
  | .tripPowerOff => Sys2Proof.Machine.execTripPowerOff s
  | .externalThrottle part => Sys2Proof.Machine.execExternalThrottle part s
  | .memEyeMeasure ch centre margin => Sys2Proof.Machine.execMemEyeMeasure ch centre margin s
  | .memRetrain ch margin => Sys2Proof.Machine.execMemRetrain ch margin s
  | .retrainWaitExpire ch => Sys2Proof.Machine.execRetrainWaitExpire ch s
  | .freezeEnd die => Sys2Proof.Machine.execFreezeEnd die s
  | .ringLockLoss port lane => Sys2Proof.Machine.execRingLockLoss port lane s
  | .ringRelock port lane => Sys2Proof.Machine.execRingRelock port lane s
  | .laserTrim bay out step => Sys2Proof.Machine.execLaserTrim bay out step s
  | .slewBudgetUpdate die headroom => Sys2Proof.Machine.execSlewBudgetUpdate die headroom s
  | .laneRecal bridge module => Sys2Proof.Machine.execLaneRecal bridge module s
  | .laneRecalDone bridge module ok => Sys2Proof.Machine.execLaneRecalDone bridge module ok s
  | .laneFail bridge module lane => Sys2Proof.Machine.execLaneFail bridge module lane s
  | .droopRecal group failed => Sys2Proof.Machine.execDroopRecal group failed s
  | .portEnable sub v => Sys2Proof.Machine.execPortEnable sub v s
  | .portDisable sub v => Sys2Proof.Machine.execPortDisable sub v s
  | .portUp sub => Sys2Proof.Machine.execPortUp sub s
  | .linkFault sub => Sys2Proof.Machine.execLinkFault sub s
  | .laneLockLoss sub lane => Sys2Proof.Machine.execLaneLockLoss sub lane s
  | .portDegraded sub => Sys2Proof.Machine.execPortDegraded sub s
  | .laserLatchRelease bay => Sys2Proof.Machine.execLaserLatchRelease bay s
  | .laserLatch bay genuine => Sys2Proof.Machine.execLaserLatch bay genuine s
  | .laserFault bay => Sys2Proof.Machine.execLaserFault bay s
  | .frameReceive sub f => Sys2Proof.Machine.execFrameReceive sub f s
  | .pfcFrameReceive sub f => Sys2Proof.Machine.execPfcFrameReceive sub f s
  | .pfcPauseExpire sub prio => Sys2Proof.Machine.execPfcPauseExpire sub prio s
  | .pfcRepeat sub prio => Sys2Proof.Machine.execPfcRepeat sub prio s
  | .txFrameStart sub buffered => Sys2Proof.Machine.execTxFrameStart sub buffered s
  | .txUnderrun sub => Sys2Proof.Machine.execTxUnderrun sub s
  | .txFrameEnd sub => Sys2Proof.Machine.execTxFrameEnd sub s
  | .macIdleBoundary sub tx => Sys2Proof.Machine.execMacIdleBoundary sub tx s
  | .wrStart qpn => Sys2Proof.Machine.execWrStart qpn s
  | .dataPacketSend qpn => Sys2Proof.Machine.execDataPacketSend qpn s
  | .xpWrite sub => Sys2Proof.Machine.execXpWrite sub s
  | .xpReadReq sub => Sys2Proof.Machine.execXpReadReq sub s
  | .xpReadResp sub => Sys2Proof.Machine.execXpReadResp sub s
  | .xpAdd sub => Sys2Proof.Machine.execXpAdd sub s
  | .xpAck sub => Sys2Proof.Machine.execXpAck sub s
  | .xpNak sub => Sys2Proof.Machine.execXpNak sub s
  | .xpProbe sub => Sys2Proof.Machine.execXpProbe sub s
  | .xpProbeReply sub => Sys2Proof.Machine.execXpProbeReply sub s
  | .xpCtrl sub => Sys2Proof.Machine.execXpCtrl sub s
  | .ackTimer qpn => Sys2Proof.Machine.execAckTimer qpn s
  | .rtoExpire qpn => Sys2Proof.Machine.execRtoExpire qpn s
  | .pathProbe qpn path => Sys2Proof.Machine.execPathProbe qpn path s
  | .contextFetch qpn => Sys2Proof.Machine.execContextFetch qpn s
  | .triggerFire trig => Sys2Proof.Machine.execTriggerFire trig s
  | .keepalive job peer rail => Sys2Proof.Machine.execKeepalive job peer rail s
  | .peerLost job peer => Sys2Proof.Machine.execPeerLost job peer s
  | .granuleRetire granule => Sys2Proof.Machine.execGranuleRetire granule s
  | .hostLinkLoss => Sys2Proof.Machine.execHostLinkLoss s
  | .perstAssert => Sys2Proof.Machine.execPerstAssert s
  | .perstRelease slotId g1ModeN => Sys2Proof.Machine.execPerstRelease slotId g1ModeN s
  | .hostConfigWrite requester => Sys2Proof.Machine.execHostConfigWrite requester s
  | .cxlMemAccess a => Sys2Proof.Machine.execCxlMemAccess a s
  | .bar4Access a => Sys2Proof.Machine.execBar4Access a s
  | .powerOn mv10 => Sys2Proof.Machine.execPowerOn mv10 s
  | .powerLoss => Sys2Proof.Machine.execPowerLoss s
  | .overvoltage => Sys2Proof.Machine.execOvervoltage s
  | .smbIdent => Sys2Proof.Machine.execSmbIdent s
  | .smbStatus => Sys2Proof.Machine.execSmbStatus s
  | .smbVin => Sys2Proof.Machine.execSmbVin s
  | .smbPin => Sys2Proof.Machine.execSmbPin s
  | .smbTjMax => Sys2Proof.Machine.execSmbTjMax s
  | .smbInlet => Sys2Proof.Machine.execSmbInlet s
  | .smbAlertCause => Sys2Proof.Machine.execSmbAlertCause s
  | .smbAlertResponse => Sys2Proof.Machine.execSmbAlertResponse s
  | .smbWrite cmd => Sys2Proof.Machine.execSmbWrite cmd s
  | .registerRead bar off => Sys2Proof.Machine.execRegisterRead bar off s
  | .hostLinkUp width rate cxl => Sys2Proof.Machine.execHostLinkUp width rate cxl s
  | .laneRetire bridge module lane => Sys2Proof.Machine.execLaneRetire bridge module lane s
  | .pcsFaultClear sub => Sys2Proof.Machine.execPcsFaultClear sub s
  | .inletAbove35C temp => Sys2Proof.Machine.execInletAbove35C temp s

end Sys2Proof.Machine
end

