-- ==== Sys2Proof/Machine/Step.lean ====
section
/-! DEFINITION. One step of the block: the command at the front of the queue is executed with the queue's
rest; on an empty queue the period timer advances (log 1). -/

namespace Sys2Proof.Machine

/-- The idle step: the period timer counts one tick of AONCLK while 48 V is present (R244; log 1). -/
def idle (s : State) : State := if s.power.v48 then { s with tick := s.tick + 1 } else s

/-- One step. -/
def step (s : State) : Host.Outcome State Fault Refusal :=
  match s.pending with
  | [] => .next (idle s)
  | c :: cs => exec c { s with pending := cs }

/-- The state with the command that a table word spells put at the front of its queue: the table gives
no row any bits, so no word spells one. -/
def State.withFetchWord (s : State) (nbits w : Nat) : State :=
  match Sys2Proof.decodeTableWord nbits w with
  | none => s
  | some c => { s with pending := c :: s.pending }

end Sys2Proof.Machine
end

