-- ==== Sys2Proof/Safety.lean ====
section
/-! DEFINITION. The words in which the statements speak: states whose memories are well kept, a request at
the front of a mailbox, and the reply to it. -/

namespace Sys2Proof.Machine

/-- Device memory, host memory, local stores and weight store are in canonical form (log 2). -/
def State.memWf (s : State) : Bool :=
  s.devMem.wf && s.hostMem.wf && s.localMem.wf && s.store.bytes.wf

/-- Request `r` stands at the front of mailbox `mb`, which is ready; its opcode, LEN and flags are those its
command asks for, and the mailbox may send it (R25, R36, R37, R314). -/
def State.atFront (s : State) (mb op : Nat) (rule : LenRule) (operatorOnly : Bool) (r : Req) : Prop :=
  s.mbReady mb = true ∧ (s.readSlot mb).map (parseReq s mb) = some r ∧ r.op = op ∧
  (lenOk (s.v2 mb) r rule).1 = true ∧ r.len ≤ (if s.v2 mb then 5 else 7) ∧
  r.flags < (if s.v2 mb then 2 else 4) ∧ (mb = 0 ∨ (r.scope ≠ none ∧ operatorOnly = false)) ∧
  (mb ≠ 0 ∨ s.link.detached = false ∨ op = 0x0105 ∨ op = 0x0111)

/-- The agent that owns a mailbox reaches its page (R25, R288, R292): the host over BAR2, the Pewter cluster in
the firmware's hub. -/
def State.pageUp (s : State) (mb : Nat) : Bool := if mb < 56 then s.barUp 2 else s.fw

/-- Request `r` is at the front with `n` payload words: in its slot, or, under MB_V2, in an argument block that
its slot describes (R37, R58). -/
def State.front (s : State) (mb op n : Nat) (operatorOnly : Bool) (r : Req) : Prop :=
  ∃ q, s.atFront mb op (.exact n) operatorOnly q ∧
    ((q.argblk = false ∧ r = q) ∨ (q.argblk = true ∧ ∃ a, (s.takeReq mb).argBlock q = .ok a ∧
      r = { q with words := (upTo 7).map (fun i => leAt a (8 * i) 8) }))

/-- The request has an argument block, checked and copied: `a` are its bytes (R40, R41). -/
def State.frontArg (s : State) (mb op n : Nat) (operatorOnly : Bool) (r : Req) (a : List Byte) : Prop :=
  s.atFront mb op (.block n) operatorOnly r ∧ (s.takeReq mb).argBlock r = .ok a

/-- Request `q` is request `r` with the bytes of its argument block, where it has one (R40, R41). -/
def State.withArg (s : State) (mb : Nat) (r q : Req) : Prop :=
  (r.argblk = false ∧ q = r) ∨ (∃ a, r.argblk = true ∧ (s.takeReq mb).argBlock r = .ok a ∧ q = { r with arg := a })

/-- Word 0 of the request names loaded job `j`, and the mailbox may act on it (R25, R146). -/
def State.ownJob (s : State) (r : Req) (j : Nat) (x : Job) : Prop :=
  j = bitsOf (r.w 0) 15 0 ∧ s.job? j = some x ∧ (r.scope = none ∨ r.scope = some x.part)

/-- Word 0 of the request names registered service `k`, and the mailbox may act on it (R240). -/
def State.ownSvc (s : State) (r : Req) (k : Nat) (v : Svc) : Prop :=
  k = bitsOf (r.w 0) 5 0 ∧ s.svc? k = some v ∧ (r.scope = none ∨ r.scope = some v.part)

/-- The state after the reply to request `r`: the response with a status and result bytes is written or held,
and undefined requests behind it are answered (R31, R32, R42). -/
def State.reply (s : State) (r : Req) (status : Nat) (res : List Byte) : State :=
  (s.respond r.mb r.tag r.noint status res).drain r.mb 64

/-- The state in which request `r` executes and its response is still due (R31, R39). -/
def State.waits (s : State) (r : Req) (what arg : Nat) : State :=
  s.setMb r.mb { s.mb r.mb with st := .busy, exec := some ⟨r.op, r.tag, r.noint, what, arg⟩ }

/-- A packet of type `typ` stands first in a sub-port's receive buffer; its queue pair is cached and in RTS, it
is authentic and of no fenced epoch (R323, R347 to R350, R366). -/
def State.rxFront (s : State) (i typ : Nat) (p : Packet) (q : Qp) : Prop :=
  (∃ ce prio len rest, (s.sub i).rxQ = (p, ce, prio, len, true) :: rest) ∧ p.typ = typ ∧
  s.qp? p.dstQpn = some q ∧ q.cached = true ∧ q.st = .rts ∧
  (∀ x, s.job? q.job = some x → x.fencedEpochs.contains p.epoch = false)

/-- Job numbers rise strictly: every job is listed once (log 2). -/
def State.jobsRising (s : State) : Prop := s.jobs.Pairwise (fun a b => a.1 < b.1)

/-- A write of BU_STEP with this code is accepted (R447): the host reaches BAR0, no step runs, the code is NEXT,
and 48 V power stands. -/
def State.buReady (s : State) (code : Nat) : Prop :=
  s.link.up = true ∧ s.bu.result ≠ 1 ∧ s.bu.next = code ∧ code ≠ 0 ∧ s.power.tripped = false ∧ s.power.v48 = true

/-- Step `code` has been accepted and runs, with an outcome to be shown (R447, R449). -/
def State.buRuns (s : State) (code result cause detail : Nat) : Prop :=
  s.bu.result = 1 ∧ s.bu.step = code ∧ s.bu.progress = 0 ∧ s.bu.outcome = (result, cause, detail)

/-- Core `c` runs a VEC task whose program has begun, and `r` is how far it has got (R119, R127). -/
def State.vecAt (s : State) (c : Nat) (r : VecRun) : Prop :=
  ∃ x t, s.running c = some (x, t) ∧ t.kind = 3 ∧ (s.core c).vec.a ≠ [] ∧
    r = ⟨{ x with move := none }, t.vecBody, (s.core c).vec, (s.core c).vec.n⟩

/-- Core `c` runs a section of an update whose program has begun, and `r` is how far it has got (R186). -/
def State.secAt (s : State) (c : Nat) (r : SecRun) : Prop :=
  ∃ x j l i, s.onSection c = some (x, j, l, i) ∧ (s.core c).upd.on = true ∧ s.secRun x j l i = .ok (s, r)

/-- No job has a task, an internal task or a held release that waits for a deque (R132, R139, R187). -/
def State.noneWaits (s : State) : Prop := ∀ e ∈ s.jobs, e.2.walkers = [] ∧ e.2.upds = []

/-! ### What a command may change -/

/-- Commands that write a register of a page, in any chapter (R20, R47, R48). -/
def mayWriteRegs (c : Instr) : Bool :=
  match c with
  | .mbDoorbell .. | .mbDoorbellF .. | .mailboxEnable .. | .mailboxDisable .. | .mbRspCons ..
  | .registerWrite .. | .compatWrite .. | .svcDoorbell .. | .cfgWrite .. | .updStepParams .. | .cvStart ..
  | .cvStop .. | .portEnable .. | .portDisable .. => true
  | _ => false

/-- Commands that answer bytes on a bus of the module. -/
def mayAnswerBus (c : Instr) : Bool :=
  match c with
  | .cxlMemAccess .. | .bar4Access .. | .smbIdent .. | .smbStatus .. | .smbVin .. | .smbPin .. | .smbTjMax ..
  | .smbInlet .. | .smbAlertCause .. | .smbAlertResponse .. | .smbWrite .. | .registerRead .. => true
  | _ => false

/-- Commands that read registers, and with them latch high words (R20). -/
def mayLatch (c : Instr) : Bool :=
  match c with
  | .cfgRead .. | .tripPowerOff .. | .perstAssert .. | .powerLoss .. | .overvoltage .. | .registerRead .. => true
  | _ => false

/-- Commands that may change COMPAT (R56). -/
def mayCompat (c : Instr) : Bool :=
  mayWriteRegs c || match c with
  | .tripPowerOff .. | .perstAssert .. | .perstRelease .. | .powerLoss .. | .overvoltage .. => true
  | _ => false

/-- Commands that may change which physical core a logical core is (R16). -/
def mayRemap (c : Instr) : Bool :=
  mayWriteRegs c || match c with
  | .applyDefects .. | .tripPowerOff .. | .perstAssert .. | .powerLoss .. | .overvoltage .. => true
  | _ => false

/-- Commands that may count a refused register access (R47). -/
def mayCountErr (c : Instr) : Bool :=
  mayWriteRegs c || match c with
  | .cfgRead .. | .tripPowerOff .. | .perstAssert .. | .powerLoss .. | .overvoltage .. | .registerRead .. => true
  | _ => false

/-- Commands that may change the result of the last direct write of a page (R47). -/
def mayWstat (c : Instr) : Bool :=
  mayWriteRegs c || match c with
  | .powerHub .. | .loadFw .. | .powerDies .. | .lockClocks .. | .trainSolder .. | .trainMemory ..
  | .testMemory .. | .testCores .. | .applyDefects .. | .startOptics .. | .startCp .. | .attest ..
  | .tripPowerOff .. | .perstAssert .. | .powerLoss .. | .overvoltage .. => true
  | _ => false

/-- Commands that may change a check-value unit (R438 to R446). -/
def mayCv (c : Instr) : Bool :=
  mayWriteRegs c || match c with
  | .partDestroy .. | .cvAssign .. | .cvScanEnd .. | .tripPowerOff .. | .perstAssert .. | .powerLoss ..
  | .overvoltage .. => true
  | _ => false

/-- Commands that may change what Constantan holds (R370 to R391). -/
def mayCon (c : Instr) : Bool :=
  mayWriteRegs c || match c with
  | .partDestroy .. | .pwCapSet .. | .pwAcctOwn .. | .pwAcctAssign .. | .pwAcctClear .. | .controlInterval ..
  | .powerSample .. | .thermalSample .. | .tripPowerOff .. | .perstAssert .. | .powerLoss ..
  | .overvoltage .. => true
  | _ => false

/-- Commands that may change what a die measures and limits. -/
def mayDie (c : Instr) : Bool :=
  match c with
  | .controlInterval .. | .muxSwitch .. | .railSettle .. | .powerSample .. | .pwrbrkAssert ..
  | .thermalSample .. | .tripPowerOff .. | .memEyeMeasure .. | .memRetrain .. | .freezeEnd ..
  | .slewBudgetUpdate .. | .perstAssert .. | .powerLoss .. | .overvoltage .. => true
  | _ => false

/-- Commands that may change the operating point of a core group. -/
def mayGroup (c : Instr) : Bool :=
  mayWriteRegs c || match c with
  | .svcRegister .. | .svcResume .. | .lockClocks .. | .taskRelease .. | .taskSteal .. | .taskComplete ..
  | .hang .. | .updComplete .. | .periodStart .. | .controlInterval .. | .pllLock .. | .muxSwitch ..
  | .railSettle .. | .switchAbandon .. | .switchRetry .. | .droopDetect .. | .stretchEnd .. | .dutyFrame ..
  | .pwrbrkAssert .. | .pwrbrkRelease .. | .thermalSample .. | .tripPowerOff .. | .freezeEnd ..
  | .droopRecal .. | .perstAssert .. | .powerLoss .. | .overvoltage .. => true
  | _ => false

/-- Commands that may change what Invar holds (R392 to R410). -/
def mayInv (c : Instr) : Bool :=
  mayWriteRegs c || match c with
  | .trainSolder .. | .trainMemory .. | .controlInterval .. | .pwrbrkAssert .. | .thermalSample ..
  | .tripPowerOff .. | .memEyeMeasure .. | .memRetrain .. | .retrainWaitExpire .. | .freezeEnd ..
  | .laneRecal .. | .laneRecalDone .. | .laneFail .. | .droopRecal .. | .perstAssert .. | .powerLoss ..
  | .overvoltage .. | .laneRetire .. => true
  | _ => false

/-- Commands that may change an optical port. -/
def mayPort (c : Instr) : Bool :=
  mayWriteRegs c || match c with
  | .startOptics .. | .tripPowerOff .. | .ringLockLoss .. | .ringRelock .. | .slewBudgetUpdate ..
  | .portUp .. | .linkFault .. | .laneLockLoss .. | .laserLatchRelease .. | .laserFault .. | .perstAssert ..
  | .powerLoss .. | .overvoltage .. => true
  | _ => false

/-- Commands that may change a laser bay. -/
def mayBay (c : Instr) : Bool :=
  mayWriteRegs c || match c with
  | .tripPowerOff .. | .laserTrim .. | .laserLatchRelease .. | .laserLatch .. | .laserFault ..
  | .perstAssert .. | .powerLoss .. | .overvoltage .. => true
  | _ => false

/-- Commands that may change a sync counter (R107, R140). -/
def mayCtr (c : Instr) : Bool :=
  mayWriteRegs c || match c with
  | .hostDmaComplete .. | .jobLoadGraph .. | .jobRestart .. | .syncAdd .. | .syncSet .. | .svcRegister ..
  | .provingRunComplete .. | .svcArm .. | .publishVerified .. | .taskComplete .. | .hang .. | .updComplete ..
  | .layerCommit .. | .collComplete .. | .periodStart .. | .inputCutoff .. | .deadline .. | .writebackDone ..
  | .tripPowerOff .. | .wrStart .. | .xpWrite .. | .xpReadReq .. | .xpReadResp .. | .xpAdd .. | .xpAck ..
  | .xpNak .. | .xpProbe .. | .xpProbeReply .. | .xpCtrl .. | .contextFetch .. | .perstAssert ..
  | .powerLoss .. | .overvoltage .. => true
  | _ => false

/-- Commands that may change an accumulator. -/
def mayAcc (c : Instr) : Bool :=
  mayWriteRegs c || match c with
  | .partCreate .. | .partDestroy .. | .partReconfigure .. | .jobStart .. | .jobRestart .. | .jobFence ..
  | .svcRegister .. | .provingRunComplete .. | .svcResume .. | .taskFetch .. | .taskGemm .. | .taskGemmT ..
  | .taskGemmWg .. | .taskUpd .. | .taskSvc .. | .taskComplete .. | .hang .. | .graphStall ..
  | .stepBoundary .. | .updResume .. | .updComplete .. | .reduceToOwner .. | .bcastFromOwner ..
  | .allGather .. | .reduceScatter .. | .allToAll .. | .ringShift .. | .layerGather ..
  | .collMessageReceive .. | .gatherRequestServe .. | .collComplete .. | .periodStart .. | .inputCutoff ..
  | .deadline .. | .writebackDone .. | .tripPowerOff .. | .wrStart .. | .dataPacketSend .. | .xpWrite ..
  | .xpReadReq .. | .xpReadResp .. | .xpAdd .. | .xpAck .. | .xpNak .. | .xpProbe .. | .xpProbeReply ..
  | .xpCtrl .. | .rtoExpire .. | .contextFetch .. | .peerLost .. | .hostLinkLoss .. | .perstAssert ..
  | .powerLoss .. | .overvoltage .. => true
  | _ => false

/-- Commands that may change a local store (R115). -/
def mayLocal (c : Instr) : Bool :=
  mayWriteRegs c || match c with
  | .partCreate .. | .partDestroy .. | .partReconfigure .. | .provingRunComplete .. | .taskGemm ..
  | .taskGemmT .. | .taskGemmWg .. | .taskVec .. | .taskLoad .. | .taskStore .. | .taskGather ..
  | .taskSvc .. | .vecNop .. | .vecLd .. | .vecSt .. | .vecLdacc .. | .vecBcast .. | .vecMovi .. | .vecAdd ..
  | .vecSub .. | .vecMul .. | .vecFma .. | .vecDiv .. | .vecMax .. | .vecMin .. | .vecAbs .. | .vecSqrt ..
  | .vecRsqrt .. | .vecExp .. | .vecLog .. | .vecTanh .. | .vecSigmoid .. | .vecErf .. | .vecCmplt ..
  | .vecSel .. | .vecRsum .. | .vecRmax .. | .vecCvt .. | .vecQmx .. | .vecAmax .. | .vecEnd ..
  | .sectionTask .. | .updComplete .. | .updNop .. | .updLd .. | .updSt .. | .updAdd .. | .updSub ..
  | .updMul .. | .updFma .. | .updDiv .. | .updSqrt .. | .updRsqrt .. | .updAbs .. | .updSign .. | .updMax ..
  | .updMin .. | .updClamp .. | .updSel .. | .updExp .. | .updLog .. | .updCvt .. | .updSumsq ..
  | .updNorm2 .. | .mstepGram .. | .mstepOrth .. | .mstepInv .. | .mstepIroot .. | .updEnd ..
  | .periodStart .. | .tripPowerOff .. | .perstAssert .. | .powerLoss .. | .overvoltage .. => true
  | _ => false

/-- Commands that may change a loop service. -/
def maySvc (c : Instr) : Bool :=
  mayWriteRegs c || match c with
  | .cfgRead .. | .pewterStop .. | .hostDmaComplete .. | .syncAdd .. | .syncSet .. | .svcRegister ..
  | .provingRunComplete .. | .svcDeregister .. | .svcArm .. | .publish .. | .publishVerified ..
  | .svcResume .. | .taskPop .. | .taskSteal .. | .taskComplete .. | .hang .. | .updComplete ..
  | .layerCommit .. | .collComplete .. | .periodStart .. | .cleanDone .. | .runStart .. | .inputCutoff ..
  | .deadline .. | .writebackDone .. | .svcMissed .. | .pwrbrkAssert .. | .thermalSample ..
  | .tripPowerOff .. | .wrStart .. | .xpWrite .. | .xpReadReq .. | .xpReadResp .. | .xpAdd .. | .xpAck ..
  | .xpNak .. | .xpProbe .. | .xpProbeReply .. | .xpCtrl .. | .contextFetch .. | .perstAssert ..
  | .powerLoss .. | .overvoltage .. | .registerRead .. => true
  | _ => false

/-- Commands that may change the Pewter programs (R308, R309). -/
def mayPewter (c : Instr) : Bool :=
  mayWriteRegs c || match c with
  | .pewterStart .. | .pewterStop .. | .jobStart .. | .jobStop .. | .jobRestart .. | .jobFence ..
  | .svcRegister .. | .svcResume .. | .taskFetch .. | .taskUpd .. | .taskComplete .. | .hang ..
  | .graphStall .. | .stepBoundary .. | .updResume .. | .updComplete .. | .reduceToOwner ..
  | .bcastFromOwner .. | .allGather .. | .reduceScatter .. | .allToAll .. | .ringShift .. | .layerGather ..
  | .collMessageReceive .. | .gatherRequestServe .. | .collComplete .. | .periodStart .. | .inputCutoff ..
  | .deadline .. | .writebackDone .. | .tripPowerOff .. | .wrStart .. | .dataPacketSend .. | .xpWrite ..
  | .xpReadReq .. | .xpReadResp .. | .xpAdd .. | .xpAck .. | .xpNak .. | .xpProbe .. | .xpProbeReply ..
  | .xpCtrl .. | .rtoExpire .. | .contextFetch .. | .peerLost .. | .hostLinkLoss .. | .perstAssert ..
  | .powerLoss .. | .overvoltage .. => true
  | _ => false

/-- Commands that may change the defect list (R459). -/
def mayDefects (c : Instr) : Bool :=
  mayWriteRegs c || match c with
  | .dlRemove .. | .powerHub .. | .trainSolder .. | .testMemory .. | .testCores .. | .tripPowerOff ..
  | .laneRecalDone .. | .laneFail .. | .granuleRetire .. | .perstAssert .. | .powerLoss .. | .overvoltage ..
  | .laneRetire .. => true
  | _ => false

/-- Commands that may change host memory, by a response, an event, a record or data. -/
def mayHostMem (c : Instr) : Bool :=
  match c with
  | .snapshotComplete .. | .snapshotShipTimeout .. | .powerHub .. | .loadFw .. | .powerDies ..
  | .lockClocks .. | .trainSolder .. | .trainMemory .. | .testMemory .. | .testCores .. | .applyDefects ..
  | .startOptics .. | .startCp .. | .bringupStepEnd .. | .bringupTimeout .. | .cvScanEnd .. | .taskRelease ..
  | .taskPop .. | .taskSteal .. | .taskGemm .. | .taskGemmT .. | .taskGemmWg .. | .taskVec .. | .taskLoad ..
  | .taskStore .. | .taskGather .. | .taskColl .. | .taskSvc .. | .vecNop .. | .vecLd .. | .vecSt ..
  | .vecLdacc .. | .vecBcast .. | .vecMovi .. | .vecAdd .. | .vecSub .. | .vecMul .. | .vecFma ..
  | .vecDiv .. | .vecMax .. | .vecMin .. | .vecAbs .. | .vecSqrt .. | .vecRsqrt .. | .vecExp .. | .vecLog ..
  | .vecTanh .. | .vecSigmoid .. | .vecErf .. | .vecCmplt .. | .vecSel .. | .vecRsum .. | .vecRmax ..
  | .vecCvt .. | .vecQmx .. | .vecAmax .. | .vecEnd .. | .sectionTask .. | .updNop .. | .updLd .. | .updSt ..
  | .updAdd .. | .updSub .. | .updMul .. | .updFma .. | .updDiv .. | .updSqrt .. | .updRsqrt .. | .updAbs ..
  | .updSign .. | .updMax .. | .updMin .. | .updClamp .. | .updSel .. | .updExp .. | .updLog .. | .updCvt ..
  | .updSumsq .. | .updNorm2 .. | .mstepGram .. | .mstepOrth .. | .mstepInv .. | .mstepIroot .. | .updEnd ..
  | .layerCommit .. | .cleanDone .. | .runStart .. | .pllLock .. | .muxSwitch .. | .railSettle ..
  | .switchAbandon .. | .switchRetry .. | .droopDetect .. | .stretchEnd .. | .dutyFrame .. | .powerSample ..
  | .pwrbrkAssert .. | .pwrbrkRelease .. | .tripPowerOff .. | .memEyeMeasure .. | .memRetrain ..
  | .retrainWaitExpire .. | .freezeEnd .. | .ringLockLoss .. | .ringRelock .. | .laserTrim ..
  | .slewBudgetUpdate .. | .laneRecal .. | .droopRecal .. | .frameReceive .. | .pfcFrameReceive ..
  | .pfcPauseExpire .. | .pfcRepeat .. | .txFrameStart .. | .txUnderrun .. | .txFrameEnd ..
  | .macIdleBoundary .. | .ackTimer .. | .pathProbe .. | .triggerFire .. | .keepalive .. | .perstRelease ..
  | .hostConfigWrite .. | .cxlMemAccess .. | .bar4Access .. | .powerOn .. | .powerLoss .. | .overvoltage ..
  | .smbIdent .. | .smbStatus .. | .smbVin .. | .smbPin .. | .smbTjMax .. | .smbInlet .. | .smbAlertCause ..
  | .smbAlertResponse .. | .smbWrite .. | .registerRead .. | .hostLinkUp .. | .pcsFaultClear ..
  | .inletAbove35C .. => false
  | _ => true

/-- Commands that may change device memory, by data or by a ring or record that lies there. -/
def mayDevMem (c : Instr) : Bool :=
  match c with
  | .powerHub .. | .loadFw .. | .powerDies .. | .lockClocks .. | .trainSolder .. | .trainMemory ..
  | .testCores .. | .applyDefects .. | .startOptics .. | .startCp .. | .attest .. | .bringupStepEnd ..
  | .bringupTimeout .. | .cvScanEnd .. | .taskRelease .. | .taskPop .. | .taskSteal .. | .taskColl ..
  | .layerCommit .. | .cleanDone .. | .runStart .. | .pllLock .. | .muxSwitch .. | .railSettle ..
  | .switchAbandon .. | .switchRetry .. | .droopDetect .. | .stretchEnd .. | .dutyFrame .. | .powerSample ..
  | .pwrbrkAssert .. | .pwrbrkRelease .. | .memEyeMeasure .. | .memRetrain .. | .retrainWaitExpire ..
  | .freezeEnd .. | .ringLockLoss .. | .ringRelock .. | .laserTrim .. | .slewBudgetUpdate .. | .laneRecal ..
  | .droopRecal .. | .frameReceive .. | .pfcFrameReceive .. | .pfcPauseExpire .. | .pfcRepeat ..
  | .txFrameStart .. | .txUnderrun .. | .txFrameEnd .. | .macIdleBoundary .. | .ackTimer .. | .pathProbe ..
  | .triggerFire .. | .keepalive .. | .perstRelease .. | .hostConfigWrite .. | .powerOn .. | .smbIdent ..
  | .smbStatus .. | .smbVin .. | .smbPin .. | .smbTjMax .. | .smbInlet .. | .smbAlertCause ..
  | .smbAlertResponse .. | .smbWrite .. | .registerRead .. | .hostLinkUp .. | .pcsFaultClear ..
  | .inletAbove35C .. => false
  | _ => true

end Sys2Proof.Machine
end

