-- ==== Sys2Proof/Certificates/Slice0/Obligations.lean ====
section
/-! DEFINITION. The statements for the provers, each a proposition about the machine; OBLIGATIONS.json lists them
with the rules they formalise or rest on. -/

open Sys2Proof Sys2Proof.Machine

/-- Partition commands of the operator (R427, R428, R430, R432): PART_CREATE, PART_DESTROY, PART_MAILBOX,
PART_RECONFIGURE and EVQ_SET complete when their checks pass, with the effect each has on the partition
tables, and no other partition changes. -/
def Obligations.PartitionCommandsComplete : Prop :=
  (∀ (mb : MbId) (s : State) (r : Req) (p groups first count : Nat),
    s.front mb.val 0x0201 5 true r → p = bitsOf (r.w 0) 2 0 → groups = bitsOf (r.w 1) 31 0 →
    first = bitsOf (r.w 2) 2 0 → count = bitsOf (r.w 2) 6 4 + 1 →
    s.part? p = none → first + count ≤ 8 →
    (∀ g ∈ maskBits groups, s.groupOff g = false ∧ s.groupPart g = none) →
    (∀ i, i < count → s.setOwner (first + i) = none) →
    ((r.w 0).testBit 8 = true → 50 ≤ bitsOf (r.w 2) 26 16 ∧ bitsOf (r.w 2) 26 16 ≤ 1500) →
    (∀ x : Partn, x.isolated = (r.w 0).testBit 8 → x.slice = bitsOf (r.w 2) 26 16 →
      x.ports = byteList 8 (r.w 3) → x.bridges = byteList 4 (r.w 4) → s.isoOk p x = true) →
    ∃ (s2 : State) (x : Partn), exec (.partCreate mb) s = .next (s2.reply r stOk []) ∧ s2.part? p = some x ∧
      x.groups = groups ∧ x.setFirst = first ∧ x.setCount = count ∧ x.isolated = (r.w 0).testBit 8 ∧
      (∀ q, q ≠ p → s2.part? q = s.part? q) ∧ s2.jobs = s.jobs ∧ s2.counters = s.counters) ∧
  (∀ (mb : MbId) (s : State) (r : Req) (p : Nat) (x : Partn),
    s.front mb.val 0x0202 1 true r → p = bitsOf (r.w 0) 2 0 → s.part? p = some x →
    (∀ e ∈ s.jobs, e.2.part ≠ p) → (∀ e ∈ s.svcs, e.2.part ≠ p) → (∀ e ∈ s.pewter, e.2.part ≠ p) →
    (∀ e ∈ s.store.loads, e.2.part ≠ some p) → (∀ e ∈ (s.takeReq mb.val).mailboxes, e.2.part ≠ some p) →
    ∃ s2 : State, exec (.partDestroy mb) s = .next (s2.reply r stOk []) ∧ s2.part? p = none ∧
      (∀ e ∈ s2.mem.regions, e.2.part ≠ some p) ∧ (∀ q, q ≠ p → s2.part? q = s.part? q)) ∧
  (∀ (mb : MbId) (s : State) (r : Req) (n p : Nat),
    s.front mb.val 0x0205 1 true r → n = bitsOf (r.w 0) 5 0 → p = bitsOf (r.w 0) 11 8 →
    1 ≤ n → n ≤ 55 → (p = 15 ∨ (p < 8 ∧ (s.part? p).isSome = true)) → (s.mb n).st = .disabled →
    ∃ s2 : State, exec (.partMailbox mb) s = .next (s2.reply r stOk []) ∧
      (s2.mb n).part = (if p = 15 then none else some p) ∧ s2.sec = s.sec ∧ s2.jobs = s.jobs) ∧
  (∀ (mb : MbId) (s : State) (r : Req) (p groups first count : Nat) (x : Partn),
    s.front mb.val 0x0204 1 true r → p = bitsOf (r.w 0) 2 0 → s.part? p = some x →
    groups = (s.pendReg p 0x000).toNat → first = fld (s.pendReg p 0x004) 26 24 →
    count = fld (s.pendReg p 0x004) 22 20 + 1 → first + count ≤ 8 →
    (∀ g ∈ maskBits groups, x.groups.testBit g = true ∨ (s.groupOff g = false ∧ s.groupPart g = none)) →
    (∀ i, i < count → s.setOwner (first + i) = none ∨ s.setOwner (first + i) = some p) →
    (∀ g ∈ maskBits x.groups, groups.testBit g = true ∨
      ((∀ e ∈ s.jobs, e.2.groups.testBit g = false) ∧ s.reserved g = false)) →
    (first ≠ x.setFirst ∨ count ≠ x.setCount → (∀ e ∈ s.jobs, e.2.part ≠ p) ∧ (∀ e ∈ s.svcs, e.2.part ≠ p) ∧
      ∀ e ∈ s.mem.regions, e.2.part ≠ some p) →
    (∀ y : Partn, y.isolated = flag (s.pendReg p 0x004) 30 → y.slice = fld (s.pendReg p 0x004) 10 0 →
      y.ports = byteList 4 (s.pendReg p 0x008).toNat ++ byteList 4 (s.pendReg p 0x00C).toNat →
      y.bridges = byteList 4 (s.pendReg p 0x010).toNat → s.isoOk p y = true) →
    ∃ (s2 : State) (y : Partn), exec (.partReconfigure mb) s = .next (s2.reply r stOk []) ∧ s2.part? p = some y ∧
      y.groups = groups ∧ y.setFirst = first ∧ y.setCount = count ∧
      y.isolated = flag (s.pendReg p 0x004) 30 ∧ y.slice = fld (s.pendReg p 0x004) 10 0 ∧
      (∀ q, q ≠ p → s2.part? q = s.part? q) ∧ (∀ e ∈ s2.pend, keyBlk e.1 ≠ blkNum (.part p))) ∧
  (∀ (mb : MbId) (s : State) (r : Req) (q lg : Nat),
    s.front mb.val 0x0206 2 false r → q = bitsOf (r.w 0) 3 0 → lg = bitsOf (r.w 0) 11 8 →
    (r.scope = none ∨ r.scope = some q) → (q = 15 ∨ (q < 8 ∧ (s.part? q).isSome = true)) → 4 ≤ lg → lg ≤ 12 →
    r.w 1 % 4096 = 0 → s.outBad r (r.w 1) (32 * 2 ^ lg) = none →
    ∃ (s2 : State) (e : EvQueue), exec (.evqSet mb) s = .next (s2.reply r stOk []) ∧ tabFind s2.sec.evqs q = some e ∧
      e.set = true ∧ e.base = r.w 1 ∧ e.log2 = lg ∧ e.prod = 0 ∧ e.vec = bitsOf (r.w 0) 23 16 ∧
      e.intEn = (r.w 0).testBit 24 ∧ s2.rf (evqBlk q).1 (evqBlk q).2 12 0 = 0 ∧ s2.sec.parts = s.sec.parts)

/-- Identity, attestation, keys and job shares (R415 to R418, R424, R425): SEC_IDENTITY, SEC_ATTEST,
SEC_KEY_ENROLL, SEC_KEY_REMOVE, SEC_JOB_SHARE and SEC_JOB_AGREE complete when their checks pass. -/
def Obligations.SecurityCommandsComplete : Prop :=
  (∀ (mb : MbId) (s : State) (r : Req),
    s.front mb.val 0x0210 1 false r → r.w 0 % 64 = 0 → s.outBad r (r.w 0) 256 = none →
    exec (.secIdentity mb) s = .next (((s.takeReq mb.val).r40Write (r.w 0) certificate).reply r stOk [])) ∧
  (∀ (mb : MbId) (s : State) (r : Req) (rep : List Byte),
    s.front mb.val 0x0211 5 false r → rep = s.report r.scope ((upTo 4).flatMap (fun i => natLE 8 (r.w i))) →
    s.outBad r (r.w 4) rep.length = none →
    exec (.secAttest mb) s = .next (((s.takeReq mb.val).r40Write (r.w 4) rep).reply r stOk (natLE 4 rep.length))) ∧
  (∀ (mb : MbId) (s : State) (r : Req) (a : List Byte),
    s.frontArg mb.val 0x0218 0 true r a → 254 ≤ a.length → leAt a 0 4 ≠ 0 → leAt a 0 4 ≠ 0xFFFFFFFF →
    s.enrolAuth a true = stOk → s.sec.keys.length < 16 → (∀ k ∈ s.sec.keys, k.id ≠ leAt a 0 4) →
    ∃ (s2 : State) (k : OpKey), exec (.secKeyEnroll mb) s = .next (s2.reply r stOk []) ∧ s2.sec.keys = s.sec.keys ++ [k] ∧
      k.id = leAt a 0 4 ∧ k.usage = leAt a 4 1 ∧ k.partmask = leAt a 5 1 ∧ k.pub = (a.drop 8).take 57 ∧
      s2.sec.enrolSeq = leAt a 128 8 ∧ s2.sec.parts = s.sec.parts) ∧
  (∀ (mb : MbId) (s : State) (r : Req) (a : List Byte),
    s.frontArg mb.val 0x0219 0 true r a → 254 ≤ a.length → (∃ k ∈ s.sec.keys, k.id = leAt a 0 4) →
    (∃ k ∈ s.sec.keys, k.id ≠ leAt a 0 4 ∧ k.usage.testBit 4 = true) →
    ∃ (s2 : State) (st : Nat), exec (.secKeyRemove mb) s = .next (s2.reply r st []) ∧ s2.sec.parts = s.sec.parts ∧
      (s.enrolAuth a false = stOk → st = stOk ∧ s2.sec.keys = s.sec.keys.filter (fun k => k.id ≠ leAt a 0 4) ∧
        s2.sec.enrolSeq = leAt a 128 8) ∧
      (s.enrolAuth a false ≠ stOk → st = stVerify ∧ s2 = s.takeReq mb.val)) ∧
  (∀ (mb : MbId) (s : State) (r : Req) (j : Nat) (x : Job),
    s.front mb.val 0x0220 7 false r → j = bitsOf (r.w 0) 15 0 → s.job? j = some x →
    (r.scope = none ∨ r.scope = some x.part) → bitsOf (r.w 0) 21 16 ≤ bitsOf (r.w 0) 29 24 →
    bitsOf (r.w 0) 23 22 = 0 → bitsOf (r.w 0) 63 30 = 0 → jobRuns x = false → x.epoch < bitsOf (r.w 1) 31 0 →
    s.outBad r (r.w 6) 512 = none →
    ∃ (s2 : State) (y : Job) (h : Share), exec (.secJobShare mb) s = .next (s2.reply r stOk []) ∧ s2.job? j = some y ∧ y.share = some h ∧
      h.self = bitsOf (r.w 0) 21 16 ∧ h.n = bitsOf (r.w 0) 29 24 + 1 ∧ h.epoch = bitsOf (r.w 1) 31 0 ∧
      y.epoch = x.epoch ∧ y.keys = x.keys ∧ (∀ i, i ≠ j → s2.job? i = s.job? i)) ∧
  (∀ (mb : MbId) (s : State) (r : Req) (a : List Byte) (j : Nat) (x : Job) (h : Share),
    s.frontArg mb.val 0x0221 1 false r a → j = bitsOf (r.w 0) 15 0 → s.job? j = some x →
    (r.scope = none ∨ r.scope = some x.part) → jobRuns x = false → x.share = some h → a.length = h.n * 512 →
    ∃ (s2 : State) (st : Nat) (res : List Byte), exec (.secJobAgree mb) s = .next (s2.reply r st res) ∧ (∀ i, i ≠ j → s2.job? i = s.job? i) ∧
      ((∀ i, i < h.n → shareOk h i ((a.drop (512 * i)).take 512) = true) → st = stOk ∧
        (∃ y : Job, s2.job? j = some y ∧ y.epoch = h.epoch ∧ y.share = none ∧
          y.keys.map (·.1) = (upTo h.n).filter (fun i => i ≠ h.self)) ∧
        (∀ e ∈ s2.xp.qps, e.2.job = j → e.2.key = none ∧ e.2.st ≠ .rts)) ∧
      (∀ i, i < h.n → shareOk h i ((a.drop (512 * i)).take 512) = false →
        (∀ k, k < i → shareOk h k ((a.drop (512 * k)).take 512) = true) →
        st = stVerify ∧ res = natLE 1 i ∧ s2 = s.takeReq mb.val))

/-- Writes to a mailbox's page (R25, R29, R30, R32, R34, R246, R247): MB_DOORBELL, MB_DOORBELL_F, MB_RSP_CONS,
SVC_DOORBELL, MAILBOX_ENABLE and MAILBOX_DISABLE reach the page where its agent reaches it, change it as said,
and change nothing where it does not. -/
def Obligations.MailboxPageWrites : Prop :=
  (∀ (mb : MbId) (svc : SvcId) (v : Word) (s : State), s.pageUp mb.val = false →
    exec (.mbDoorbell mb v) s = .next s ∧ exec (.mbDoorbellF mb v) s = .next s ∧
    exec (.mbRspCons mb v) s = .next s ∧ exec (.svcDoorbell mb svc v) s = .next s ∧
    exec (.mailboxEnable mb v) s = .next s ∧ exec (.mailboxDisable mb v) s = .next s) ∧
  (∀ (mb : MbId) (v : Word) (s t : State), s.pageUp mb.val = true →
    t = (if v.toNat < 128 then s else s.countErr (.mb mb.val)).doorbell mb.val (v.toNat % 128) →
    exec (.mbDoorbell mb v) s = .next (t.noteWrite (.mb mb.val) 0x000 stOk) ∧
    exec (.mbDoorbellF mb v) s = .next (t.noteWrite (.mb mb.val) 0x008 stOk)) ∧
  (∀ (mb : MbId) (v : Word) (s t : State), s.pageUp mb.val = true →
    t = (if v.toNat < 128 then s else s.countErr (.mb mb.val)) →
    exec (.mbRspCons mb v) s = .next (State.noteWrite ((t.setReg (.mb mb.val) 0x028
      (mergeBits (s.reg (.mb mb.val) 0x028) 0x7F v)).rspConsMoved mb.val) (.mb mb.val) 0x028 stOk)) ∧
  (∀ (mb : MbId) (svc : SvcId) (v : Word) (s : State), s.pageUp mb.val = true →
    exec (.svcDoorbell mb svc v) s =
      .next (State.noteWrite (s.svcBell mb.val svc.val v.toNat) (.mb mb.val) (0x100 + 4 * svc.val) stOk)) ∧
  (∀ (mb : MbId) (v : Word) (s : State), s.pageUp mb.val = true → s.link.detached = true → 1 ≤ mb.val → mb.val < 56 →
    exec (.mailboxEnable mb v) s = .next (State.noteWrite (s.countErr (.mb mb.val)) (.mb mb.val) 0x020 stOk)) ∧
  (∀ (mb : MbId) (v : Word) (s : State), s.pageUp mb.val = true → s.link.detached = false →
    flag (s.reg (.mb mb.val) 0x020) 31 = true →
    fld v 30 29 ≠ fld (s.shown (.mb mb.val) 0x020) 30 29 ∨ fld v 23 16 ≠ fld (s.shown (.mb mb.val) 0x020) 23 16 →
    exec (.mailboxEnable mb v) s = .next (State.noteWrite (s.countErr (.mb mb.val)) (.mb mb.val) 0x020 stStatic) ∧
    exec (.mailboxDisable mb v) s = .next (State.noteWrite (s.countErr (.mb mb.val)) (.mb mb.val) 0x020 stStatic)) ∧
  (∀ (mb : MbId) (v : Word) (s : State), s.pageUp mb.val = true →
    (s.link.detached = false ∨ mb.val = 0 ∨ 56 ≤ mb.val) → flag (s.reg (.mb mb.val) 0x020) 31 = false →
    ∃ t : State, exec (.mailboxEnable mb v) s = .next t ∧ (t.mb mb.val).st = .idle ∧ (t.mb mb.val).err = 0 ∧
      (t.mb mb.val).cmdCons = 0 ∧ (t.mb mb.val).prod = 0 ∧ (t.mb mb.val).rspProd = 0 ∧
      (t.mb mb.val).part = (s.mb mb.val).part ∧ t.reg (.mb mb.val) 0x028 = 0 ∧
      flag (t.reg (.mb mb.val) 0x020) 31 = true ∧
      ((s.pending? (.mb mb.val) 0x020).1 = 0 → fld (t.reg (.mb mb.val) 0x020) 23 16 = fld v 23 16) ∧
      (∀ n, n ≠ mb.val → t.mb n = s.mb n) ∧ t.hostMem = s.hostMem ∧ t.devMem = s.devMem ∧ t.jobs = s.jobs) ∧
  (∀ (mb : MbId) (v : Word) (s : State), s.pageUp mb.val = true → flag (s.reg (.mb mb.val) 0x020) 31 = true →
    (∀ e ∈ s.pend, keyBlk e.1 ≠ blkNum (.mb mb.val)) →
    fld v 30 29 = fld (s.shown (.mb mb.val) 0x020) 30 29 → fld v 23 16 = fld (s.shown (.mb mb.val) 0x020) 23 16 →
    ∃ t : State, exec (.mailboxDisable mb v) s = .next t ∧ flag (t.reg (.mb mb.val) 0x020) 31 = false ∧
      ((s.mb mb.val).exec = none → (s.mb mb.val).held = none →
        (t.mb mb.val).st = .disabled ∧ (t.mb mb.val).held = none) ∧
      ((s.mb mb.val).exec ≠ none ∨ (s.mb mb.val).held ≠ none → (t.mb mb.val).st = (s.mb mb.val).st ∧ (t.mb mb.val).closing = true) ∧
      (∀ n, n ≠ mb.val → t.mb n = s.mb n) ∧ t.hostMem = s.hostMem ∧ t.devMem = s.devMem ∧ t.jobs = s.jobs)

/-- R30. A doorbell value is taken where it is in range, and puts the mailbox in ERROR with cause 1 where it is not;
in ERROR the mailbox takes no request and no doorbell, and a response leaves it in ERROR; only clearing ENABLE and
setting it again ends that. A command ring whose read fails, and a response ring whose write fails, put it in
ERROR with causes 2 and 3. -/
def Obligations.DoorbellIndexRule : Prop :=
  (∀ (s : State) (n v : Nat), (s.mb n).st ≠ .disabled → (s.mb n).st ≠ .error → (s.mb n).closing = false →
    ((v + 128 - (s.mb n).cmdCons) % 128 ≤ 64 →
      ((s.mb n).prod + 128 - (s.mb n).cmdCons) % 128 ≤ (v + 128 - (s.mb n).cmdCons) % 128 →
      s.doorbell n v = (s.setMb n { s.mb n with prod := v }).drain n 64) ∧
    (64 < (v + 128 - (s.mb n).cmdCons) % 128 ∨
      (v + 128 - (s.mb n).cmdCons) % 128 < ((s.mb n).prod + 128 - (s.mb n).cmdCons) % 128 →
      s.doorbell n v = s.setMb n { s.mb n with st := .error, err := 1 })) ∧
  (∀ (s : State) (n v : Nat), (s.mb n).st = .error → s.mbReady n = false ∧ s.doorbell n v = s) ∧
  (∀ (s : State) (n tag status : Nat) (noint : Bool) (res : List Byte), (s.mb n).st = .error →
    (s.mb n).closing = false → s.link.up = true → ((s.respond n tag noint status res).mb n).st = .error) ∧
  (∀ (s : State) (n : Nat), (s.mb n).st = .error → (s.mb n).exec = none → (s.mb n).held = none →
    ((s.mbDisable n).mb n).st = .disabled ∧ ((s.mbDisable n).mbEnable n).mb n =
      { s.mb n with st := .idle, err := 0, cmdCons := 0, prod := 0, rspProd := 0, closing := false }) ∧
  (∀ (s : State) (mb op : Nat) (rule : LenRule) (f : State → Req → CmdOut), s.mbReady mb = true →
    s.readSlot mb = none → runCmd s mb op rule false f = (s.slotFail mb).setMb mb { s.mb mb with st := .error, err := 2 }) ∧
  (∀ (s : State) (mb tag status : Nat) (noint : Bool) (res : List Byte),
    (s.mb mb).st ≠ .disabled → s.rspFull mb = false → flag (s.reg (.mb mb) 0x020) 29 = true →
    s.ringOk mb (s.ringBase mb 0x018 + 64 * ((s.mb mb).rspProd % 64)) 64 = false → (s.mb mb).closing = false →
    ((s.respond mb tag noint status res).mb mb).st = .error ∧ ((s.respond mb tag noint status res).mb mb).err = 3 ∧
    (s.respond mb tag noint status res).devMem = s.devMem)

/-- REGISTER_READ, REGISTER_WRITE and COMPAT_WRITE (R8, R10, R20, R47, R56, R57, R291): an access that no BAR
holds stops as the model's fault noSuchRegister; the others complete. -/
def Obligations.RegisterAccess : Prop :=
  (∀ (bar off : Nat) (v : Word) (s : State), barHas bar off = false →
    exec (.registerRead bar off) s = .fault .noSuchRegister ∧
    exec (.registerWrite bar off v) s = .fault .noSuchRegister) ∧
  (∀ (bar off : Nat) (v : Word) (s : State), barHas bar off = true → s.barUp bar = false →
    exec (.registerRead bar off) s = .next { s with busOut := [] } ∧ exec (.registerWrite bar off v) s = .next s ∧
    (s.link.up = false → exec (.compatWrite v) s = .next s)) ∧
  (∀ (bar off o : Nat) (b : Blk) (s : State), barHas bar off = true → s.barUp bar = true → barReg bar off = some (b, o) →
    ∃ t : State, exec (.registerRead bar off) s = .next t ∧
      (isHighWord b o = false → t.busOut = natLE 4 (s.shown b o).toNat) ∧
      (isHighWord b o = true → t.busOut = natLE 4 (tabGet (0 : Word) s.snap (regKey b o)).toNat) ∧
      (isLowWord b o = true → isHighWord b o = false → tabGet (0 : Word) t.snap (regKey b (o + 4)) = s.active b (o + 4)) ∧
      t.cfg = s.cfg ∧ t.hostMem = s.hostMem ∧ t.devMem = s.devMem ∧ t.mailboxes = s.mailboxes) ∧
  (∀ (bar off o : Nat) (b : Blk) (v : Word) (s : State), barHas bar off = true → s.barUp bar = true →
    barReg bar off = some (b, o) → (∀ n, b = .mb n → n < 56) →
    ∃ t : State, exec (.registerWrite bar off v) s = .next t ∧
      (writableMask b o = 0 →
        t.cfg = s.cfg ∧ t.pend = s.pend ∧ t.mailboxes = s.mailboxes ∧ t.hostMem = s.hostMem ∧ t.devMem = s.devMem ∧
        tabGet 0 t.errcnt (blkPage b) = min 0xFFFF (tabGet 0 s.errcnt (blkPage b) + 1))) ∧
  (∀ (off o : Nat) (n : Nat) (v : Word) (s : State), barHas 2 off = true → s.barUp 2 = true →
    barReg 2 off = some (.mb n, o) → 56 ≤ n →
    exec (.registerWrite 2 off v) s = .next (State.noteWrite (s.countErr (.mb n)) (.mb n) o stOk)) ∧
  (∀ (bar off : Nat) (v : Word) (s : State), barHas bar off = true → s.barUp bar = true → barReg bar off = none →
    ∃ t : State, exec (.registerWrite bar off v) s = .next t ∧ t.cfg = s.cfg ∧ t.pend = s.pend ∧
      (∀ k, k ≠ off - 0x60000 → tabGet (0 : Word) t.link.msixTab k = tabGet (0 : Word) s.link.msixTab k) ∧
      (bar = 2 → 0x60000 ≤ off → off < 0x61000 → tabGet (0 : Word) t.link.msixTab (off - 0x60000) = v)) ∧
  (∀ (v : Word) (s : State), s.link.up = true → s.compatOk = true → s.pending? .bu 0x100 = (0, 0) →
    ∃ t : State, exec (.compatWrite v) s = .next t ∧ t.compat = v.setWidth 4 ∧ t.jobs = s.jobs ∧ t.hostMem = s.hostMem ∧
      (v.getLsbD 2 ≠ s.compat.getLsbD 2 → (t.mb 0).cmdCons = 0 ∧ (t.mb 0).prod = 0 ∧ (t.mb 0).rspProd = 0) ∧
      (v.getLsbD 2 = s.compat.getLsbD 2 → t.mailboxes = s.mailboxes)) ∧
  (∀ (v : Word) (s : State), s.link.up = true → s.compatOk = false →
    ∃ t : State, exec (.compatWrite v) s = .next t ∧ t.compat = s.compat ∧ t.mailboxes = s.mailboxes ∧
      tabGet (0, 0) t.wstat (blkPage .bu) = (0x100, stStatic))

/-- R45, R49 and R50 on a write of named bits, and R51 on the boundary at which pending bits apply: a block that
does not run takes S, L and B bits at once; a running block takes S and L bits and keeps B bits pending. -/
def Obligations.FieldClassesOnWrite : Prop :=
  (∀ (s : State) (b : Blk) (off : Nat) (mask v : Word), s.runs b = false →
    (s.applyWrite b off mask v).reg b off =
      mergeBits (s.reg b off) (mask &&& (clsMask b off .s ||| clsMask b off .l ||| clsMask b off .b)) v ∧
    (s.applyWrite b off mask v).pend = s.pend) ∧
  (∀ (s : State) (b : Blk) (off : Nat) (mask v : Word), s.runs b = true →
    (s.applyWrite b off mask v).reg b off =
      mergeBits (s.reg b off) (mask &&& (clsMask b off .s ||| clsMask b off .l)) v ∧
    (s.applyWrite b off mask v).pending? b off =
      ((s.pending? b off).1 ||| (mask &&& clsMask b off .b),
       mergeBits (s.pending? b off).2 (mask &&& clsMask b off .b) v)) ∧
  (∀ (s : State) (b : Blk) (off : Nat) (mask v : Word) (b2 : Blk) (o2 : Nat), regKey b2 o2 ≠ regKey b off →
    (s.applyWrite b off mask v).reg b2 o2 = s.reg b2 o2 ∧
    (s.applyWrite b off mask v).pending? b2 o2 = s.pending? b2 o2 ∧
    (s.applyWrite b off mask v).mailboxes = s.mailboxes ∧ (s.applyWrite b off mask v).hostMem = s.hostMem) ∧
  (∀ (s : State) (b : Blk) (off : Nat) (mask v : Word), off < 65536 → s.pend = [(regKey b off, (mask, v))] →
    (s.boundary b).reg b off = mergeBits (s.reg b off) mask v ∧ (s.boundary b).pend = [] ∧
    (s.boundary b).mailboxes = s.mailboxes)

/-- CFG_WRITE, CFG_READ and UPD_STEP_PARAMS (R44 to R46, R49, R50, R196): a CFG_WRITE is done entirely or not
at all; CFG_READ answers the active value, the shown value, the pending mask and the boundary; a step size
takes effect at once for a job that does not run and is pending for one that does. -/
def Obligations.ConfigurationCommands : Prop :=
  (∀ (mb : MbId) (s : State) (r q : Req) (es : List CfgEntry) (rows : List CfgRow) (s2 : State) (st seq : Nat),
    s.atFront mb.val 0x0110 .cfg false r → s.withArg mb.val r q → cfgEntries q = some es →
    (s.takeReq mb.val).cfgParse r.scope es = .ok rows → (∀ x ∈ rows, x.blk ≠ .mb mb.val) →
    (s.takeReq mb.val).cfgDo rows = .ok (s2, st, seq) →
    exec (.cfgWrite mb) s = .next (s2.reply r st (natLE 8 seq))) ∧
  (∀ (mb : MbId) (s : State) (r q : Req) (es : List CfgEntry) (rows : List CfgRow) (e : Nat),
    s.atFront mb.val 0x0110 .cfg false r → s.withArg mb.val r q → cfgEntries q = some es →
    (s.takeReq mb.val).cfgParse r.scope es = .ok rows → (∀ x ∈ rows, x.blk ≠ .mb mb.val) →
    (s.takeReq mb.val).cfgDo rows = .error e → e < 65536 →
    ∃ s2 : State, exec (.cfgWrite mb) s = .next (s2.reply r e []) ∧ s2.cfg = s.cfg ∧ s2.pend = s.pend ∧
      s2.bseq = s.bseq ∧ s2.jobs = s.jobs ∧ s2.devMem = s.devMem) ∧
  (∀ (s : State) (b : Blk) (off : Nat) (mask v : Word),
    s.regIgnored b off mask v = false → writableMask b off ≠ 0 → mask &&& v &&& ~~~(anyMask b off) = 0 →
    s.rowCheck s ⟨b, off, mask, v⟩ = stOk →
    s.cfgDo [⟨b, off, mask, v⟩] = .ok (s.regApply b off (mask &&& writableMask b off) v, stOk, 0)) ∧
  (∀ (mb : MbId) (s : State) (r : Req) (b : Blk) (off : Nat),
    s.front mb.val 0x0111 1 false r → (s.takeReq mb.val).cfgTarget r.scope (r.w 0) false = .ok (b, off) →
    isHighWord b off = false →
    ∃ s2 : State, exec (.cfgRead mb) s = .next (s2.reply r stOk
        (natLE 4 ((s.takeReq mb.val).active b off).toNat ++ natLE 4 ((s.takeReq mb.val).shown b off).toNat ++
         natLE 4 (s.pending? b off).1.toNat ++ zeros 4 ++
         natLE 8 (if (s.pending? b off).1 = 0 then 0 else (s.takeReq mb.val).targetSeq b))) ∧
      s2.cfg = s.cfg ∧ s2.pend = s.pend ∧ s2.bseq = s.bseq ∧ s2.devMem = s.devMem ∧ s2.hostMem = s.hostMem) ∧
  (∀ (mb : MbId) (s : State) (r : Req) (b : Blk) (off : Nat),
    s.front mb.val 0x0111 1 false r → (s.takeReq mb.val).cfgTarget r.scope (r.w 0) false = .ok (b, off) →
    isHighWord b off = true →
    exec (.cfgRead mb) s = .next ((s.takeReq mb.val).reply r stOk
      (natLE 4 (tabGet (0 : Word) s.snap (regKey b off)).toNat ++ natLE 4 (tabGet (0 : Word) s.snap (regKey b off)).toNat ++
       natLE 4 (s.pending? b off).1.toNat ++ zeros 4 ++
       natLE 8 (if (s.pending? b off).1 = 0 then 0 else (s.takeReq mb.val).targetSeq b)))) ∧
  (∀ (mb : MbId) (s : State) (r : Req) (j : Nat) (x : Job) (v : Word),
    s.front mb.val 0x0501 1 false r → j = bitsOf (r.w 0) 15 0 → bitsOf (r.w 0) 31 16 = 0 →
    v = BitVec.ofNat 32 (r.w 0 / 2 ^ 32) → fld v 30 23 ≠ 255 → s.job? j = some x →
    (r.scope = none ∨ r.scope = some x.part) →
    ∃ s2 : State, exec (.updStepParams mb) s = .next (s2.reply r (if jobRuns x then stPending else stOk)
        (natLE 8 (if jobRuns x then s.nextBoundary (.job j) else 0))) ∧
      (jobRuns x = true → s2.pending? (.job j) 0x020 = (0xFFFFFFFF, v) ∧ s2.cfg = s.cfg ∧ s2.jobs = s.jobs) ∧
      (jobRuns x = false → s2.reg (.job j) 0x020 = v ∧ s2.pend = s.pend ∧ (∀ i, i ≠ j → s2.job? i = s.job? i)) ∧
      (∀ (b : Blk) (o : Nat), regKey b o ≠ regKey (.job j) 0x020 → s2.reg b o = s.reg b o) ∧
      s2.devMem = s.devMem ∧ s2.hostMem = s.hostMem)

/-- The check-value channels (R439, R440, R442, R443, R445, R446): CV_START, CV_STOP, CV_SCAN_END and CV_ASSIGN. -/
def Obligations.CheckValueCommands : Prop :=
  (∀ (ch : CvId) (v : Word) (s : State), s.barUp 2 = false →
    exec (.cvStart ch v) s = .next s ∧ exec (.cvStop ch v) s = .next s) ∧
  (∀ (ch : CvId) (v : Word) (s : State), s.barUp 2 = true → 8 ≤ ch.val →
    exec (.cvStart ch v) s = .next (State.noteWrite (s.countErr (.cv ch.val)) (.cv ch.val) 0 stOk) ∧
    exec (.cvStop ch v) s = .next (State.noteWrite (s.countErr (.cv ch.val)) (.cv ch.val) 0 stOk)) ∧
  (∀ (ch : CvId) (v : Word) (s : State), s.barUp 2 = true → ch.val < 8 → (s.cv ch.val).st ≠ 1 →
    fld v 27 26 ≠ 3 → (s.pending? (.cv ch.val) 0).1 = 0 →
    ∃ s1 : State, exec (.cvStart ch v) s = .next (State.noteWrite (s1.cvBegin ch.val) (.cv ch.val) 0 stOk) ∧
      flag (s1.reg (.cv ch.val) 0) 29 = flag v 29 ∧ flag (s1.reg (.cv ch.val) 0) 28 = flag v 28 ∧
      fld (s1.reg (.cv ch.val) 0) 27 26 = fld v 27 26 ∧ fld (s1.reg (.cv ch.val) 0) 23 16 = fld v 23 16 ∧
      (∀ (b : Blk) (o : Nat), regKey b o ≠ regKey (.cv ch.val) 0 → s1.reg b o = s.reg b o) ∧
      s1.cvs = s.cvs ∧ s1.devMem = s.devMem ∧ s1.hostMem = s.hostMem ∧ s1.mem = s.mem) ∧
  (∀ (ch : CvId) (v : Word) (s : State), s.barUp 2 = true → ch.val < 8 → (s.cv ch.val).st = 1 →
    fld v 27 26 ≠ 3 → (s.pending? (.cv ch.val) 0).1 = 0 →
    flag v 29 = flag (s.reg (.cv ch.val) 0) 29 → fld v 27 26 = fld (s.reg (.cv ch.val) 0) 27 26 →
    fld v 23 16 = fld (s.reg (.cv ch.val) 0) 23 16 →
    ∃ s1 : State, exec (.cvStop ch v) s = .next (State.noteWrite (s1.cvHalt ch.val) (.cv ch.val) 0 stOk) ∧
      flag (s1.reg (.cv ch.val) 0) 28 = flag v 28 ∧
      (∀ (b : Blk) (o : Nat), regKey b o ≠ regKey (.cv ch.val) 0 → s1.reg b o = s.reg b o) ∧
      s1.cvs = s.cvs ∧ s1.devMem = s.devMem ∧ s1.hostMem = s.hostMem ∧ s1.mem = s.mem) ∧
  (∀ (ch : CvId) (v : Word) (s : State), s.barUp 2 = true → ch.val < 8 →
    ((s.cv ch.val).st = 1 → ∃ t : State, exec (.cvStart ch v) s = .next t ∧ t.cvs = s.cvs ∧ t.devMem = s.devMem) ∧
    ((s.cv ch.val).st ≠ 1 → ∃ t : State, exec (.cvStop ch v) s = .next t ∧ t.cvs = s.cvs ∧ t.devMem = s.devMem)) ∧
  (∀ (s : State) (c : Nat), s.cvPair c 0x010 ≠ 0 →
    s.cvBegin c = s.setCv c { s.cv c with st := 1, err := 0, done := 0, compat := s.compat.getLsbD 0 }) ∧
  (∀ (ch : CvId) (s : State), (s.cv ch.val).st ≠ 1 → exec (.cvScanEnd ch) s = .next s) ∧
  (∀ (ch : CvId) (s : State) (ctrl : Word) (alg a len run : Nat), (s.cv ch.val).st = 1 → ctrl = s.reg (.cv ch.val) 0 →
    alg = fld ctrl 27 26 → a = s.cvPair ch.val 0x008 → len = s.cvPair ch.val 0x010 →
    s.scanFit (s.cv ch.val).part 16 a len = len → beforeBad s.mem.badLines a len = len →
    run = crcRun alg (if flag ctrl 29 then (if alg = 2 then s.cvPair ch.val 0x018 else s.cvPair ch.val 0x018 % 2 ^ 32)
      else crcInit alg) (s.devMem.readN a len) →
    ∃ t : State, exec (.cvScanEnd ch) s = .next t ∧ (t.cv ch.val).st = 3 ∧ (t.cv ch.val).err = 0 ∧
      (t.cv ch.val).done = len ∧ (t.cv ch.val).result = crcOut alg run ∧ (t.cv ch.val).undef = none ∧
      ((t.cv ch.val).mismatch = true ↔ ((s.cv ch.val).mismatch = true ∨ ((s.cv ch.val).compat = true ∧ ch.val < 8 ∧
        crcOut alg run ≠ (if alg = 2 then s.cvPair ch.val 0x028 else s.cvPair ch.val 0x028 % 2 ^ 32)))) ∧
      (∀ c, c ≠ ch.val → t.cv c = s.cv c) ∧ t.devMem = s.devMem ∧ t.mem = s.mem ∧ t.jobs = s.jobs) ∧
  (∀ (ch : CvId) (s : State) (a len fit n : Nat), (s.cv ch.val).st = 1 → a = s.cvPair ch.val 0x008 →
    len = s.cvPair ch.val 0x010 → fit = s.scanFit (s.cv ch.val).part 16 a len → n = beforeBad s.mem.badLines a fit →
    n < len →
    ∃ t : State, exec (.cvScanEnd ch) s = .next t ∧ (t.cv ch.val).st = 3 ∧ (t.cv ch.val).done = n ∧
      (t.cv ch.val).err = (if n < fit then 2 else 1) ∧ (∀ c, c ≠ ch.val → t.cv c = s.cv c) ∧
      t.devMem = s.devMem ∧ t.jobs = s.jobs) ∧
  (∀ (mb : MbId) (s : State) (r : Req) (c p : Nat), s.front mb.val 0x0901 1 true r → c = bitsOf (r.w 0) 3 0 →
    p = bitsOf (r.w 0) 11 8 → c < 8 → (p = 15 ∨ (s.part? p).isSome = true) → (s.cv c).st ≠ 1 → (s.cv c).st ≠ 2 →
    ∃ s2 : State, exec (.cvAssign mb) s = .next (s2.reply r stOk []) ∧
      (s2.cv c).part = (if p = 15 then none else some p) ∧
      ((s.cv c).part ≠ (if p = 15 then none else some p) → (s2.cv c).st = 0 ∧ (s2.cv c).mismatch = false ∧
        ∀ o, o < 0x1000 → s2.reg (.cv c) o = regReset (.cv c) o) ∧
      (∀ d, d ≠ c → s2.cv d = s.cv d) ∧ s2.devMem = s.devMem ∧ s2.sec = s.sec)

/-- PORT_ENABLE and PORT_DISABLE (R318, R324, R338, R492): MAC_CTRL's ENABLE lights the bay of a port that may
run and ends the service of one that runs. -/
def Obligations.PortSwitch : Prop :=
  (∀ (sub : SubId) (v : Word) (s : State), s.barUp 2 = false →
    exec (.portEnable sub v) s = .next s ∧ exec (.portDisable sub v) s = .next s) ∧
  (∀ (sub : SubId) (v : Word) (s : State), s.barUp 2 = true → flag (s.reg (.sub sub.val) 0x800) 31 = false →
    (s.sub sub.val).barred = false → s.subExists sub.val = true → (s.pending? (.sub sub.val) 0x800).1 = 0 →
    1518 ≤ fld v 13 0 → fld v 13 0 ≤ 9216 →
    ∃ s1 : State, exec (.portEnable sub v) s = .next (State.noteWrite (s1.relight (sub.val / 4)) (.sub sub.val)
        (macCtrlOff sub.val % 0x1000) stOk) ∧
      flag (s1.reg (.sub sub.val) 0x800) 31 = true ∧ fld (s1.reg (.sub sub.val) 0x800) 13 0 = fld v 13 0 ∧
      fld (s1.reg (.sub sub.val) 0x800) 30 28 = fld v 30 28 ∧ fld (s1.reg (.sub sub.val) 0x800) 23 16 = fld v 23 16 ∧
      (∀ (b : Blk) (o : Nat), regKey b o ≠ regKey (.sub sub.val) 0x800 → s1.reg b o = s.reg b o) ∧
      s1.subs = s.subs ∧ s1.bays = s.bays ∧ s1.power = s.power ∧
      ((s1.relight (sub.val / 4)).bay (sub.val / 4)).lit =
        ((s.bay (sub.val / 4)).present && (s.bay (sub.val / 4)).latched && (s.bay (sub.val / 4)).genuine &&
          !(s.bay (sub.val / 4)).faulted && s.power.hub)) ∧
  (∀ (sub : SubId) (v : Word) (s : State), s.barUp 2 = true → flag (s.reg (.sub sub.val) 0x800) 31 = false →
    (s.sub sub.val).barred = true ∨ s.subExists sub.val = false → (s.pending? (.sub sub.val) 0x800).1 = 0 →
    1518 ≤ fld v 13 0 → fld v 13 0 ≤ 9216 →
    ∃ s1 : State, exec (.portEnable sub v) s = .next (State.noteWrite s1 (.sub sub.val) (macCtrlOff sub.val % 0x1000) stWrong) ∧
      s1.cfg = s.cfg ∧ s1.subs = s.subs ∧ s1.bays = s.bays ∧ s1.ports = s.ports) ∧
  (∀ (sub : SubId) (v : Word) (s : State), s.barUp 2 = true → flag (s.reg (.sub sub.val) 0x800) 31 = true →
    fld v 23 16 = fld (s.shown (.sub sub.val) 0x800) 23 16 → 1518 ≤ fld v 13 0 → fld v 13 0 ≤ 9216 →
    ∃ (s1 : State) (st : Nat), exec (.portDisable sub v) s = .next (State.noteWrite (s1.portOff sub.val) (.sub sub.val)
        (macCtrlOff sub.val % 0x1000) st) ∧ (st = stOk ∨ st = stPending) ∧
      flag (s1.reg (.sub sub.val) 0x800) 31 = false ∧ s1.subs = s.subs ∧ s1.bays = s.bays ∧ s1.ports = s.ports ∧
      (∀ (b : Blk) (o : Nat), regKey b o ≠ regKey (.sub sub.val) 0x800 → s1.reg b o = s.reg b o))

/-- The life of a job (R146, R477): JOB_LOAD_GRAPH, JOB_START, JOB_STOP, JOB_UNLOAD, JOB_RESTART, JOB_FENCE and
JOB_FAULT_INFO complete when the job is in the state they ask for. -/
def Obligations.JobLife : Prop :=
  (∀ (mb : MbId) (s : State) (r : Req) (j : Nat) (x : Job),
    s.front mb.val 0x0401 3 false r → (s.takeReq mb.val).loadGraph r = .ok (j, x) →
    ∃ s2 : State, exec (.jobLoadGraph mb) s = .next (s2.reply r stOk (natLE 2 j ++ zeros 2 ++ natLE 4 x.ctrBase)) ∧
      j < 16 ∧ s.job? j = none ∧ (∀ i, i < j → s.job? i ≠ none) ∧ s2.job? j = some x ∧ x.st = .loaded ∧
      (∀ i, i ≠ j → s2.job? i = s.job? i) ∧ (∀ o, o < 65536 → s2.reg (.job j) o = regReset (.job j) o) ∧
      (∀ k, k < x.inits.length → s2.ctr (x.ctrBase + k) = BitVec.ofNat 64 (x.inits.getD k 0)) ∧
      (∀ c, c < x.ctrBase ∨ x.ctrBase + x.inits.length ≤ c → s2.ctr c = s.ctr c) ∧
      s2.devMem = s.devMem ∧ s2.hostMem = s.hostMem) ∧
  (∀ (mb : MbId) (s : State) (r : Req) (j : Nat) (x : Job),
    s.front mb.val 0x0402 1 false r → s.ownJob r j x → x.st = .loaded → (s.takeReq mb.val).startCheck x = stOk →
    exec (.jobStart mb) s = .next (((s.takeReq mb.val).startJob j x false).reply r stOk [])) ∧
  (∀ (mb : MbId) (s : State) (r : Req) (j : Nat) (x : Job),
    s.front mb.val 0x0405 1 false r → s.ownJob r j x → x.st = .fenced →
    (x.fault.map (fun f => f.epoch)).getD 0 < x.epoch → (s.takeReq mb.val).startCheck x = stOk →
    exec (.jobRestart mb) s = .next ((((s.takeReq mb.val).initCtrs x).startJob j x true).reply r stOk [])) ∧
  (∀ (mb : MbId) (s : State) (r : Req) (j : Nat) (x : Job) (s1 : State),
    s.front mb.val 0x0403 1 false r → s.ownJob r j x → x.st = .running → s1 = (s.takeReq mb.val).stopJob j x →
    ((∃ y, s1.job? j = some y ∧ y.st = .stopping) → exec (.jobStop mb) s = .next (s1.waits r j 0)) ∧
    ((∀ y, s1.job? j = some y → y.st ≠ .stopping) → exec (.jobStop mb) s = .next (s1.reply r stOk []))) ∧
  (∀ (mb : MbId) (s : State) (r : Req) (j : Nat) (x : Job),
    s.front mb.val 0x0404 1 false r → s.ownJob r j x → jobRuns x = false →
    ∃ s2 : State, exec (.jobUnload mb) s = .next (s2.reply r stOk []) ∧ s2.job? j = none ∧
      (∀ i, i ≠ j → s2.job? i = s.job? i) ∧ (∀ o, o < 65536 → s2.reg (.job j) o = regReset (.job j) o) ∧
      (∀ e ∈ s2.xp.qps, e.2.job ≠ j) ∧ (∀ e ∈ s2.xp.regions, e.2.job = j → e.2.valid = false) ∧
      s2.counters = s.counters ∧ s2.sec = s.sec) ∧
  (∀ (mb : MbId) (s : State) (r : Req) (j : Nat) (x : Job),
    s.front mb.val 0x0406 1 false r → s.ownJob r j x → jobRuns x = true →
    exec (.jobFence mb) s = .next (((s.takeReq mb.val).fence j 0x0D 0 0 0 0).reply r stOk [])) ∧
  (∀ (mb : MbId) (s : State) (r : Req) (j : Nat) (x : Job) (f : FaultInfo),
    s.front mb.val 0x0407 1 false r → s.ownJob r j x → x.st = .fenced → x.fault = some f →
    exec (.jobFaultInfo mb) s = .next ((s.takeReq mb.val).reply r stOk
      (natLE 1 f.cause ++ natLE 1 f.origin ++ natLE 1 f.originCause ++ zeros 1 ++ natLE 4 f.epoch ++ natLE 8 f.step ++
       natLE 8 f.tick ++ natLE 4 f.more ++ natLE 2 f.tstatus ++ natLE 2 f.core)))

/-- What a job command answers when it may not act (R43, R146, R477): BAD_ARGUMENT for no such job,
NOT_PERMITTED for another partition's, WRONG_STATE for a job in another state; nothing else changes. -/
def Obligations.JobCommandRefusals : Prop :=
  (∀ (mb : MbId) (s : State) (r : Req), s.job? (bitsOf (r.w 0) 15 0) = none →
    (s.front mb.val 0x0402 1 false r → exec (.jobStart mb) s = .next ((s.takeReq mb.val).reply r stBadArg [])) ∧
    (s.front mb.val 0x0403 1 false r → exec (.jobStop mb) s = .next ((s.takeReq mb.val).reply r stBadArg [])) ∧
    (s.front mb.val 0x0404 1 false r → exec (.jobUnload mb) s = .next ((s.takeReq mb.val).reply r stBadArg [])) ∧
    (s.front mb.val 0x0405 1 false r → exec (.jobRestart mb) s = .next ((s.takeReq mb.val).reply r stBadArg [])) ∧
    (s.front mb.val 0x0406 1 false r → exec (.jobFence mb) s = .next ((s.takeReq mb.val).reply r stBadArg [])) ∧
    (s.front mb.val 0x0407 1 false r → exec (.jobFaultInfo mb) s = .next ((s.takeReq mb.val).reply r stBadArg []))) ∧
  (∀ (mb : MbId) (s : State) (r : Req) (x : Job) (p : Nat), s.job? (bitsOf (r.w 0) 15 0) = some x →
    r.scope = some p → p ≠ x.part →
    (s.front mb.val 0x0402 1 false r → exec (.jobStart mb) s = .next ((s.takeReq mb.val).reply r stNotPerm [])) ∧
    (s.front mb.val 0x0403 1 false r → exec (.jobStop mb) s = .next ((s.takeReq mb.val).reply r stNotPerm [])) ∧
    (s.front mb.val 0x0404 1 false r → exec (.jobUnload mb) s = .next ((s.takeReq mb.val).reply r stNotPerm [])) ∧
    (s.front mb.val 0x0405 1 false r → exec (.jobRestart mb) s = .next ((s.takeReq mb.val).reply r stNotPerm [])) ∧
    (s.front mb.val 0x0406 1 false r → exec (.jobFence mb) s = .next ((s.takeReq mb.val).reply r stNotPerm [])) ∧
    (s.front mb.val 0x0407 1 false r → exec (.jobFaultInfo mb) s = .next ((s.takeReq mb.val).reply r stNotPerm []))) ∧
  (∀ (mb : MbId) (s : State) (r : Req) (j : Nat) (x : Job), s.ownJob r j x →
    (s.front mb.val 0x0402 1 false r → x.st ≠ .loaded →
      exec (.jobStart mb) s = .next ((s.takeReq mb.val).reply r stWrong [])) ∧
    (s.front mb.val 0x0403 1 false r → x.st ≠ .running →
      exec (.jobStop mb) s = .next ((s.takeReq mb.val).reply r stWrong [])) ∧
    (s.front mb.val 0x0404 1 false r → jobRuns x = true →
      exec (.jobUnload mb) s = .next ((s.takeReq mb.val).reply r stWrong [])) ∧
    (s.front mb.val 0x0405 1 false r → x.st ≠ .fenced →
      exec (.jobRestart mb) s = .next ((s.takeReq mb.val).reply r stWrong [])) ∧
    (s.front mb.val 0x0406 1 false r → jobRuns x = false →
      exec (.jobFence mb) s = .next ((s.takeReq mb.val).reply r stWrong [])) ∧
    (s.front mb.val 0x0407 1 false r → x.st ≠ .fenced →
      exec (.jobFaultInfo mb) s = .next ((s.takeReq mb.val).reply r stWrong [])))

/-- What fencing a job leaves (R467, R468, R470): a running job becomes FENCED with the first cause, its epoch,
its step and the tick, and runs no task; a fenced one only counts a further cause; another one is not touched. -/
def Obligations.FenceEffect : Prop :=
  (∀ (s : State) (j cause org oc ts core : Nat) (x y : Job), s.job? j = some x → jobRuns x = true → cause ≠ 0x0C →
    s.jobs.Pairwise (fun a b => a.1 < b.1) →
    (s.fence j cause org oc ts core).job? j = some y →
    y.st = .fenced ∧ y.walkers = [] ∧ y.upds = [] ∧ y.colls = [] ∧ y.keys = [] ∧ y.epoch = x.epoch ∧ y.step = x.step ∧
    y.fault = some ⟨cause, selfIdx x, cause, x.epoch, x.step, s.tick, 0, ts, core⟩) ∧
  (∀ (s : State) (j cause org oc ts core : Nat) (x : Job) (f : FaultInfo), s.job? j = some x → x.st = .fenced →
    x.fault = some f →
    s.fence j cause org oc ts core = s.setJob j { x with fault := some { f with more := f.more + 1 } }) ∧
  (∀ (s : State) (j cause org oc ts core : Nat) (x : Job), s.job? j = some x → x.st ≠ .fenced → jobRuns x = false →
    s.fence j cause org oc ts core = s)

/-- Sync counters and group statistics (R140, R146): SYNC_READ, SYNC_ADD, SYNC_SET and GROUP_STATS. -/
def Obligations.SyncCommands : Prop :=
  (∀ (mb : MbId) (s : State) (r : Req) (c : Nat), s.front mb.val 0x0408 1 false r → c = bitsOf (r.w 0) 13 0 →
    (r.scope = none ∨ s.ctrPart c = r.scope) →
    exec (.syncRead mb) s = .next ((s.takeReq mb.val).reply r stOk (natLE 8 (s.ctr c).toNat))) ∧
  (∀ (mb : MbId) (s : State) (r : Req) (c : Nat), s.front mb.val 0x0409 2 false r → c = bitsOf (r.w 0) 13 0 →
    (r.scope = none ∨ s.ctrPart c = r.scope) →
    ∃ s2 : State, exec (.syncAdd mb) s = .next (s2.reply r stOk []) ∧
      (s2.ctr c).toNat = ((s.ctr c).toNat + r.w 1) % 2 ^ 64 ∧ (∀ d, d ≠ c → s2.ctr d = s.ctr d) ∧
      s2.devMem = s.devMem ∧ s2.hostMem = s.hostMem ∧ s2.cfg = s.cfg ∧ s2.xp = s.xp) ∧
  (∀ (mb : MbId) (s : State) (r : Req) (c : Nat), s.front mb.val 0x040A 2 false r → c = bitsOf (r.w 0) 13 0 →
    (r.scope = none ∨ s.ctrPart c = r.scope) →
    (∀ e ∈ s.jobs, e.2.ctrBase ≤ c → c < e.2.ctrBase + e.2.ctrCount → jobRuns e.2 = false) →
    ∃ s2 : State, exec (.syncSet mb) s = .next (s2.reply r stOk []) ∧ (s2.ctr c).toNat = r.w 1 % 2 ^ 64 ∧
      (∀ d, d ≠ c → s2.ctr d = s.ctr d) ∧ s2.devMem = s.devMem ∧ s2.hostMem = s.hostMem ∧ s2.cfg = s.cfg ∧ s2.xp = s.xp) ∧
  (∀ (mb : MbId) (s : State) (r : Req) (c : Nat), c = bitsOf (r.w 0) 13 0 → r.scope ≠ none → s.ctrPart c ≠ r.scope →
    (s.front mb.val 0x0408 1 false r → exec (.syncRead mb) s = .next ((s.takeReq mb.val).reply r stNotPerm [])) ∧
    (s.front mb.val 0x0409 2 false r → exec (.syncAdd mb) s = .next ((s.takeReq mb.val).reply r stNotPerm [])) ∧
    (s.front mb.val 0x040A 2 false r → exec (.syncSet mb) s = .next ((s.takeReq mb.val).reply r stNotPerm []))) ∧
  (∀ (mb : MbId) (s : State) (r : Req) (g : Nat), s.front mb.val 0x040C 1 false r → g = bitsOf (r.w 0) 4 0 →
    (r.scope = none ∨ s.groupPart g = r.scope) →
    exec (.groupStats mb) s = .next ((s.takeReq mb.val).reply r stOk (natLE 8 (s.grp g).completed ++
      natLE 4 (s.grp g).thiefTakes ++ natLE 4 (s.grp g).stolenFrom ++ natLE 4 (s.grp g).crossDie ++
      natLE 2 (s.grp g).durOver ++ natLE 2 (s.grp g).restarts ++ natLE 4 (s.grp g).heldRel)))

/-- The tables and reports of a job (R156, R164, R171, R214, R215, R234, R235): JOB_LAYER_TABLE, JOB_SCALE_TABLE,
JOB_RSEG_TABLE, JOB_LAYER_STATUS, JOB_MAP, JOB_GATHER_TABLE, JOB_MAP_STATUS and JOB_GATHER_STATUS. A table
replaces that table of the job, and a layer table discards the gather table and the map; a report changes
nothing. -/
def Obligations.JobTables : Prop :=
  (∀ (mb : MbId) (s : State) (r : Req) (a : List Byte) (j n : Nat) (x : Job) (bs : List (List Byte)),
    s.frontArg mb.val 0x0410 1 false r a → s.ownJob r j x → x.st = .loaded → a.length = 32 * n → 1 ≤ n → n ≤ 4096 →
    bs = (upTo n).map (fun i => (a.drop (32 * i)).take 32) → (∀ b ∈ bs, layerEntryOk x.ctrCount b = true) →
    allDistinct (bs.map (fun b => leAt b 0 2)) = true → layersApart (bs.map layerOf) = true →
    (∀ b ∈ bs, ∀ w ∈ (layerOf b).bufs, (s.takeReq mb.val).spanSt x.part w (layerOf b).size = stOk) →
    exec (.jobLayerTable mb) s = .next (((s.takeReq mb.val).setJob j { x with layers := bs.map (fun b =>
      { layerOf b with buf0 := addrOf (leAt b 8 8), buf1 := addrOf (leAt b 16 8) }), gathers := [], map := none }).reply
        r stOk [])) ∧
  (∀ (mb : MbId) (s : State) (r : Req) (a : List Byte) (j w : Nat) (x : Job) (ts : List Tensor),
    s.frontArg mb.val 0x0411 1 false r a → s.ownJob r j x → x.st = .loaded →
    (s.takeReq mb.val).scaleTable x.part a = .ok (w, ts) →
    exec (.jobScaleTable mb) s =
      .next (((s.takeReq mb.val).setJob j { x with scaleWord := some w, tensors := ts }).reply r stOk [])) ∧
  (∀ (mb : MbId) (s : State) (r : Req) (a : List Byte) (j n : Nat) (x : Job) (es : List (Nat × Nat)),
    s.frontArg mb.val 0x0412 1 false r a → s.ownJob r j x → x.st = .loaded → a.length = 16 * n →
    es = (upTo n).map (fun i => (leAt a (16 * i) 2, leAt a (16 * i + 4) 4)) → (∀ e ∈ es, e.1 ≠ 0) →
    allDistinct (es.map (·.1)) = true → (∀ i, i < n → leAt a (16 * i + 2) 2 = 0 ∧ leAt a (16 * i + 8) 8 = 0) →
    ∃ y : Job, exec (.jobRsegTable mb) s = .next (((s.takeReq mb.val).setJob j y).reply r stOk []) ∧
      y = { x with rsegs := y.rsegs } ∧ (∀ e ∈ es, y.segBytes e.1 = e.2) ∧
      (∀ k, (∀ e ∈ es, e.1 ≠ k) → y.segBytes k = 0)) ∧
  (∀ (mb : MbId) (s : State) (r : Req) (j : Nat) (x : Job) (l : Layer),
    s.front mb.val 0x0413 1 false r → s.ownJob r j x → x.layer? (bitsOf (r.w 0) 31 16) = some l →
    exec (.jobLayerStatus mb) s = .next ((s.takeReq mb.val).reply r stOk
      (natLE 4 l.version ++ natLE 4 (if l.skipCommit then 0 else l.placed.getD 0) ++ natLE 4 l.ref ++
       natLE 4 (flagAt l.stalled 0 + flagAt l.skippedLast 1) ++ natLE 4 l.skips ++ natLE 4 l.waitedRef ++ natLE 4 l.stalls))) ∧
  (∀ (mb : MbId) (s : State) (r : Req) (a : List Byte) (j : Nat) (x : Job),
    s.frontArg mb.val 0x0420 1 false r a → s.ownJob r j x → x.st = .loaded → mapOk x a (mapOf a) = true →
    exec (.jobMap mb) s = .next (((s.takeReq mb.val).setJob j { x with map := some (mapOf a) }).reply r stOk [])) ∧
  (∀ (mb : MbId) (s : State) (r : Req) (a : List Byte) (j n : Nat) (x : Job),
    s.frontArg mb.val 0x0421 1 false r a → s.ownJob r j x → x.st = .loaded → a.length = 16 * n → n ≤ 4096 →
    allDistinct ((upTo n).map (fun i => leAt a (16 * i) 2)) = true →
    (∀ i, i < n → leAt a (16 * i + 4) 12 = 0 ∧ leAt a (16 * i + 2) 1 ≤ 2 ∧
      (leAt a (16 * i + 2) 1 ≠ 0 → ∀ m, x.map = some m → x.sameNode m.self (leAt a (16 * i + 3) 1) = true) ∧
      ∃ l, x.layer? (leAt a (16 * i) 2) = some l ∧ (leAt a (16 * i + 2) 1 = 2 → l.single = true)) →
    ∃ y : Job, exec (.jobGatherTable mb) s = .next (((s.takeReq mb.val).setJob j y).reply r stOk []) ∧
      y = { x with gathers := y.gathers } ∧
      (∀ i, i < n → ∃ g, tabFind y.gathers (leAt a (16 * i) 2) = some g ∧ g.mode = leAt a (16 * i + 2) 1 ∧
        g.source = leAt a (16 * i + 3) 1)) ∧
  (∀ (mb : MbId) (s : State) (r : Req) (j total : Nat) (x : Job) (m : JobMap) (own : List Nat),
    s.front mb.val 0x0422 1 false r → s.ownJob r j x → x.map = some m → own = (upTo m.n).map m.owned →
    total = own.foldl (· + ·) 0 → total ≠ 0 →
    exec (.jobMapStatus mb) s = .next ((s.takeReq mb.val).reply r stOk
      (natLE 8 (m.owned m.self) ++ natLE 8 (listMax own) ++ natLE 8 (total / m.n) ++
       natLE 4 (1000 * (listMax own * m.n - total) / total) ++ natLE 1 m.stage ++ natLE 1 (m.hollow.getD m.stage 0)))) ∧
  (∀ (mb : MbId) (s : State) (r : Req) (j : Nat) (x : Job) (m : JobMap),
    s.front mb.val 0x0422 1 false r → s.ownJob r j x → x.map = some m → ((upTo m.n).map m.owned).foldl (· + ·) 0 = 0 →
    ∃ (s2 : State) (res : List Byte), exec (.jobMapStatus mb) s = .next (s2.reply r stOk res) ∧ res.length = 30 ∧
      s2.jobs = s.jobs) ∧
  (∀ (mb : MbId) (s : State) (r : Req) (j : Nat) (x : Job) (g : Gather),
    s.front mb.val 0x0423 1 false r → s.ownJob r j x → tabFind x.gathers (bitsOf (r.w 0) 31 16) = some g →
    exec (.jobGatherStatus mb) s = .next ((s.takeReq mb.val).reply r stOk
      (natLE 4 g.version ++ natLE 4 g.crc ++ natLE 4 g.gathers ++ natLE 4 g.regathers ++
       natLE 4 (flagAt g.dropped 0 + flagAt g.heldFor 1) ++ natLE 4 g.waits)))

/-- LAYER_COMMIT (R159, R160): a placed version waits for REF; at the commit it becomes the committed version,
or stays behind when the update was skipped, and COMMIT_CTR advances by 1. -/
def Obligations.LayerCommit : Prop :=
  (∀ (s : State) (job layer : Nat) (x : Job) (l : Layer) (v : Nat), s.job? job = some x → jobRuns x = true →
    x.layer? layer = some l → l.placed = some v → l.ref = 0 →
    ∃ (t : State) (y : Job) (m : Layer), exec (.layerCommit job layer) s = .next t ∧ t.job? job = some y ∧
      y.layer? layer = some m ∧ m.version = (if l.skipCommit then l.version else v) ∧ m.prev = l.version ∧
      m.placed = none ∧ (t.ctr (x.ctrBase + l.ctr)).toNat = ((s.ctr (x.ctrBase + l.ctr)).toNat + 1) % 2 ^ 64 ∧
      (∀ c, c ≠ x.ctrBase + l.ctr → t.ctr c = s.ctr c) ∧ t.devMem = s.devMem ∧ t.hostMem = s.hostMem ∧ t.cfg = s.cfg) ∧
  (∀ (s : State) (job layer : Nat), (∀ x, s.job? job = some x → jobRuns x = true → ∀ l, x.layer? layer = some l →
      l.placed ≠ none → l.ref ≠ 0) → exec (.layerCommit job layer) s = .next s)

/-- Range control at the boundary that ends a step of normal service, by the formula of R168: the exponent, the
clean count and the skips; the boundary uses the GROWTH that was active during the step that ends. -/
def Obligations.RangeControl : Prop :=
  (∀ (r : Range) (growth : Nat), r.phase = 0 →
    (r.ovfNow = true → (r.atBoundary growth).e = r.e - 1 ∧ (r.atBoundary growth).clean = 0 ∧
      (r.atBoundary growth).ovfLast = true ∧ (r.atBoundary growth).skips = min 65535 (r.skips + 1)) ∧
    (r.ovfNow = false → (r.atBoundary growth).ovfLast = false ∧ (r.atBoundary growth).skips = r.skips ∧
      (growth ≠ 0 → growth ≤ min 65535 (r.clean + 1) →
        (r.atBoundary growth).e = min 32 (r.e + 1) ∧ (r.atBoundary growth).clean = 0) ∧
      (growth = 0 ∨ min 65535 (r.clean + 1) < growth →
        (r.atBoundary growth).e = r.e ∧ (r.atBoundary growth).clean = min 65535 (r.clean + 1)))) ∧
  (∀ (s b : State) (job growth : Nat) (x : Job), s.job? job = some x → x.st = .running → x.done = x.taskCount →
    b = s.boundary (.job job) → flag (b.reg (.job job) 0x028) 0 = false → x.scaleWord = none → x.tensors = [] →
    x.range.phase = 0 → phaseOf (b.reg (.job job) 0x000) (b.reg (.job job) 0x004) ((x.step + 1) % 2 ^ 64) = 0 →
    growth = fld (s.reg (.job job) 0x000) 23 8 →
    ∃ (t : State) (y : Job), exec (.stepBoundary job) s = .next t ∧ t.job? job = some y ∧
      y.range.e = (x.range.atBoundary growth).e ∧ y.range.clean = (x.range.atBoundary growth).clean ∧
      y.range.skips = (x.range.atBoundary growth).skips)

/-- STEP_BOUNDARY (R134, R168, R172): a step ends when every task has completed; the counts of the next step
begin, its phase and exponent follow, and slots go when a version numbering wrapped. -/
def Obligations.StepBoundary : Prop :=
  (∀ (s : State) (job : Nat), (∀ x, s.job? job = some x → x.st ≠ .running ∨ x.done ≠ x.taskCount) →
    exec (.stepBoundary job) s = .next s) ∧
  (∀ (s : State) (job ph : Nat) (x : Job), s.job? job = some x → x.st = .running → x.done = x.taskCount →
    (∀ e ∈ s.pend, keyBlk e.1 ≠ blkNum (.job job)) → flag (s.reg (.job job) 0x028) 0 = false → x.scaleWord = none →
    x.tensors = [] → ph = phaseOf (s.reg (.job job) 0x000) (s.reg (.job job) 0x004) ((x.step + 1) % 2 ^ 64) →
    ∃ (t : State) (y : Job), exec (.stepBoundary job) s = .next t ∧ t.job? job = some y ∧ y.st = .running ∧
      y.step = (x.step + 1) % 2 ^ 64 ∧ y.done = 0 ∧ y.walkers = [] ∧ y.range.phase = ph ∧
      (ph = 0 → x.range.phase = 0 →
        y.range.e = (x.range.atBoundary (fld (s.reg (.job job) 0x000) 23 8)).e) ∧
      (ph = 0 → x.range.phase ≠ 0 → y.range.e = fld (s.reg (.job job) 0x000) 5 0) ∧
      y.range.skips = (if x.range.ovfNow then min 65535 (x.range.skips + 1) else x.range.skips) ∧
      ((∃ l ∈ x.layers, l.wrapped = true) → ∀ c, x.groups.testBit (c / 64) = true →
        (t.core c).slotA.valid = false ∧ (t.core c).slotB.valid = false) ∧
      tabGet 0 t.bseq (blkNum (.job job)) = tabGet 0 s.bseq (blkNum (.job job)) + 1 ∧
      (∀ i, i ≠ job → t.job? i = s.job? i) ∧ t.devMem = s.devMem ∧ t.hostMem = s.hostMem ∧ t.counters = s.counters)

/-- Snapshots (R175 to R177): SNAPSHOT is accepted into the job; SNAPSHOT_COPY copies the oldest that is ready;
SNAPSHOT_COMPLETE and SNAPSHOT_SHIP_TIMEOUT end one and release its region. -/
def Obligations.Snapshots : Prop :=
  (∀ (mb : MbId) (s q : State) (r : Req) (j i : Nat) (x : Job) (g : Region) (lens : List Nat) (n : Snap),
    n = {
      region := i, shipHost := (r.w 0).testBit 32, shipRemote := (r.w 0).testBit 33, master := (r.w 0).testBit 34,
      step := r.w 1, host := r.w 2, qpn := bitsOf (r.w 3) 15 0, rkey := bitsOf (r.w 3) 63 32, cpl := r.w 4 } →
    s.front mb.val 0x0A01 5 false r → s.ownJob r j x → q = s.takeReq mb.val → i = bitsOf (r.w 0) 21 16 →
    bitsOf (r.w 0) 31 22 = 0 → bitsOf (r.w 0) 63 35 = 0 → ((r.w 0).testBit 32 = true → r.w 2 % 4096 = 0) →
    bitsOf (r.w 3) 31 16 = 0 → wordOk (r.w 4) = true → (r.w 4).testBit 63 = false → r.w 4 % 16 = 0 →
    s.region? i = some g → g.part = some x.part →
    ((r.w 0).testBit 33 = true → ∃ p, s.qp? (bitsOf (r.w 3) 15 0) = some p ∧ p.job = j) →
    q.spanSt x.part (r.w 4) 16 = stOk → jobRuns x = true → x.step ≤ r.w 1 → s.svcRegion i = false →
    lens = x.owned.map (fun l => partsLen (if (r.w 0).testBit 34 then s.masterParts x l else [(0, l.size)])) →
    snapLen lens ≤ g.len →
    exec (.snapshot mb) s = .next (((q.setRegion i { g with writers := g.writers + 1 }).setJob j
      { x with snaps := x.snaps ++ [n] }).reply r stOk [])) ∧
  (∀ (s : State) (job i : Nat) (x : Job) (n : Snap), s.job? job = some x → jobRuns x = true →
    x.snaps.zipIdx.find? (fun e => snapReady x e.1) = some (n, i) →
    exec (.snapshotCopy job) s = .next ((s.snapCopy job i x n).regrant job)) ∧
  (∀ (s : State) (job : Nat), (∀ x, s.job? job = some x → jobRuns x = true → ∀ n ∈ x.snaps, snapReady x n = false) →
    exec (.snapshotCopy job) s = .next s) ∧
  (∀ (s : State) (job i : Nat) (x : Job) (n : Snap), s.job? job = some x → jobRuns x = true →
    x.snaps.zipIdx.find? (fun e => e.1.copied && s.shipped e.1) = some (n, i) →
    exec (.snapshotComplete job) s = .next (s.snapEnd job x i n n.status)) ∧
  (∀ (s : State) (job : Nat) (x : Job) (n : Snap) (rest : List Snap), s.job? job = some x → x.st = .fenced →
    x.snaps = n :: rest → exec (.snapshotComplete job) s = .next (s.snapEnd job x 0 n stWrong)) ∧
  (∀ (s : State) (job i : Nat) (x : Job) (n : Snap), s.job? job = some x → jobRuns x = true →
    x.snaps.zipIdx.find? (fun e => e.1.copied && !s.shipped e.1 && decide (e.1.copyTick + 1000000000 ≤ s.tick)) =
      some (n, i) →
    exec (.snapshotShipTimeout job) s = .next (s.snapEnd job x i n stTimeout)) ∧
  (∀ (s : State) (job i st : Nat) (x : Job) (n : Snap) (g : Region), n.copied = true → s.region? n.region = some g →
    s.snapEnd job x i n st = ((s.setRegion n.region { g with writers := g.writers - 1 }).setJob job
      { x with snaps := x.snaps.eraseIdx i }).devWrite n.cpl
        (natLE 2 st ++ natLE 2 x.owned.length ++ natLE 4 n.crc ++ natLE 8 n.step))

/-- Writes to memory (R264, R270, R312): a write of device memory changes the bytes it names and no others, a
whole line written reads good again, a sealed region it touches loses its seal; a write of host memory does the
same while the link is up and is discarded and counted while it is down. -/
def Obligations.MemoryWrites : Prop :=
  (∀ (s : State) (a : Nat) (bs : List Byte),
    (∀ i, i < bs.length → (s.devWrite a bs).devMem.read (a + i) = bs.getD i 0) ∧
    (∀ c, c < a ∨ a + bs.length ≤ c → (s.devWrite a bs).devMem.read c = s.devMem.read c) ∧
    (s.devWrite a bs).hostMem = s.hostMem ∧ (s.devWrite a bs).localMem = s.localMem ∧
    (∀ l, l ∈ (s.devWrite a bs).mem.badLines ↔
      (l ∈ s.mem.badLines ∧ ¬(bs ≠ [] ∧ a ≤ l * 64 ∧ l * 64 + 64 ≤ a + bs.length))) ∧
    (∀ (i : Nat) (x : Region), bs ≠ [] → tabFind s.mem.regions i = some x → x.base < a + bs.length → a < x.base + x.len →
      ∃ y, tabFind (s.devWrite a bs).mem.regions i = some y ∧ y.sealed = none ∧ y.verified = false ∧ y.part = x.part)) ∧
  (∀ (s : State) (a : Nat) (bs : List Byte), s.link.up = true →
    (∀ i, i < bs.length → (s.hostWrite a bs).hostMem.read (a + i) = bs.getD i 0) ∧
    (∀ c, c < a ∨ a + bs.length ≤ c → (s.hostWrite a bs).hostMem.read c = s.hostMem.read c) ∧
    (s.hostWrite a bs).devMem = s.devMem) ∧
  (∀ (s : State) (a : Nat) (bs : List Byte), s.link.up = false → bs ≠ [] →
    (s.hostWrite a bs).hostMem = s.hostMem ∧ (s.hostWrite a bs).devMem = s.devMem ∧
    (s.hostWrite a bs).link.discard = min 0xFFFFFFFF (s.link.discard + 1)) ∧
  (∀ (s : State) (a len c : Nat), c < a ∨ a + len ≤ c → (s.scrambleDev a len).devMem.read c = s.devMem.read c)

/-- Retained regions and layouts (R267, R275, R277): REGION_CREATE, REGION_DESTROY, REGION_SEAL, REGION_ASSIGN,
REGION_QUERY and MEM_LAYOUT. -/
def Obligations.RegionCommands : Prop :=
  (∀ (mb : MbId) (s q : State) (r : Req) (a len i p : Nat) (rg : Rng),
    s.front mb.val 0x0310 2 false r → q = s.takeReq mb.val → a = addrOf (r.w 0) → len = r.w 1 →
    (r.w 0).testBit 63 = false → a % 0x200000 = 0 → len % 0x200000 = 0 → len ≠ 0 → q.span r.scope a len = .ok →
    q.rangeOf a = some rg → rg.part = some p → s.findRun p 64 1 (s.mem.regions.map (fun e => (e.1, 1))) = some i →
    ∃ (s2 : State) (x : Region), exec (.regionCreate mb) s = .next (s2.reply r stOk (natLE 1 i)) ∧ i < 64 ∧
      tabFind s.mem.regions i = none ∧ tabFind s2.mem.regions i = some x ∧ x.base = a ∧ x.len = len ∧
      x.part = some p ∧ x.sealed = none ∧ x.orphan = false ∧
      (∀ k, k ≠ i → tabFind s2.mem.regions k = tabFind s.mem.regions k) ∧
      (∀ c, c < a ∨ a + len ≤ c → s2.devMem.read c = s.devMem.read c) ∧ s2.hostMem = s.hostMem ∧ s2.sec = s.sec ∧
      s2.jobs = s.jobs) ∧
  (∀ (mb : MbId) (s : State) (r : Req) (i : Nat) (x : Region), s.front mb.val 0x0311 1 false r →
    i = bitsOf (r.w 0) 5 0 → tabFind s.mem.regions i = some x → (r.scope = none ∨ x.part = r.scope) →
    s.svcRegion i = false → x.writers = 0 →
    ∃ s2 : State, exec (.regionDestroy mb) s = .next (s2.reply r stOk []) ∧ tabFind s2.mem.regions i = none ∧
      (∀ c, c < x.base ∨ x.base + x.len ≤ c → s2.devMem.read c = s.devMem.read c) ∧ s2.hostMem = s.hostMem ∧
      s2.jobs = s.jobs ∧ s2.svcs = s.svcs) ∧
  (∀ (mb : MbId) (s : State) (r : Req) (i : Nat) (x : Region) (bs : List Byte), s.front mb.val 0x0312 1 false r →
    i = bitsOf (r.w 0) 5 0 → tabFind s.mem.regions i = some x → (r.scope = none ∨ x.part = r.scope) → x.writers = 0 →
    (s.takeReq mb.val).devRead x.base x.len = some bs →
    exec (.regionSeal mb) s =
      .next (((s.takeReq mb.val).setRegion i { x with sealed := some (crc32c bs) }).reply r stOk (natLE 4 (crc32c bs)))) ∧
  (∀ (mb : MbId) (s : State) (r : Req) (i p : Nat) (x : Region) (pt : Partn), s.front mb.val 0x0313 1 true r →
    i = bitsOf (r.w 0) 5 0 → p = bitsOf (r.w 0) 10 8 → tabFind s.mem.regions i = some x → r.scope = none →
    s.part? p = some pt → x.orphan = true → pt.mode = x.mode → pt.privSets = x.privSets →
    (∀ j, j < 8 → x.sets.testBit j = true → j ∈ partSets pt) →
    exec (.regionAssign mb) s =
      .next (((s.takeReq mb.val).setRegion i { x with part := some p, orphan := false }).reply r stOk [])) ∧
  (∀ (mb : MbId) (s : State) (r : Req) (i : Nat) (x : Region), s.front mb.val 0x0314 1 false r →
    i = bitsOf (r.w 0) 5 0 → tabFind s.mem.regions i = some x → (r.scope = none ∨ x.part = r.scope) →
    exec (.regionQuery mb) s = .next ((s.takeReq mb.val).reply r stOk
      (natLE 8 x.base ++ natLE 8 x.len ++ natLE 1 (x.part.getD 0xFF) ++
       natLE 1 (flagAt x.sealed.isSome 0 + flagAt x.verified 1 + flagAt x.damaged 2 + flagAt x.orphan 3) ++ zeros 2 ++
       natLE 4 (x.sealed.getD 0)))) ∧
  (∀ (mb : MbId) (s : State) (r : Req) (p m n : Nat) (x : Partn), s.front mb.val 0x0320 1 true r →
    p = bitsOf (r.w 0) 2 0 → m = bitsOf (r.w 0) 9 8 → n = bitsOf (r.w 0) 19 16 → s.part? p = some x → m < 2 →
    n ≤ x.setCount → (∀ e ∈ s.jobs, e.2.part ≠ p) → (∀ e ∈ s.svcs, e.2.part ≠ p) →
    (∀ e ∈ s.mem.regions, e.2.part ≠ some p) →
    ∃ s2 : State, exec (.memLayout mb) s = .next (s2.reply r stOk []) ∧
      s2.part? p = some { x with mode := m, privSets := n } ∧ (∀ k, k ≠ p → s2.part? k = s.part? k) ∧
      s2.hostMem = s.hostMem ∧ s2.jobs = s.jobs)

/-- Host accesses to device memory (R269, R293 to R299): CXL_MEM_ACCESS and BAR4_ACCESS reach the memory that
HOST_SETS opens; a refused one is counted, moves no data, and a refused read returns ones. -/
def Obligations.HostAccesses : Prop :=
  (∀ (a : HostAccess) (s : State), s.link.up = false ∨ s.link.cxl = false ∨ s.link.width < 4 →
    exec (.cxlMemAccess a) s = .next s) ∧
  (∀ (a : HostAccess) (s : State), s.link.up = false ∨ s.link.width < 4 ∨ 2 ^ s.link.bar4Log2 < a.addr + accLen a →
    exec (.bar4Access a) s = .next s) ∧
  (∀ (a : HostAccess) (s : State), s.link.up = true → 4 ≤ s.link.width → a.addr + accLen a ≤ 2 ^ s.link.bar4Log2 →
    s.link.requester ≠ some a.requester →
    ∃ t : State, exec (.bar4Access a) s = .next t ∧ t.link.denied = min 0xFF (s.link.denied + 1) ∧
      t.devMem = s.devMem ∧ t.hostMem = s.hostMem ∧ t.busOut = s.busOut) ∧
  (∀ (a : HostAccess) (s : State) (o : Host.Outcome State Fault Refusal) (d : Nat) (flip : Bool),
    ((o = exec (.cxlMemAccess a) s ∧ s.link.up = true ∧ s.link.cxl = true ∧ 4 ≤ s.link.width ∧ d = a.addr ∧ flip = true) ∨
     (o = exec (.bar4Access a) s ∧ s.link.up = true ∧ 4 ≤ s.link.width ∧ a.addr + accLen a ≤ 2 ^ s.link.bar4Log2 ∧
      s.link.requester = some a.requester ∧ d = s.memWin + a.addr ∧ flip = false)) → accLen a ≠ 0 →
    (d + accLen a ≤ dpaEnd → s.hostRefused d = true →
      ∃ t : State, o = .next t ∧ t.link.denied = min 0xFF (s.link.denied + 1) ∧ t.devMem = s.devMem ∧
        (a.isWrite = false → t.busOut = ones a.len)) ∧
    (s.hostRefused d = false ∨ dpaEnd < d + accLen a → s.span none d (accLen a) ≠ .ok →
      ∃ t : State, o = .next t ∧ t.mem.hole = min 0xFF (s.mem.hole + 1) ∧ t.devMem = s.devMem ∧
        (a.isWrite = false → t.busOut = ones a.len)) ∧
    (s.hostRefused d = false → s.span none d (accLen a) = .ok → a.isWrite = true →
      ∃ t : State, o = .next t ∧ (∀ i, i < a.data.length → t.devMem.read (d + i) = a.data.getD i 0) ∧
        (∀ c, c < d ∨ d + a.data.length ≤ c → t.devMem.read c = s.devMem.read c) ∧
        (flip = false → t.link.bias = s.link.bias) ∧
        (flip = true → ∀ p ∈ pagesOf d (accLen a), tabGet false t.link.bias p = true)) ∧
    (s.hostRefused d = false → s.span none d (accLen a) = .ok → a.isWrite = false →
      badIn s.mem.badLines d a.len = none →
      ∃ t : State, o = .next t ∧ t.busOut = s.devMem.readN d a.len ∧ t.devMem = s.devMem ∧
        (flip = false → t.link.bias = s.link.bias)))

/-- BIAS_SET and BIAS_QUERY (R300, R301): the bias of the pages of a span, and of one page. -/
def Obligations.BiasCommands : Prop :=
  (∀ (mb : MbId) (s : State) (r : Req) (a len : Nat), s.front mb.val 0x0302 2 false r → a = addrOf (r.w 0) →
    len = bitsOf (r.w 1) 39 0 → len % 4096 = 0 → len ≠ 0 → len ≤ 0x40000000 →
    (s.takeReq mb.val).biasSpan r a len = stOk → ((r.w 1).testBit 40 = true → s.link.cxl = true) →
    ∃ s2 : State, exec (.biasSet mb) s = .next (s2.reply r stOk []) ∧
      (∀ p, p ∈ pagesOf a len → tabGet false s2.link.bias p = (r.w 1).testBit 40) ∧
      (∀ p, p ∉ pagesOf a len → tabGet false s2.link.bias p = tabGet false s.link.bias p) ∧
      s2.devMem = s.devMem ∧ s2.hostMem = s.hostMem ∧ s2.cfg = s.cfg ∧ s2.jobs = s.jobs) ∧
  (∀ (mb : MbId) (s : State) (r : Req) (a : Nat), s.front mb.val 0x0303 1 false r → a = addrOf (r.w 0) →
    (s.takeReq mb.val).biasSpan r a 4096 = stOk →
    exec (.biasQuery mb) s = .next ((s.takeReq mb.val).reply r stOk
      (natLE 1 (if tabGet false s.link.bias (a / 4096) then 1 else 0)))) ∧
  (∀ (mb : MbId) (s : State) (r : Req), s.front mb.val 0x0302 2 false r → bitsOf (r.w 1) 39 0 % 4096 = 0 →
    bitsOf (r.w 1) 39 0 ≠ 0 → bitsOf (r.w 1) 39 0 ≤ 0x40000000 →
    (s.takeReq mb.val).biasSpan r (addrOf (r.w 0)) (bitsOf (r.w 1) 39 0) = stOk → (r.w 1).testBit 40 = true →
    s.link.cxl = false → exec (.biasSet mb) s = .next ((s.takeReq mb.val).reply r stWrong []))

/-- GRANULE_RETIRE (R273): the granule that an uncorrectable access holds is copied to a spare, and none of its
lines reads uncorrectable any longer; with no such granule nothing changes. -/
def Obligations.GranuleRetirement : Prop :=
  (∀ (g : Nat) (s : State), (∀ h ∈ s.mem.held, h.1 ≠ g) ∨ s.fw = false → exec (.granuleRetire g) s = .next s) ∧
  (∀ (g dpa : Nat) (s : State), s.fw = true → s.mem.held.find? (fun h => h.1 = g) = some (g, dpa) →
    ∃ t : State, exec (.granuleRetire g) s = .next t ∧ (∀ h ∈ t.mem.held, h.1 ≠ g) ∧
      (∀ l ∈ t.mem.badLines, l / 1024 ≠ g) ∧
      (∀ (i : Nat) (x : Region), tabFind s.mem.regions i = some x → x.base < g * 65536 + 65536 →
        g * 65536 < x.base + x.len → ∃ y, tabFind t.mem.regions i = some y ∧ y.damaged = true) ∧
      t.jobs = s.jobs ∧ t.counters = s.counters)

/-- Host DMA (R307): HOST_DMA is accepted into a free entry; HOST_DMA_COMPLETE moves the data, writes the
completion record and signals, or reports why it failed. -/
def Obligations.HostDma : Prop :=
  (∀ (mb : MbId) (s q : State) (r : Req) (d : Dma), s.front mb.val 0x0330 5 false r → q = s.takeReq mb.val →
    d = ⟨(r.w 0).testBit 0, (r.w 0).testBit 1, bitsOf (r.w 0) 29 16, bitsOf (r.w 0) 47 32, r.w 1, addrOf (r.w 2), r.w 3,
      r.w 4, r.scope⟩ →
    bitsOf (r.w 0) 15 2 = 0 → bitsOf (r.w 0) 31 30 = 0 → bitsOf (r.w 0) 63 48 = 0 →
    d.host % 64 = 0 → (r.w 2).testBit 63 = false → d.len % 64 = 0 → 64 ≤ d.len → d.len ≤ 0x100000000 → d.cpl % 16 = 0 →
    mb.val < 56 → r.mb = mb.val → q.span r.scope d.dev d.len = .ok → (d.inc ≠ 0 → q.ctrOk r d.sig = true) →
    q.outBad r d.cpl 16 = none → s.dmaFull r.scope = false →
    ∃ s2 : State, exec (.hostDma mb) s = .next (s2.reply r stOk []) ∧ tabFind s2.link.dma s.link.nextDma = some d ∧
      s2.link.nextDma = s.link.nextDma + 1 ∧ s2.devMem = s.devMem ∧ s2.hostMem = s.hostMem ∧
      s2.counters = s.counters ∧ s2.jobs = s.jobs) ∧
  (∀ (n : Nat) (o : LinkOutcome) (s : State), tabFind s.link.dma n = none → exec (.hostDmaComplete n o) s = .next s) ∧
  (∀ (n : Nat) (s : State) (d : Dma), tabFind s.link.dma n = some d → s.link.up = true → d.toHost = false →
    d.inc ≠ 0 → d.len ≠ 0 → r40Dev d.cpl = false →
    ∃ t : State, exec (.hostDmaComplete n .ok) s = .next t ∧ tabFind t.link.dma n = none ∧
      t.devMem.readN d.dev d.len = s.hostMem.readN d.host d.len ∧
      (∀ c, c < d.dev ∨ d.dev + d.len ≤ c → t.devMem.read c = s.devMem.read c) ∧
      t.hostMem.readN d.cpl 16 = dmaRecord stOk (if d.crc then crc32c (s.hostMem.readN d.host d.len) else 0) d.len ∧
      (∀ c, c < d.cpl ∨ d.cpl + 16 ≤ c → t.hostMem.read c = s.hostMem.read c) ∧
      (t.ctr d.sig).toNat = ((s.ctr d.sig).toNat + d.inc) % 2 ^ 64 ∧ (∀ c, c ≠ d.sig → t.ctr c = s.ctr c)) ∧
  (∀ (n : Nat) (s : State) (d : Dma) (bs : List Byte), tabFind s.link.dma n = some d → s.link.up = true →
    d.toHost = true → d.inc = 0 → s.devRead d.dev d.len = some bs → r40Dev d.cpl = false →
    d.host + bs.length ≤ d.cpl ∨ d.cpl + 16 ≤ d.host →
    ∃ t : State, exec (.hostDmaComplete n .ok) s = .next t ∧ tabFind t.link.dma n = none ∧
      t.hostMem.readN d.host bs.length = bs ∧
      t.hostMem.readN d.cpl 16 = dmaRecord stOk (if d.crc then crc32c bs else 0) d.len ∧
      (∀ c, c < d.host ∨ d.host + bs.length ≤ c → c < d.cpl ∨ d.cpl + 16 ≤ c → t.hostMem.read c = s.hostMem.read c) ∧
      t.devMem = s.devMem ∧ t.counters = s.counters) ∧
  (∀ (n : Nat) (s : State) (d : Dma) (o : LinkOutcome), tabFind s.link.dma n = some d → s.link.up = true →
    o ≠ .ok → r40Dev d.cpl = false →
    ∃ (t : State) (moved : Nat), exec (.hostDmaComplete n o) s = .next t ∧ tabFind t.link.dma n = none ∧ moved ≤ d.len ∧
      t.hostMem.readN d.cpl 16 =
        dmaRecord (match o with | .timeout => stTimeout | .rejected => stNotPerm | _ => stVerify) 0 moved ∧
      t.devMem = s.devMem ∧ t.counters = s.counters)

/-- The session and Pewter programs (R309, R314, R315): SESSION_CRED, ATTACH, PEWTER_START and PEWTER_STOP. -/
def Obligations.SessionCommands : Prop :=
  (∀ (mb : MbId) (s : State) (r : Req) (dig : List Byte), s.front mb.val 0x0106 4 true r →
    dig = (upTo 4).flatMap (fun i => natLE 8 (r.w i)) → dig ≠ zeros 32 →
    ∃ s2 : State, exec (.sessionCred mb) s = .next (s2.reply r stOk []) ∧ s2.link = { s.link with cred := some dig } ∧
      s2.jobs = s.jobs ∧ s2.devMem = s.devMem ∧ s2.hostMem = s.hostMem) ∧
  (∀ (mb : MbId) (s : State) (r : Req) (dig : List Byte), s.front mb.val 0x0105 5 true r → s.link.detached = true →
    bitsOf (r.w 0) 31 0 = s.bu.session → s.link.cred = some dig →
    (s.link.fails.filter (fun t => decide (s.tick ≤ t + 6000000000))).length < 8 →
    ∃ (s2 : State) (st : Nat) (res : List Byte), exec (.attach mb) s = .next (s2.reply r st res) ∧
      s2.jobs = s.jobs ∧ s2.devMem = s.devMem ∧ s2.hostMem = s.hostMem ∧
      (Config.shake256 ((upTo 4).flatMap (fun i => natLE 8 (r.w (1 + i)))) 32 = dig → st = stOk ∧
        s2.link.detached = false ∧ s2.link.fails = [] ∧
        res = natLE 4 s.bu.session ++ natLE 2 s.autoJobs.length ++ natLE 2 s.svcs.length ++ natLE 8 s.link.lossTick) ∧
      (Config.shake256 ((upTo 4).flatMap (fun i => natLE 8 (r.w (1 + i)))) 32 ≠ dig → st = stVerify ∧ res = [] ∧
        s2.link.detached = true ∧ s2.link.fails = s.tick :: s.link.fails)) ∧
  (∀ (mb : MbId) (s : State) (r : Req) (dig : List Byte), s.front mb.val 0x0105 5 true r → s.link.detached = true →
    bitsOf (r.w 0) 31 0 = s.bu.session → s.link.cred = some dig →
    8 ≤ (s.link.fails.filter (fun t => decide (s.tick ≤ t + 6000000000))).length →
    exec (.attach mb) s = .next ((s.takeReq mb.val).reply r stNotPerm [])) ∧
  (∀ (mb : MbId) (s q : State) (r : Req) (a len p h : Nat) (blk img : List Byte), s.front mb.val 0x0120 3 false r →
    q = s.takeReq mb.val → a = addrOf (r.w 0) → len = r.w 1 →
    p = (match r.scope with | none => bitsOf (r.w 2) 2 0 | some p => p) →
    (r.w 0).testBit 63 = false → a % 4096 = 0 → 4096 ≤ len → len ≤ 0x4000000 → (s.part? p).isSome = true → 256 ≤ a →
    q.span (some p) (a - 256) (len + 256) = .ok → q.devRead (a - 256) 256 = some blk → q.devRead a len = some img →
    tabFree s.pewter 8 = some h →
    ∃ (s2 : State) (st : Nat) (res : List Byte), exec (.pewterStart mb) s = .next (s2.reply r st res) ∧
      (q.verifyImage blk img 3 (some p) = none → st = stVerify ∧ s2 = q) ∧
      (q.verifyImage blk img 3 (some p) ≠ none → st = stOk ∧ res = natLE 1 (56 + h) ∧
        tabFind s2.pewter h = some { part := p, base := a, len := len } ∧ (s2.mb (56 + h)).part = some p ∧
        (s2.mb (56 + h)).st = .disabled ∧ s2.devMem = s.devMem ∧ s2.jobs = s.jobs)) ∧
  (∀ (mb : MbId) (s : State) (r : Req) (m : Nat) (p : Pewter), s.front mb.val 0x0121 1 false r →
    m = bitsOf (r.w 0) 5 0 → 56 ≤ m → tabFind s.pewter (m - 56) = some p → (r.scope = none ∨ r.scope = some p.part) →
    p.stopping = false →
    ∃ s2 : State, exec (.pewterStop mb) s =
      .next (if (tabFind s2.pewter (m - 56)).isNone then s2.reply r stOk [] else s2.waits r m 0)) ∧
  (∀ (mb : MbId) (s : State) (r : Req) (m : Nat) (p : Pewter), s.front mb.val 0x0121 1 false r →
    m = bitsOf (r.w 0) 5 0 → 56 ≤ m → m ≠ mb.val → r.mb = mb.val → tabFind s.pewter (m - 56) = some p →
    (r.scope = none ∨ r.scope = some p.part) → p.stopping = false →
    (∀ e ∈ s.jobs, e.2.mailbox ≠ m) → (∀ e ∈ s.svcs, e.2.mailbox ≠ m) →
    ∃ s2 : State, exec (.pewterStop mb) s = .next (s2.reply r stOk []) ∧ tabFind s2.pewter (m - 56) = none ∧
      (s2.mb m).part = none ∧ s2.jobs = s.jobs ∧ s2.svcs = s.svcs)

/-- The host link (R288, R293, R311 to R314): HOST_LINK_UP, HOST_CONFIG_WRITE and HOST_LINK_LOSS. -/
def Obligations.HostLinkEvents : Prop :=
  (∀ (w rate : Nat) (cxl : Bool) (s : State), s.link.up = false → s.power.perst = false → s.power.v48 = true →
    ∃ t : State, exec (.hostLinkUp w rate cxl) s = .next t ∧ t.link.up = true ∧ t.link.cxl = cxl ∧ t.link.width = w ∧
      t.link.rate = rate ∧ t.link.requester = none ∧ t.link.detached = s.link.detached ∧ t.cfg = s.cfg ∧
      t.devMem = s.devMem ∧ t.hostMem = s.hostMem ∧ t.jobs = s.jobs) ∧
  (∀ (w rate : Nat) (cxl : Bool) (s : State), s.link.up = true ∨ s.power.perst = true ∨ s.power.v48 = false →
    exec (.hostLinkUp w rate cxl) s = .next s) ∧
  (∀ (n : Nat) (s : State), s.link.up = true → s.link.requester = none →
    exec (.hostConfigWrite n) s = .next { s with link := { s.link with requester := some n } }) ∧
  (∀ (n : Nat) (s : State), s.link.up = false ∨ s.link.requester ≠ none → exec (.hostConfigWrite n) s = .next s) ∧
  (∀ s : State, s.link.up = false → exec .hostLinkLoss s = .next s) ∧
  (∀ s : State, s.link.up = true → s.fw = false →
    exec .hostLinkLoss s = .next { s with link := { s.link with up := false, cxl := false, width := 0, rate := 0 } }) ∧
  (∀ s : State, s.link.up = true → s.fw = true →
    ∃ t : State, exec .hostLinkLoss s = .next t ∧ t.link.up = false ∧ t.link.detached = true ∧
      t.link.lossTick = s.tick ∧ t.link.bias = [])

/-- The weight store (R278 to R286): WS_INSTALL, WS_REMOVE, WS_GRANT, WS_LOAD, WS_STATUS and the ends of an
installation and of a load. -/
def Obligations.WeightStore : Prop :=
  (∀ (mb : MbId) (s q : State) (r : Req) (h : List Byte) (i o : Nat), s.front mb.val 0x0A10 2 true r →
    q = s.takeReq mb.val → q.outBad r (r.w 1) 16 = none → s.store.install = none → q.outBad r (r.w 0) 256 = none →
    q.r40Read (r.w 0) 256 = some h → q.outBad r (r.w 0) (leAt h 16 8) = none →
    tabFree s.store.slots 32 = some i → q.findExtents (ceilDiv (leAt h 16 8) gib) = some o → s.store.wear < wsEndurance →
    leAt h 0 4 = 0x57534732 → leAt h 4 2 = 0x0100 → leAt h 6 2 ≠ 0 → 256 + 32 * leAt h 6 2 ≤ leAt h 16 8 →
    (q.keyFor (leAt h 24 4) 0 none).isSome = true →
    ∃ (s2 : State) (w : WsSlot), exec (.wsInstall mb) s = .next (s2.reply r stOk []) ∧
      tabFind s2.store.slots i = some w ∧ w.st = 1 ∧ w.baseId = leAt h 8 8 ∧ w.offset = o ∧
      w.extents = ceilDiv (leAt h 16 8) gib ∧ w.granted = 0 ∧
      s2.store.install = some ⟨i, r.w 0, r.w 1, leAt h 16 8⟩ ∧ s2.store.bytes = s.store.bytes ∧ s2.devMem = s.devMem) ∧
  (∀ (o : LinkOutcome) (s : State), s.store.install = none → exec (.wsInstallComplete o) s = .next s) ∧
  (∀ (s : State) (n : Install) (img : List Byte), s.store.install = some n → s.r40Read n.src n.len = some img →
    img.length = n.len → ∃ t : State, exec (.wsInstallComplete .ok) s = .next t ∧ t.store.install = none ∧
      t.store.wear = s.store.wear + n.len ∧
      t.store.bytes = s.store.bytes.writeL ((tabGet {} s.store.slots n.slot).offset * gib) img ∧
      ((s.installCheck img).1 = stOk → (tabGet {} t.store.slots n.slot).st = 2) ∧
      ((s.installCheck img).1 ≠ stOk → tabFind t.store.slots n.slot = none)) ∧
  (∀ (s : State) (n : Install) (o : LinkOutcome), s.store.install = some n → o ≠ .ok →
    ∃ t : State, exec (.wsInstallComplete o) s = .next t ∧ t.store.install = none ∧ tabFind t.store.slots n.slot = none ∧
      s.store.wear ≤ t.store.wear ∧ t.store.wear ≤ s.store.wear + n.len ∧ t.store.bytes = s.store.bytes) ∧
  (∀ (mb : MbId) (s : State) (r : Req) (i : Nat) (w : WsSlot), s.front mb.val 0x0A11 1 true r → i = bitsOf (r.w 0) 4 0 →
    tabFind s.store.slots i = some w → w.st ≠ 1 → w.granted = 0 → (∀ e ∈ s.store.loads, e.2.slot ≠ i) →
    ∃ s2 : State, exec (.wsRemove mb) s = .next (s2.reply r stOk []) ∧ tabFind s2.store.slots i = none ∧
      s2.store.bytes = s.store.bytes ∧ s2.devMem = s.devMem ∧ s2.jobs = s.jobs) ∧
  (∀ (mb : MbId) (s : State) (r : Req) (i p : Nat) (w : WsSlot), s.front mb.val 0x0A12 1 true r → i = bitsOf (r.w 0) 4 0 →
    p = bitsOf (r.w 0) 10 8 → tabFind s.store.slots i = some w → (s.part? p).isSome = true →
    ((r.w 0).testBit 16 = true →
      exec (.wsGrant mb) s = .next (((s.takeReq mb.val).setSlot i { w with granted := w.granted ||| 2 ^ p }).reply r stOk [])) ∧
    ((r.w 0).testBit 16 = false → (∀ e ∈ s.jobs, e.2.part ≠ p) → (∀ e ∈ s.store.loads, e.2.part ≠ some p) →
      exec (.wsGrant mb) s =
        .next (((s.takeReq mb.val).setSlot i { w with granted := w.granted &&& (255 - 2 ^ p) }).reply r stOk []))) ∧
  (∀ (mb : MbId) (s q : State) (r : Req) (i : Nat) (w : WsSlot) (ls : List WsLayer), s.front mb.val 0x0A13 3 false r →
    q = s.takeReq mb.val → i = bitsOf (r.w 0) 4 0 → w = tabGet {} s.store.slots i → w.st = 2 →
    (∀ p, r.scope = some p → w.granted.testBit p = true) → q.outBad r (r.w 2) 16 = none →
    (r.w 1).testBit 63 = false → q.wsPick w (bitsOf (r.w 0) 31 16) (bitsOf (r.w 0) 47 32) = some ls →
    q.span r.scope (addrOf (r.w 1)) (max 1 (wsSpan ls)) = .ok →
    ∃ s2 : State, exec (.wsLoad mb) s = .next (s2.reply r stOk []) ∧ s2.store.nextLoad = s.store.nextLoad + 1 ∧
      tabFind s2.store.loads s.store.nextLoad =
        some ⟨r.scope, i, bitsOf (r.w 0) 31 16, bitsOf (r.w 0) 47 32, addrOf (r.w 1), r.w 2⟩ ∧
      s2.store.slots = s.store.slots ∧ s2.devMem = s.devMem ∧ s2.jobs = s.jobs) ∧
  (∀ (n : Nat) (o : LinkOutcome) (s : State), tabFind s.store.loads n = none → exec (.wsLoadComplete n o) s = .next s) ∧
  (∀ (n : Nat) (s : State) (ld : WsLoad) (w : WsSlot) (l : WsLayer) (bs : List Byte), tabFind s.store.loads n = some ld →
    w = tabGet {} s.store.slots ld.slot → s.wsPick w ld.first ld.count = some [l] →
    s.devRead (apBase + w.offset * gib + l.off) l.len = some bs → r40Dev ld.cpl = false → s.link.up = true → bs ≠ [] →
    ∃ t : State, exec (.wsLoadComplete n .ok) s = .next t ∧ tabFind t.store.loads n = none ∧
      t.devMem.readN ld.dest bs.length = bs ∧
      (∀ c, c < ld.dest ∨ ld.dest + bs.length ≤ c → t.devMem.read c = s.devMem.read c) ∧
      t.hostMem.readN ld.cpl 16 = (if crc32c bs = l.crc then wsRecord stOk 0xFFFF 1 l.len
        else wsRecord stVerify l.id 0 l.len)) ∧
  (∀ (mb : MbId) (s : State) (r : Req) (w : WsSlot), s.front mb.val 0x0A14 1 false r →
    w = tabGet {} s.store.slots (bitsOf (r.w 0) 4 0) →
    exec (.wsStatus mb) s = .next ((s.takeReq mb.val).reply r stOk
      (natLE 8 w.baseId ++ natLE 2 w.st ++ natLE 2 w.extents ++ natLE 4 w.offset ++ natLE 4 w.granted)))

/-- The commands of a loop service (R240 to R245, R252, R254, R256): SVC_REGISTER, SVC_DEREGISTER, SVC_ARM,
PUBLISH and SVC_RESUME. A registration answers an error of its checks, a refused admission, or waits for its
proving run. -/
def Obligations.ServiceCommands : Prop :=
  (∀ (mb : MbId) (s q : State) (r : Req) (a : List Byte), s.frontArg mb.val 0x0601 0 false r a → q = s.takeReq mb.val →
    (∀ e, q.svcImage { r with arg := a } = .error e → e < 65536 → exec (.svcRegister mb) s = .next (q.reply r e [])) ∧
    (∀ i e, q.svcImage { r with arg := a } = .ok i → q.svcContract { r with arg := a } i = .error e → e < 65536 →
      exec (.svcRegister mb) s = .next (q.reply r e [])) ∧
    (∀ i v, q.svcImage { r with arg := a } = .ok i → q.svcContract { r with arg := a } i = .ok v →
      v.deadline < q.inTicks v.inSrc v.inBytes + v.waTicks → exec (.svcRegister mb) s =
        .next (q.reply r stRefused (refusedResult 0 (q.inTicks v.inSrc v.inBytes + v.waTicks)))) ∧
    (∀ i v, q.svcImage { r with arg := a } = .ok i → q.svcContract { r with arg := a } i = .ok v →
      q.inTicks v.inSrc v.inBytes + v.waTicks ≤ v.deadline →
      ∃ (k : Nat) (s2 : State) (y : Svc), exec (.svcRegister mb) s = .next (s2.waits r k 0) ∧
        tabFree s.svcs 64 = some k ∧ s2.svc? k = some y ∧ y.st = .proving ∧ y.part = v.part ∧ y.runs = 0 ∧
        y.period = v.period ∧ y.deadline = v.deadline ∧ y.cores = v.cores)) ∧
  (∀ (mb : MbId) (s : State) (r : Req) (k : Nat) (v : Svc), s.front mb.val 0x0602 1 false r → s.ownSvc r k v →
    v.st ≠ .proving → v.leaving = false →
    (v.ph = .idle → ∃ s2 : State, exec (.svcDeregister mb) s = .next (s2.reply r stOk []) ∧ s2.svc? k = none ∧
      (∀ i, i ≠ k → s2.svc? i = s.svc? i) ∧ (∀ c ∈ v.cores, (s2.core c).svc = none) ∧
      (∀ c, c ∉ v.cores → s2.core c = s.core c) ∧ s2.jobs = s.jobs ∧ s2.devMem = s.devMem) ∧
    (v.ph ≠ .idle → exec (.svcDeregister mb) s =
      .next (((s.takeReq mb.val).setSvc k { v with leaving := true }).waits r k 0))) ∧
  (∀ (mb : MbId) (s : State) (r : Req) (k : Nat) (v : Svc), s.front mb.val 0x0603 2 false r → s.ownSvc r k v →
    v.st = .registered → v.leaving = false →
    ((v.doorbellMode = true ∧ r.w 1 = 0) ∨ (v.doorbellMode = false ∧ s.tick + 10000 ≤ r.w 1 ∧ r.w 1 ≤ s.tick + 2 ^ 40)) →
    ∃ s2 : State, exec (.svcArm mb) s = .next (s2.reply r stOk []) ∧
      s2.svc? k = some { v with st := .armed, ph := .idle, t0 := r.w 1, k := 0, started := false, heldDb := false } ∧
      s2.ctr (v.ctrBase + v.counters) = 0 ∧ s2.ctr (v.ctrBase + v.counters + 1) = 0 ∧
      (∀ c, c ≠ v.ctrBase + v.counters → c ≠ v.ctrBase + v.counters + 1 → s2.ctr c = s.ctr c) ∧
      (∀ i, i ≠ k → s2.svc? i = s.svc? i) ∧ s2.jobs = s.jobs ∧ s2.devMem = s.devMem ∧ s2.hostMem = s.hostMem) ∧
  (∀ (mb : MbId) (s : State) (r : Req) (k w : Nat) (v : Svc) (x : Region), s.front mb.val 0x0604 1 false r →
    s.ownSvc r k v → w = bitsOf (r.w 0) 13 8 → v.pubRegion = none → v.pubVerify = none → s.region? w = some x →
    x.part = some v.part →
    exec (.publish mb) s = .next (((s.takeReq mb.val).setSvc k { v with pubVerify := some w }).reply r stOk [])) ∧
  (∀ (mb : MbId) (s : State) (r : Req) (k : Nat) (v : Svc), s.front mb.val 0x0605 1 false r → s.ownSvc r k v →
    v.st = .suspended → v.leaving = false →
    ∃ (s2 : State) (y : Svc), exec (.svcResume mb) s = .next (s2.waits r k 0) ∧ s2.svc? k = some y ∧ y.st = .proving ∧
      y.resuming = true ∧ y.runs = 0 ∧ y.measured = 0 ∧ y.part = v.part) ∧
  (∀ (mb : MbId) (s : State) (r : Req) (k : Nat) (v : Svc), s.ownSvc r k v →
    (s.front mb.val 0x0603 2 false r → v.st ≠ .registered ∨ v.leaving = true →
      exec (.svcArm mb) s = .next ((s.takeReq mb.val).reply r stWrong [])) ∧
    (s.front mb.val 0x0605 1 false r → v.st ≠ .suspended ∨ v.leaving = true →
      exec (.svcResume mb) s = .next ((s.takeReq mb.val).reply r stWrong [])) ∧
    (s.front mb.val 0x0602 1 false r → v.st = .proving ∨ v.leaving = true →
      exec (.svcDeregister mb) s = .next ((s.takeReq mb.val).reply r stWrong [])))

/-- Proving runs and publications (R243, R252, R256, R257): PROVING_RUN_COMPLETE counts a run and ends the proof
at sixteen, or at a run longer than WC_CYCLES; PUBLISH_VERIFIED makes verified weights pending. -/
def Obligations.ServiceVerdicts : Prop :=
  (∀ (svc : SvcId) (n : Nat) (s : State), (∀ v, s.svc? svc.val = some v → v.st ≠ .proving) →
    exec (.provingRunComplete svc n) s = .next s) ∧
  (∀ (svc : SvcId) (n : Nat) (s : State) (v : Svc), s.svc? svc.val = some v → v.st = .proving →
    v.lapse = false → s.lapsed v = false →
    (n ≤ v.wcCycles → v.runs + 1 ≠ 16 → ∃ t : State, exec (.provingRunComplete svc n) s = .next t ∧
      t.svc? svc.val = some { v with runs := v.runs + 1, measured := max v.measured n }) ∧
    (n ≤ v.wcCycles → v.runs + 1 = 16 → ∃ (t : State) (y : Svc), exec (.provingRunComplete svc n) s = .next t ∧
      t.svc? svc.val = some y ∧ y.st = .registered ∧ y.measured = max v.measured n ∧ y.window = []) ∧
    (v.wcCycles < n → v.resuming = false → ∃ t : State, exec (.provingRunComplete svc n) s = .next t ∧
      t.svc? svc.val = none) ∧
    (v.wcCycles < n → v.resuming = true → ∃ (t : State) (y : Svc), exec (.provingRunComplete svc n) s = .next t ∧
      t.svc? svc.val = some y ∧ y.st = .suspended)) ∧
  (∀ (svc : SvcId) (n : Nat) (s : State) (v : Svc), s.svc? svc.val = some v → v.st = .proving →
    v.lapse = true ∨ s.lapsed v = true → v.discarded + 1 ≠ 16 →
    ∃ t : State, exec (.provingRunComplete svc n) s = .next t ∧
      t.svc? svc.val = some { v with discarded := v.discarded + 1, lapse := s.lapsed v }) ∧
  (∀ (svc : SvcId) (s : State), (∀ v, s.svc? svc.val = some v → v.pubVerify = none) →
    exec (.publishVerified svc) s = .next s) ∧
  (∀ (svc : SvcId) (s : State) (v : Svc) (w why : Nat) (x : Region) (g : SvcHead), s.svc? svc.val = some v →
    v.pubVerify = some w → s.region? w = some x → g = svcHead (s.devMem.readN v.image 64) →
    why = s.weightsCheck x.base x.len
      (weightMap (s.devMem.readN (v.image + g.wmapOff) (16 * g.wmapN)) { g with wmapOff := 0 }) →
    (why = 0 → exec (.publishVerified svc) s =
      .next (s.setSvc svc.val { v with pubVerify := none, pubRegion := some w })) ∧
    (why ≠ 0 → ∃ (t : State) (y : Svc), exec (.publishVerified svc) s = .next t ∧ t.svc? svc.val = some y ∧
      y.pubVerify = none ∧ y.pubRegion = v.pubRegion ∧ y.wregion = v.wregion))

/-- The period of a service (R245, R247 to R251, R255, R261): PERIOD_START, CLEAN_DONE, RUN_START, INPUT_CUTOFF,
DEADLINE, WRITEBACK_DONE and SVC_MISSED act when their condition holds and change nothing when it does not. -/
def Obligations.ServicePeriods : Prop :=
  (∀ (svc : SvcId) (s : State) (v : Svc), s.svc? svc.val = some v → v.st = .armed → v.ph = .idle →
    (v.doorbellMode = false → v.t0 + v.k * v.period ≤ s.tick →
      exec (.periodStart svc) s = .next (s.svcStart svc.val (v.t0 + v.k * v.period))) ∧
    (v.doorbellMode = false → s.tick < v.t0 + v.k * v.period → exec (.periodStart svc) s = .next s) ∧
    (v.doorbellMode = true → v.heldDb = true → v.start + v.period ≤ s.tick →
      exec (.periodStart svc) s = .next (s.svcStart svc.val (v.start + v.period))) ∧
    (v.doorbellMode = true → v.heldDb = false ∨ s.tick < v.start + v.period →
      exec (.periodStart svc) s = .next s)) ∧
  (∀ (svc : SvcId) (s : State) (v : Svc), s.svc? svc.val = some v →
    (v.ph = .clean → exec (.cleanDone svc) s = .next (s.setSvc svc.val { v with ph := .input, cleanDone := true })) ∧
    (v.ph ≠ .clean → exec (.cleanDone svc) s = .next s) ∧
    (v.ph = .input → v.inputTick ≠ none → s.tick < v.start + v.deadline →
      exec (.runStart svc) s = .next ((s.setSvc svc.val { v with ph := .run }).svcRelease svc.val)) ∧
    (v.ph ≠ .input ∨ v.inputTick = none ∨ v.start + v.deadline ≤ s.tick → exec (.runStart svc) s = .next s) ∧
    (v.ph = .clean ∨ v.ph = .input → v.inputTick = none → v.start + (v.deadline - v.waTicks) ≤ s.tick →
      exec (.inputCutoff svc) s = .next (s.svcMiss svc.val 1)) ∧
    (v.inputTick ≠ none ∨ s.tick < v.start + (v.deadline - v.waTicks) → exec (.inputCutoff svc) s = .next s) ∧
    (v.ph = .clean ∨ v.ph = .input ∨ v.ph = .run → v.inputTick ≠ none → v.start + v.deadline ≤ s.tick →
      exec (.deadline svc) s = .next (s.svcMiss svc.val 2)) ∧
    (v.ph = .idle ∨ v.ph = .writeback ∨ s.tick < v.start + v.deadline → exec (.deadline svc) s = .next s)) ∧
  (∀ (s : State) (k reason : Nat) (v : Svc), s.svc? k = some v → v.leaving = false →
    ∃ y : Svc, (s.svcMiss k reason).svc? k = some y ∧ y.ph = .idle ∧ y.k = v.k ∧ y.committed = v.committed ∧
      y.window = ((reason ≠ 1 && !v.lapse) :: v.window).take 1000 ∧
      (y.st = .suspended ↔ (v.st = .suspended ∨ ((reason ≠ 1 && !v.lapse) = true ∧ 3 ≤ windowMisses y))) ∧
      y.late = (if reason = 1 then min 0xFFFF (v.late + 1) else v.late) ∧
      y.overrun = (if reason = 2 then min 0xFFFF (v.overrun + 1) else v.overrun) ∧
      y.taskFault = (if reason = 3 then min 0xFF (v.taskFault + 1) else v.taskFault)) ∧
  (∀ (svc : SvcId) (s : State) (v : Svc) (bs : List Byte), s.svc? svc.val = some v → v.ph = .writeback →
    v.leaving = false → v.outBytes ≠ 0 → s.devRead v.stage v.outBytes = some bs →
    ∃ (t : State) (y : Svc), exec (.writebackDone svc) s = .next t ∧ t.svc? svc.val = some y ∧ y.ph = .idle ∧
      y.committed = (!v.committed) ∧ y.doneCount = (v.doneCount + 1) % 2 ^ 32 ∧
      y.window = (false :: v.window).take 1000 ∧
      (t.ctr (v.ctrBase + v.counters + 1)).toNat = ((s.ctr (v.ctrBase + v.counters + 1)).toNat + 1) % 2 ^ 64 ∧
      (∀ c, c ≠ v.ctrBase + v.counters + 1 → t.ctr c = s.ctr c)) ∧
  (∀ (svc : SvcId) (s : State) (v : Svc), s.svc? svc.val = some v → v.ph ≠ .writeback →
    exec (.writebackDone svc) s = .next s) ∧
  (∀ (svc : SvcId) (s : State) (v : Svc), s.svc? svc.val = some v →
    (v.missSince ≠ 0 → (∀ t, v.missEvent = some t → t + 10000000 ≤ s.tick) →
      ∃ t : State, exec (.svcMissed svc) s = .next t ∧
        t.svc? svc.val = some { v with missSince := 0, missEvent := some s.tick } ∧ t.jobs = s.jobs) ∧
    (v.missSince = 0 ∨ (∃ t, v.missEvent = some t ∧ s.tick < t + 10000000) → exec (.svcMissed svc) s = .next s)) ∧
  (∀ (svc : SvcId) (s : State), s.svc? svc.val = none →
    exec (.periodStart svc) s = .next s ∧ exec (.cleanDone svc) s = .next s ∧ exec (.runStart svc) s = .next s ∧
    exec (.inputCutoff svc) s = .next s ∧ exec (.deadline svc) s = .next s ∧ exec (.writebackDone svc) s = .next s ∧
    exec (.svcMissed svc) s = .next s)

/-- A service's doorbell (R246, R247): one of no service or of another partition's is counted in the mailbox's
page; one that R247 does not accept counts in BAD_DB; an accepted one adds IN_INC to IN_CTR, starts a period, or
is held. -/
def Obligations.ServiceDoorbells : Prop :=
  (∀ (s : State) (mb k val : Nat), s.svc? k = none → s.svcBell mb k val = s.countErr (.mb mb)) ∧
  (∀ (s : State) (mb k val : Nat) (v : Svc), s.svc? k = some v → v.ph = .idle ∨ v.ph = .writeback →
    s.mbPart mb ≠ some v.part → s.svcBell mb k val = s.countErr (.mb mb)) ∧
  (∀ (s : State) (mb k val : Nat) (v : Svc), s.svc? k = some v → v.ph = .idle → s.mbPart mb = some v.part →
    (v.st ≠ .armed → s.svcBell mb k val = s.setSvc k { v with badDb := min 0xFF (v.badDb + 1) }) ∧
    (v.st = .armed → v.doorbellMode = false →
      (val = v.k % 2 ^ 32 → reached (s.ctr (v.ctrBase + v.counters)).toNat ((v.k + 1) * v.inInc) = false →
        s.svcBell mb k val = s.addCtr (v.ctrBase + v.counters) v.inInc) ∧
      (val ≠ v.k % 2 ^ 32 → s.svcBell mb k val = s.setSvc k { v with badDb := min 0xFF (v.badDb + 1) })) ∧
    (v.st = .armed → v.doorbellMode = true → v.heldDb = false → val = v.k % 2 ^ 32 →
      (v.started = false ∨ v.start + v.period ≤ s.tick → s.svcBell mb k val = s.svcStart k s.tick) ∧
      (v.started = true → s.tick < v.start + v.period → s.svcBell mb k val =
        s.setSvc k { v with heldDb := true, earlyDb := min 0xFF (v.earlyDb + 1) })))

/-- Power commands (R376, R381, R386 to R388): PW_CAP_SET, PW_ACCT_OWN, PW_ACCT_ASSIGN, PW_ACCT_READ,
PW_ACCT_CLEAR, PW_PREF_SET, PW_TENANT_STATUS and PW_GROUP_READ. -/
def Obligations.PowerCommands : Prop :=
  (∀ (mb : MbId) (s : State) (r : Req) (w : Nat), s.front mb.val 0x0701 1 true r → w = bitsOf (r.w 0) 10 0 →
    200 ≤ w → w ≤ 1500 →
    ∃ s2 : State, exec (.pwCapSet mb) s = .next (s2.waits r w s.tick) ∧ s2.reg .pw 0x004 = BitVec.ofNat 32 w ∧
      s2.con.unatt = [] ∧ (∀ (b : Blk) (o : Nat), regKey b o ≠ regKey .pw 0x004 → s2.reg b o = s.reg b o) ∧
      s2.groups = s.groups ∧ s2.jobs = s.jobs ∧ s2.devMem = s.devMem ∧ s2.hostMem = s.hostMem) ∧
  (∀ (mb : MbId) (s : State) (r : Req) (w : Nat), s.front mb.val 0x0701 1 true r → w = bitsOf (r.w 0) 10 0 →
    w < 200 ∨ 1500 < w → exec (.pwCapSet mb) s = .next ((s.takeReq mb.val).reply r stBadArg [])) ∧
  (∀ (mb : MbId) (s : State) (r : Req) (i o : Nat) (a : Acct), s.front mb.val 0x0710 1 true r → i = bitsOf (r.w 0) 7 0 →
    o = bitsOf (r.w 0) 11 8 → a = tabGet {} s.con.accts i → (o < 8 ∨ o = 15) → (a.kind = 1 → o = 15) →
    (s.iso o = true → a.owner ≠ o → (s.con.accts.filter (fun e => e.2.owner = o)).length < 32) →
    exec (.pwAcctOwn mb) s = .next (((s.takeReq mb.val).setAcct i { a with owner := o }).reply r stOk [])) ∧
  (∀ (mb : MbId) (s : State) (r : Req) (i kind first last : Nat) (a : Acct), s.front mb.val 0x0711 1 false r →
    i = bitsOf (r.w 0) 7 0 → kind = bitsOf (r.w 0) 10 8 → first = bitsOf (r.w 0) 31 16 → last = bitsOf (r.w 0) 47 32 →
    a = tabGet {} s.con.accts i → kind ≠ 7 → (kind = 1 → r.scope = none ∧ a.owner = 15) → (kind = 5 → first ≤ last) →
    (∀ p, r.scope = some p → a.owner = p ∧ s.acctTarget p kind first last = true) →
    exec (.pwAcctAssign mb) s =
      .next (((s.takeReq mb.val).setAcct i { a with kind := kind, first := first, last := last }).reply r stOk [])) ∧
  (∀ (mb : MbId) (s : State) (r : Req) (i : Nat) (a : Acct), i = bitsOf (r.w 0) 7 0 → a = tabGet {} s.con.accts i →
    (∀ p, r.scope = some p → a.owner = p) →
    (s.front mb.val 0x0712 1 false r → exec (.pwAcctRead mb) s =
      .next ((s.takeReq mb.val).reply r stOk (natLE 8 a.uj ++ natLE 1 a.kind ++ natLE 1 a.owner))) ∧
    (s.front mb.val 0x0713 1 false r → exec (.pwAcctClear mb) s =
      .next (((s.takeReq mb.val).setAcct i { a with uj := 0 }).reply r stOk (natLE 8 a.uj)))) ∧
  (∀ (mb : MbId) (s : State) (r : Req) (p q : Nat), r.scope = some p →
    (tabGet {} s.con.accts (bitsOf (r.w 0) 7 0)).owner = q → q ≠ p →
    (s.front mb.val 0x0712 1 false r → exec (.pwAcctRead mb) s = .next ((s.takeReq mb.val).reply r stNotPerm [])) ∧
    (s.front mb.val 0x0713 1 false r → exec (.pwAcctClear mb) s = .next ((s.takeReq mb.val).reply r stNotPerm []))) ∧
  (∀ (mb : MbId) (s : State) (r : Req) (p : Nat), s.front mb.val 0x0720 1 false r →
    p = (match r.scope with | some p => p | none => bitsOf (r.w 0) 2 0) →
    exec (.pwPrefSet mb) s =
      .next (((s.takeReq mb.val).setReg .pw (0x010 + 4 * p) (BitVec.ofNat 32 (bitsOf (r.w 0) 52 32))).reply r stOk [])) ∧
  (∀ (mb : MbId) (s : State) (r : Req) (x : Partn), s.front mb.val 0x0721 0 false r → x = (r.scope.bind s.part?).getD {} →
    exec (.pwTenantStatus mb) s = .next ((s.takeReq mb.val).reply r stOk
      (natLE 4 (flagAt x.extThrottle 0) ++ (if x.tjDie = [] then s.tjSeen x else x.tjDie).flatMap (natLE 1)))) ∧
  (∀ (mb : MbId) (s : State) (r : Req) (g : Nat), s.front mb.val 0x0722 1 false r → g = bitsOf (r.w 0) 4 0 →
    (r.scope = none ∨ s.groupPart g = r.scope) →
    exec (.pwGroupRead mb) s = .next ((s.takeReq mb.val).reply r stOk
      (natLE 4 (s.active .pw (0x100 + 4 * g)).toNat ++ natLE 4 (s.active .pw (0x200 + 8 * g)).toNat ++
       natLE 4 (s.active .pw (0x204 + 8 * g)).toNat)))

/-- How an operating point changes (R372, R374): PLL_LOCK, MUX_SWITCH, RAIL_SETTLE, SWITCH_ABANDON and
SWITCH_RETRY act on the group's change when their condition holds, and on nothing else. -/
def Obligations.OperatingPointChanges : Prop :=
  (∀ (g : GroupId) (s : State), (s.grp g.val).change = none ∨ s.grpOn g.val = false →
    exec (.pllLock g) s = .next s ∧ exec (.muxSwitch g) s = .next s ∧ exec (.railSettle g) s = .next s ∧
    exec (.switchAbandon g) s = .next s ∧ exec (.switchRetry g) s = .next s) ∧
  (∀ (g : GroupId) (s : State) (x : Group) (c : Change), x = s.grp g.val → x.change = some c → s.grpOn g.val = true →
    (c.pllLocked = false → exec (.pllLock g) s =
      .next (s.setGrp g.val (grpSettle { x with change := some { c with pllLocked := true } }))) ∧
    (c.pllLocked = true → exec (.pllLock g) s = .next s)) ∧
  (∀ (g : GroupId) (s : State) (x : Group) (c : Change), x = s.grp g.val → x.change = some c → s.grpOn g.val = true →
    c.switched = false → c.pllLocked = true → oppMv c.target ≤ x.mv → c.retryTick = none →
    (c.forced = true ∨ c.notice + 100 * s.rf .pw 0x000 23 16 ≤ s.tick) →
    (x.stretch = false → ∃ t : State, exec (.muxSwitch g) s = .next t ∧ (t.grp g.val).opp = c.target ∧
      (t.grp g.val).switches = (x.switches + 1) % 65536 ∧ (t.grp g.val).mv = x.mv ∧ (t.grp g.val).duty = x.duty ∧
      (∀ h, h ≠ g.val → t.grp h = s.grp h) ∧ t.cfg = s.cfg ∧ t.devMem = s.devMem ∧ t.jobs = s.jobs) ∧
    (x.stretch = true → exec (.muxSwitch g) s =
      .next (s.setGrp g.val { x with change := some { c with waitTick := some (c.waitTick.getD s.tick) } }))) ∧
  (∀ (g : GroupId) (s : State) (x : Group) (c : Change), x = s.grp g.val → x.change = some c → s.grpOn g.val = true →
    c.railTick ≤ s.tick → x.mv ≠ oppMv c.target → (c.switched = true ∨ x.mv < oppMv c.target) →
    ∃ t : State, exec (.railSettle g) s = .next t ∧ (t.grp g.val).mv = oppMv c.target ∧ (t.grp g.val).opp = x.opp ∧
      (c.switched = true → c.pllLocked = true → (t.grp g.val).change = none) ∧
      (∀ h, h ≠ g.val → t.grp h = s.grp h) ∧ t.cfg = s.cfg ∧ t.devMem = s.devMem ∧ t.jobs = s.jobs) ∧
  (∀ (g : GroupId) (s : State) (x : Group) (c : Change) (t : Nat), x = s.grp g.val → x.change = some c →
    s.grpOn g.val = true → c.waitTick = some t → c.forced = false → x.stretch = true → t + 200 ≤ s.tick →
    exec (.switchAbandon g) s = .next (s.setGrp g.val { x with
      abandon := (x.abandon + 1) % 65536, change := some { c with waitTick := none, retryTick := some (s.tick + 5000) } })) ∧
  (∀ (g : GroupId) (s : State) (x : Group) (c : Change) (t : Nat), x = s.grp g.val → x.change = some c →
    s.grpOn g.val = true → c.retryTick = some t → t ≤ s.tick →
    exec (.switchRetry g) s = .next (s.setGrp g.val { x with change := some { c with retryTick := none } }))

/-- Droop and duty (R373, R375): DROOP_DETECT, STRETCH_END and DUTY_FRAME of a group that is powered, and of one
that is not. -/
def Obligations.DroopAndDuty : Prop :=
  (∀ (g : GroupId) (d : Fin 16) (s : State), s.grpOn g.val = true →
    exec (.droopDetect g d) s = .next (s.setGrp g.val { s.grp g.val with stretch := true }) ∧
    exec (.dutyFrame g) s = .next (s.setGrp g.val { s.grp g.val with duty := (s.grp g.val).nextDuty })) ∧
  (∀ (g : GroupId) (d : Fin 16) (s : State), s.grpOn g.val = false →
    exec (.droopDetect g d) s = .next s ∧ exec (.dutyFrame g) s = .next s ∧ exec (.stretchEnd g) s = .next s) ∧
  (∀ (g : GroupId) (s : State), s.grpOn g.val = true → (s.grp g.val).stretch = true →
    ∃ (t : State) (n : Nat), exec (.stretchEnd g) s = .next t ∧ (t.grp g.val).stretch = false ∧
      (t.grp g.val).stretchCnt = ((s.grp g.val).stretchCnt + 64 + n) % 2 ^ 32 ∧ (t.grp g.val).opp = (s.grp g.val).opp ∧
      (∀ h, h ≠ g.val → t.grp h = s.grp h) ∧ t.cfg = s.cfg ∧ t.devMem = s.devMem ∧ t.jobs = s.jobs)

/-- CONTROL_INTERVAL and POWER_SAMPLE (R371, R376, R378, R386, R406): each interval takes the requested points and
the slew budgets anew; each sample enters the 2 ms average and the accounts. -/
def Obligations.PowerSampling : Prop :=
  (∀ (x : IntervalInput) (e : EnergyInput) (s : State), s.power.cp = false →
    exec (.controlInterval x) s = .next s ∧ exec (.powerSample e) s = .next s) ∧
  (∀ (x : IntervalInput) (s : State), s.power.cp = true →
    ∃ t : State, exec (.controlInterval x) s = .next t ∧ t.con.coeffGen = s.con.coeffGen + 1 ∧ t.con.partUj = [] ∧
      (∀ g, g < 32 → s.grpOn g = true → (t.grp g).req = s.request g (x.phaseCores.getD g [])) ∧
      (∀ d, d < 4 → (t.die d).effective =
        if (s.die d).lowHeadroom then s.rf .iv (0x010 + 4 * d) 7 0 / 2 else s.rf .iv (0x010 + 4 * d) 7 0) ∧
      (s.power.pwrbrk = true → ∀ g, (t.grp g).change = (s.grp g).change ∧ (t.grp g).nextDuty = (s.grp g).nextDuty) ∧
      t.jobs = s.jobs ∧ t.counters = s.counters) ∧
  (∀ (e : EnergyInput) (s : State), s.power.cp = true →
    ∃ t : State, exec (.powerSample e) s = .next t ∧ t.con.samples = e.watts :: s.con.samples.take 199 ∧
      t.con.avgW = average (e.watts :: s.con.samples.take 199) ∧
      (∀ i, tabFind t.con.accts i =
        (tabFind s.con.accts i).map (fun a => { a with uj := (a.uj + acctShare e a) % 2 ^ 64 })) ∧
      (∀ d, d < 4 → (t.die d).watts = e.dieWatts.getD d 0) ∧ t.groups = s.groups ∧ t.cfg = s.cfg ∧
      t.jobs = s.jobs ∧ t.devMem = s.devMem)

/-- PWRBRK_N (R382, R485): PWRBRK_ASSERT takes every powered group to OPP7 at duty 1 and every die's memory and
links to 4/8, and marks the periods that run; PWRBRK_RELEASE ends it. -/
def Obligations.PowerBrake : Prop :=
  (∀ s : State, (s.power.pwrbrk = true → exec .pwrbrkAssert s = .next s) ∧
    (s.power.pwrbrk = false → exec .pwrbrkRelease s = .next s)) ∧
  (∀ s : State, s.power.pwrbrk = false → s.power.cp = true →
    ∃ t : State, exec .pwrbrkAssert s = .next t ∧ t.power.pwrbrk = true ∧ t.power.brkTick = s.tick ∧
      (∀ g, g < 32 → s.power.pdG.testBit g = true → grpTarget (t.grp g) = 7 ∧ (t.grp g).nextDuty = 1) ∧
      (∀ d, d < 4 → (t.die d).memDuty = 4 ∧ (t.die d).linkDuty = 4) ∧
      (∀ (k : Nat) (v : Svc), s.svc? k = some v → v.ph ≠ .idle → v.blocks ≠ [] →
        ∃ y, t.svc? k = some y ∧ y.lapse = true) ∧ t.cfg = s.cfg ∧ t.jobs = s.jobs ∧ t.devMem = s.devMem) ∧
  (∀ s : State, s.power.pwrbrk = false → s.power.cp = false →
    ∃ t : State, exec .pwrbrkAssert s = .next t ∧ t.power.pwrbrk = true ∧ t.power.brkTick = s.tick ∧
      (∀ g, g < 32 → s.power.pdG.testBit g = true → (t.grp g).duty = 1 ∧ (t.grp g).nextDuty = 1) ∧ t.bu = s.bu) ∧
  (∀ s : State, s.power.pwrbrk = true → s.power.cp = true →
    exec .pwrbrkRelease s = .next { s with power := { s.power with pwrbrk := false } }) ∧
  (∀ s : State, s.power.pwrbrk = true → s.power.cp = false →
    ∃ t : State, exec .pwrbrkRelease s = .next t ∧ t.power.pwrbrk = false ∧
      (∀ g, g < 32 → s.power.pdG.testBit g = true → (t.grp g).duty = 8 ∧ (t.grp g).nextDuty = 8) ∧
      (s.bu.result = 1 → t.bu.startTick = s.bu.startTick + (s.tick - max s.power.brkTick s.bu.startTick)) ∧
      (s.bu.result ≠ 1 → t.bu = s.bu))

/-- Heat (R383, R384, R388): THERMAL_SAMPLE takes the readings, throttles hot groups until they have cooled, and
trips at 110 degrees on a die and 105 on a memory device; EXTERNAL_THROTTLE closes a partition's window. -/
def Obligations.ThermalEvents : Prop :=
  (∀ (r : TempReading) (s : State), s.power.tripped = true ∨ s.power.pdFab = 0 → exec (.thermalSample r) s = .next s) ∧
  (∀ (r : TempReading) (s : State), s.power.tripped = false → s.power.pdFab ≠ 0 → s.power.cp = false →
    listMax r.die < 880 → listMax r.mem < 840 → exec (.thermalSample r) s = .next (s.takeTemps r)) ∧
  (∀ (r : TempReading) (s : State), s.power.tripped = false → s.power.pdFab ≠ 0 →
    ∃ t : State, exec (.thermalSample r) s = .next t ∧
      (880 ≤ listMax r.die → t.power.tripped = true ∧ t.power.therm = true ∧ t.bu.tripDie = true ∧
        t.bu.tripTemp = listMax r.die) ∧
      (listMax r.die < 880 → 840 ≤ listMax r.mem → t.power.tripped = true ∧ t.power.therm = true ∧ t.bu.tripMem = true ∧
        t.bu.tripTemp = listMax r.mem) ∧
      (listMax r.die < 880 → listMax r.mem < 840 → t.power.tripped = false ∧ t.power.therm = s.power.therm ∧
        t.bu = s.bu) ∧
      (s.power.cp = true → (∀ d, d < 4 → (t.die d).tempHot = listMax ((r.die.drop (32 * d)).take 32)) ∧
        (∀ g, g < 32 → s.power.pdG.testBit g = true →
          (800 ≤ listMax (grpTemps r g) → tabGet false t.con.groupThrottle g = true) ∧
          (listMax (grpTemps r g) ≤ 776 → tabGet false t.con.groupThrottle g = false) ∧
          (776 < listMax (grpTemps r g) → listMax (grpTemps r g) < 800 →
            tabGet false t.con.groupThrottle g = tabGet false s.con.groupThrottle g))) ∧
      t.jobs = s.jobs ∧ t.counters = s.counters) ∧
  (∀ (p : PartId) (s : State), s.part? p.val = none ∨ s.power.cp = false → exec (.externalThrottle p) s = .next s) ∧
  (∀ (p : PartId) (s : State) (x : Partn), s.part? p.val = some x → s.power.cp = true →
    ∃ (t : State) (y : Partn), exec (.externalThrottle p) s = .next t ∧ t.part? p.val = some y ∧
      y.extThrottle = x.extNow ∧ y.tjDie = s.tjSeen x ∧ y.groups = x.groups ∧ t.jobs = s.jobs ∧ t.cfg = s.cfg)

/-- The transport commands (R340, R347, R348, R352, R360 to R364, R367): addresses, queue pairs, posting, triggers
and regions. -/
def Obligations.TransportCommands : Prop :=
  (∀ (mb : MbId) (s q : State) (r : Req) (i : Nat), s.front mb.val 0x0810 4 true r → q = s.takeReq mb.val →
    i = bitsOf (r.w 0) 3 0 → s.subExists i = true →
    exec (.xpAddrSet mb) s = .next (State.reply { q with xp := { s.xp with
      addr4 := if (r.w 0).testBit 8 then s.xp.addr4 else tabSet s.xp.addr4 i (bitsOf (r.w 1) 31 0)
      addr6 := if (r.w 0).testBit 8 then tabSet s.xp.addr6 i (natLE 8 (r.w 1) ++ natLE 8 (r.w 2)) else s.xp.addr6
      hop := tabSet s.xp.hop i (bitsOf (r.w 3) 47 0) } } r stOk [])) ∧
  (∀ (mb : MbId) (s : State) (r : Req) (x : Job) (n sq lg mask : Nat), s.front mb.val 0x0818 3 false r →
    s.job? (bitsOf (r.w 0) 15 0) = some x → (r.scope = none ∨ r.scope = some x.part) →
    mask = bitsOf (r.w 0) 63 48 → mask ≠ 0 → (∀ i ∈ maskSubs mask, s.subExists i = true) →
    bitsOf (r.w 0) 23 22 ≠ 3 → lg = bitsOf (r.w 2) 3 0 → 6 ≤ lg → lg ≤ 12 → (r.w 1).testBit 63 = false →
    sq = addrOf (r.w 1) → sq % 4096 = 0 → s.span (some x.part) sq (64 * 2 ^ lg) = .ok →
    tabFind x.keys (bitsOf (r.w 0) 21 16) ≠ none →
    ((r.w 0).testBit 24 = true → s.pinFull x.part = false) → s.freeQpn x.part = some n →
    ∃ (s2 : State) (q : Qp), exec (.xpQpCreate mb) s = .next (s2.reply r stOk (natLE 2 n)) ∧ s2.qp? n = some q ∧
      q.st = .init ∧ q.job = bitsOf (r.w 0) 15 0 ∧ q.part = x.part ∧ q.peer = bitsOf (r.w 0) 21 16 ∧
      q.cls = bitsOf (r.w 0) 23 22 ∧ q.pin = (r.w 0).testBit 24 ∧ q.npath = bitsOf (r.w 0) 39 32 + 1 ∧
      q.mask = mask ∧ q.sqBase = sq ∧ q.sqLog2 = lg ∧ q.epoch = x.epoch ∧ q.sqProd = 0 ∧ q.sqCons = 0 ∧ q.wrs = [] ∧
      s2.jobs = s.jobs ∧ s2.xp.regions = s.xp.regions ∧ s2.xp.triggers = s.xp.triggers ∧ s2.devMem = s.devMem ∧
      s2.hostMem = s.hostMem) ∧
  (∀ (mb : MbId) (s : State) (r : Req) (a : List Byte) (x : Job) (q : Qp) (n : Nat), s.frontArg mb.val 0x0819 2 false r a →
    n = bitsOf (r.w 0) 15 0 → s.qp? n = some q → (r.scope = none ∨ r.scope = some q.part) → s.job? q.job = some x →
    q.st = .init → x.epoch = q.epoch → tabFind x.keys q.peer ≠ none →
    a.length = roundUp (16 * (maskSubs q.mask).length) 8 →
    ∃ (s2 : State) (q2 : Qp), exec (.xpQpConnect mb) s = .next (s2.reply r stOk []) ∧ s2.qp? n = some q2 ∧
      q2 = { q with
        st := .rts, peerQpn := bitsOf (r.w 1) 15 0, key := some (connKey x q n (bitsOf (r.w 1) 15 0))
        rate := s.rateMax q, addrs := (upTo (maskSubs q.mask).length).map (fun i => (a.drop (16 * i)).take 16) } ∧
      (∀ k, k ≠ n → s2.qp? k = s.qp? k) ∧ s2.devMem = s.devMem ∧ s2.hostMem = s.hostMem ∧ s2.counters = s.counters) ∧
  (∀ (mb : MbId) (s : State) (r : Req) (q : Qp) (n : Nat), s.front mb.val 0x081A 1 false r → n = bitsOf (r.w 0) 15 0 →
    s.qp? n = some q → (r.scope = none ∨ r.scope = some q.part) →
    (q.wrs = [] → q.unacked = [] → ∃ s2 : State, exec (.xpQpDestroy mb) s = .next (s2.reply r stOk []) ∧
      s2.qp? n = none ∧ (∀ k, k ≠ n → s2.qp? k = s.qp? k) ∧ tabFind s2.xp.retired n = some (q.job, q.epoch) ∧
      s2.jobs = s.jobs ∧ s2.devMem = s.devMem ∧ s2.hostMem = s.hostMem) ∧
    (q.wrs ≠ [] ∨ q.unacked ≠ [] → exec (.xpQpDestroy mb) s =
      .next (((s.takeReq mb.val).setQp n { q with dying := true }).waits r n 0))) ∧
  (∀ (mb : MbId) (s : State) (r : Req) (q : Qp) (n : Nat), s.front mb.val 0x081B 1 false r → n = bitsOf (r.w 0) 15 0 →
    s.qp? n = some q → (r.scope = none ∨ r.scope = some q.part) →
    exec (.xpQpQuery mb) s = .next ((s.takeReq mb.val).reply r stOk
      (natLE 1 (match q.st with | .init => 0 | .rts => 1 | .error => 2) ++ natLE 1 q.cause ++ natLE 2 q.sqCons ++
       natLE 4 q.rate ++ natLE 4 (q.srtt.getD 0) ++ natLE 1 (s.upPaths q).length ++ natLE 1 (flagAt q.cached 0)))) ∧
  (∀ (mb : MbId) (s : State) (r : Req) (q : Qp) (n prod m d0 d1 : Nat), s.front mb.val 0x0820 1 false r →
    n = bitsOf (r.w 0) 15 0 → prod = bitsOf (r.w 0) 28 16 → s.qp? n = some q →
    (r.scope = none ∨ r.scope = some q.part) → q.st = .rts → m = 2 ^ (q.sqLog2 + 1) → prod < m →
    d0 = (q.sqProd + m - q.sqCons) % m → d1 = (prod + m - q.sqCons) % m → d0 ≤ d1 → d1 ≤ 2 ^ q.sqLog2 →
    (∀ i, i < d1 - d0 → s.devRead (q.sqBase + 64 * ((q.sqProd + i) % 2 ^ q.sqLog2)) 64 ≠ none) →
    ∃ (s2 : State) (q2 : Qp), exec (.xpPost mb) s = .next (s2.reply r stOk []) ∧ s2.qp? n = some q2 ∧ q2.sqProd = prod ∧
      q2.sqCons = q.sqCons ∧ q2.wrs.length = q.wrs.length + (d1 - d0) ∧ q2.wrs.take q.wrs.length = q.wrs ∧
      (∀ i bs, i < d1 - d0 → s.devRead (q.sqBase + 64 * ((q.sqProd + i) % 2 ^ q.sqLog2)) 64 = some bs →
        (q2.wrs[q.wrs.length + i]?).map (·.w) = some (wqeWords bs)) ∧
      (∀ k, k ≠ n → s2.qp? k = s.qp? k) ∧ s2.devMem = s.devMem ∧ s2.hostMem = s.hostMem ∧ s2.counters = s.counters) ∧
  (∀ (mb : MbId) (s : State) (r : Req) (a : List Byte) (b k : Nat), s.frontArg mb.val 0x0821 0 false r a →
    a.length = 64 * k → 1 ≤ k → k ≤ 256 → s.freeTrigs (s.trigPart r.scope (wq (wqeWords (a.take 64)) 7 47 32)) k = some b →
    (∀ i, i < k → ∃ q, wqeOk (wq (wqeWords ((a.drop (64 * i)).take 64)) 7 47 32) (wqeWords ((a.drop (64 * i)).take 64)) = true ∧
      wq (wqeWords ((a.drop (64 * i)).take 64)) 5 15 14 = 0 ∧
      s.qp? (wq (wqeWords ((a.drop (64 * i)).take 64)) 7 47 32) = some q ∧ q.st = .rts ∧
      (r.scope = none ∨ r.scope = some q.part)) →
    ∃ s2 : State, exec (.xpTrigPost mb) s = .next (s2.reply r stOk (natLE 4 b)) ∧
      (∀ i w, i < k → w = wqeWords ((a.drop (64 * i)).take 64) →
        tabFind s2.xp.triggers (b + i) = some ⟨w, wq w 5 13 0, wq w 5 47 16, wq w 5 63 48, true⟩) ∧
      (∀ n, n < b ∨ b + k ≤ n → tabFind s2.xp.triggers n = tabFind s.xp.triggers n) ∧ s2.xp.qps = s.xp.qps ∧
      s2.jobs = s.jobs ∧ s2.devMem = s.devMem ∧ s2.hostMem = s.hostMem ∧ s2.counters = s.counters) ∧
  (∀ (mb : MbId) (s : State) (r : Req) (b k : Nat), s.front mb.val 0x0822 1 false r → b = bitsOf (r.w 0) 15 0 →
    k = bitsOf (r.w 0) 31 16 →
    (∀ i, i < k → ∃ t q, tabFind s.xp.triggers (b + i) = some t ∧ s.qp? (wq t.w 7 47 32) = some q ∧
      (r.scope = none ∨ r.scope = some q.part)) →
    ∃ s2 : State, exec (.xpTrigCancel mb) s = .next (s2.reply r stOk []) ∧
      (∀ i, i < k → tabFind s2.xp.triggers (b + i) = none) ∧
      (∀ n, n < b ∨ b + k ≤ n → tabFind s2.xp.triggers n = tabFind s.xp.triggers n) ∧ s2.xp.qps = s.xp.qps ∧
      s2.jobs = s.jobs ∧ s2.devMem = s.devMem ∧ s2.hostMem = s.hostMem ∧ s2.counters = s.counters) ∧
  (∀ (mb : MbId) (s q : State) (r : Req) (x : Job) (j a len i g : Nat) (rg : XpRegion), s.front mb.val 0x0828 3 false r →
    j = bitsOf (r.w 2) 15 0 → s.job? j = some x → (r.scope = none ∨ r.scope = some x.part) →
    (r.w 0).testBit 63 = false → a = addrOf (r.w 0) → len = bitsOf (r.w 1) 39 0 → a % 4096 = 0 → len % 4096 = 0 →
    len ≠ 0 → s.span (some x.part) a len = .ok → s.freeRegion x.part = some i →
    g = ((tabGet {} s.xp.regions i).gen + 1) % 2 ^ 18 →
    rg = ⟨true, false, g, j, x.part, a, len, (r.w 2).testBit 16, (r.w 2).testBit 17⟩ → q = s.takeReq mb.val →
    exec (.xpReg mb) s =
      .next (State.reply { q with xp := { s.xp with regions := tabSet s.xp.regions i rg } } r stOk
        (natLE 4 (i * 2 ^ 18 + g)))) ∧
  (∀ (mb : MbId) (s q : State) (r : Req) (key i : Nat) (rg rv : XpRegion), s.front mb.val 0x0829 1 false r →
    key = bitsOf (r.w 0) 31 0 → i = key / 2 ^ 18 → rg = tabGet {} s.xp.regions i → rg.valid = true →
    rg.gen = key % 2 ^ 18 → (r.scope = none ∨ r.scope = some rg.part) →
    rv = { rg with valid := false, revoking := true } → q = s.takeReq mb.val →
    exec (.xpRevoke mb) s =
      .next (State.waits { q with xp := { s.xp with regions := tabSet s.xp.regions i rv } } r i 0)) ∧
  (∀ (n : Nat) (s : State) (rg rv : XpRegion), tabFind s.xp.regions n = some rg → rg.revoking = true →
    rv = { rg with revoking := false } →
    exec (.revokeDrained n) s =
      .next (State.answerWhere { s with xp := { s.xp with regions := tabSet s.xp.regions n rv } }
        (fun w => w.op = 0x0829 && w.what = n) stOk []))

/-- Packets that arrive (R343, R346, R353 to R360, R472, R473): what each of the nine types does on a cached queue
pair in RTS. -/
def Obligations.PacketsArrive : Prop :=
  (∀ (i : SubId) (s : State) (p : Packet) (q : Qp) (a : Nat), s.rxFront i.val 1 p q → s.jobsRising →
    psnSeen q p.psn = false → psnOff p.psn q.cum < 1024 → s.rkeyAddr q p.rkey p.taddr p.payload.length true = some a →
    s.rctrBad q p = false →
    ∃ t : State, exec (.xpWrite i) s = .next t ∧ t.devMem.readN a p.payload.length = p.payload ∧
      (∀ c, c < a ∨ a + p.payload.length ≤ c → t.devMem.read c = s.devMem.read c) ∧ t.hostMem = s.hostMem ∧
      t.xp.regions = s.xp.regions ∧ t.xp.triggers = s.xp.triggers) ∧
  (∀ (i : SubId) (s : State) (p : Packet) (q : Qp), s.rxFront i.val 1 p q → s.jobsRising → psnSeen q p.psn = false →
    psnOff p.psn q.cum < 1024 → s.rkeyAddr q p.rkey p.taddr p.payload.length true = none →
    ∃ t : State, exec (.xpWrite i) s = .next t ∧ t.devMem = s.devMem ∧ t.hostMem = s.hostMem ∧
      t.counters = s.counters ∧ t.xp.regions = s.xp.regions) ∧
  (∀ (i : SubId) (s : State) (p : Packet) (q : Qp), s.rxFront i.val 4 p q → s.jobsRising → p.psn = q.cum →
    q.cum < 2 ^ 32 → q.placed = [] → q.msgs = [] → p.msgPkts = 1 → p.msgPsn0 = p.psn → p.msn = q.rmsn →
    p.rctrEn = true → s.rctrBad q p = false →
    ∃ (t : State) (q2 : Qp), exec (.xpAdd i) s = .next t ∧
      (t.ctr p.rctr).toNat = ((s.ctr p.rctr).toNat + p.rinc) % 2 ^ 64 ∧ (∀ c, c ≠ p.rctr → t.ctr c = s.ctr c) ∧
      t.qp? p.dstQpn = some q2 ∧ q2.cum = (q.cum + 1) % 2 ^ 32 ∧ q2.rmsn = (q.rmsn + 1) % 2 ^ 32 ∧ q2.placed = [] ∧
      q2.msgs = [] ∧ t.devMem = s.devMem ∧ t.hostMem = s.hostMem ∧ (∀ k, k ≠ p.dstQpn → t.qp? k = s.qp? k)) ∧
  (∀ (i : SubId) (s : State) (p : Packet) (q : Qp) (a m n : Nat) (bs : List Byte), s.rxFront i.val 2 p q →
    s.jobsRising → s.rkeyAddr q p.rkey p.taddr (leAt p.payload 8 8) false = some a → s.rctrBad q p = false →
    s.devRead a (leAt p.payload 8 8) = some bs → m = s.mtu q → n = ceilDiv (leAt p.payload 8 8) m →
    ∃ (t : State) (q2 : Qp), exec (.xpReadReq i) s = .next t ∧ t.qp? p.dstQpn = some q2 ∧
      q2.resp.length = q.resp.length + n ∧ q2.resp.take q.resp.length = q.resp ∧
      (∀ k, k < n → (q2.resp[q.resp.length + k]?).map (fun x => (x.typ, x.psn, x.msn, x.msgPkts, x.taddr, x.payload)) =
        some (3, k, p.msn, n, leAt p.payload 0 8 + k * m, (bs.drop (k * m)).take m)) ∧
      t.devMem = s.devMem ∧ t.hostMem = s.hostMem ∧ t.counters = s.counters) ∧
  (∀ (i : SubId) (s : State) (p : Packet) (q : Qp) (w : Wr) (lo len : Nat), s.rxFront i.val 3 p q → q.wrs = [w] →
    q.dying = false → w.started = true → wqOp w.w = 2 → w.num % 2 ^ 32 = p.msn → w.readGot.contains p.psn = false →
    lo = wq w.w 1 47 0 → len = wq w.w 2 39 0 → lo ≤ p.taddr → p.taddr + p.payload.length ≤ lo + len →
    w.w.getD 6 0 = 0 →
    ∃ (t : State) (q2 : Qp), exec (.xpReadResp i) s = .next t ∧
      t.devMem.readN p.taddr p.payload.length = p.payload ∧
      (∀ c, c < p.taddr ∨ p.taddr + p.payload.length ≤ c → t.devMem.read c = s.devMem.read c) ∧
      t.hostMem = s.hostMem ∧ t.qp? p.dstQpn = some q2 ∧
      (p.payload.length < w.readLeft → t.counters = s.counters ∧ q2.wrs =
        [{ w with readGot := p.psn :: w.readGot, readLeft := w.readLeft - p.payload.length }]) ∧
      (w.readLeft ≤ p.payload.length → q2.wrs = [] ∧ (wq w.w 0 47 32 = 0 → t.counters = s.counters) ∧
        (wq w.w 0 47 32 ≠ 0 → (t.ctr (wq w.w 0 29 16)).toNat =
          ((s.ctr (wq w.w 0 29 16)).toNat + wq w.w 0 47 32) % 2 ^ 64))) ∧
  (∀ (i : SubId) (s : State) (p : Packet) (q : Qp) (w : Wr) (u : Unacked) (a : Nat), s.rxFront i.val 5 p q →
    q.wrs = [w] → q.unacked = [u] → q.dying = false → u.wr = w.num → 2 ^ 31 ≤ psnOff u.pkt.psn (leAt p.payload 0 4) →
    w.started = true → (wqOp w.w = 1 ∨ wqOp w.w = 3) → w.toSend = [] → w.outstanding = 1 → a = w.w.getD 6 0 →
    ∃ (t : State) (q2 : Qp), exec (.xpAck i) s = .next t ∧ t.qp? p.dstQpn = some q2 ∧ q2.wrs = [] ∧ q2.unacked = [] ∧
      (a = 0 ∨ s.span (some q.part) (addrOf a) 16 ≠ .ok → t.devMem = s.devMem) ∧
      (a ≠ 0 → s.span (some q.part) (addrOf a) 16 = .ok → t.devMem.readN (addrOf a) 16 =
        natLE 2 0 ++ natLE 2 p.dstQpn ++ natLE 4 (w.w.getD 7 0) ++ natLE 8 (wq w.w 2 39 0)) ∧
      (wq w.w 0 47 32 = 0 → t.counters = s.counters) ∧
      (wq w.w 0 47 32 ≠ 0 → (t.ctr (wq w.w 0 29 16)).toNat =
        ((s.ctr (wq w.w 0 29 16)).toNat + wq w.w 0 47 32) % 2 ^ 64)) ∧
  (∀ (i : SubId) (s : State) (p : Packet) (q : Qp), s.rxFront i.val 6 p q →
    ∃ t : State, exec (.xpNak i) s = .next t ∧
      (∀ q2, t.qp? p.dstQpn = some q2 → q2.st = .error ∧ q2.wrs = [] ∧ q2.unacked = [])) ∧
  (∀ (i : SubId) (s : State) (p : Packet) (q : Qp), s.rxFront i.val 7 p q → (s.sub (pathSub q p.path)).link = true →
    ∃ (t : State) (q2 : Qp) (f : TxFrame) (old : List TxFrame), exec (.xpProbe i) s = .next t ∧
      (t.sub (pathSub q p.path)).txQ = old ++ [f] ∧ f.cls = 3 ∧
      f.packet.map (fun x => (x.typ, x.dstQpn, x.path, x.txc, x.payload)) =
        some (8, q.peerQpn, p.path, q.txc, natLE 8 p.txc) ∧
      t.qp? p.dstQpn = some q2 ∧ q2.txc = q.txc + 1 ∧ t.devMem = s.devMem ∧ t.hostMem = s.hostMem ∧
      t.counters = s.counters) ∧
  (∀ (i : SubId) (s : State) (p : Packet) (q : Qp) (e : Nat × Nat × Nat), s.rxFront i.val 8 p q →
    q.probes.find? (fun e => e.2.1 = leAt p.payload 0 8) = some e →
    ∃ (t : State) (q2 : Qp), exec (.xpProbeReply i) s = .next t ∧ t.qp? p.dstQpn = some q2 ∧
      q2.strikes = q.strikes.filter (fun j => j ≠ e.1) ∧
      q2.down = (if (s.sub (pathSub q e.1)).link then q.down.filter (fun j => j ≠ e.1) else q.down) ∧
      q2.st = .rts ∧ t.devMem = s.devMem ∧ t.hostMem = s.hostMem ∧ t.counters = s.counters) ∧
  (∀ (i : SubId) (s : State) (p : Packet) (q : Qp) (x : Job), s.rxFront i.val 9 p q → s.jobsRising →
    s.job? q.job = some x →
    (leAt p.payload 0 1 ≠ 2 ∨ leAt p.payload 4 4 ≠ p.epoch ∨ jobRuns x = false →
      ∃ (t : State) (y : Job), exec (.xpCtrl i) s = .next t ∧ t.job? q.job = some y ∧ y.st = x.st ∧
        (p.epoch = x.epoch → tabFind y.heard q.peer = some s.tick) ∧ t.devMem = s.devMem ∧ t.hostMem = s.hostMem ∧
        t.counters = s.counters) ∧
    (leAt p.payload 0 1 = 2 → leAt p.payload 4 4 = p.epoch → jobRuns x = true →
      ∃ t : State, exec (.xpCtrl i) s = .next t ∧ (∀ y, t.job? q.job = some y → y.st = .fenced ∧
        y.fault.map (fun f => (f.cause, f.origin, f.originCause, f.epoch, f.step, f.tick)) =
          some (0x0C, leAt p.payload 2 1, leAt p.payload 1 1, x.epoch, x.step, s.tick))))

/-- What the transport does in its own time (R345, R346, R349 to R357, R362, R363, R471, R472): starting a work
request, sending its packets, acknowledging, retrying, probing, fetching a context, triggers and keepalives. -/
def Obligations.TransportWork : Prop :=
  (∀ (n len m : Nat) (s : State) (q : Qp) (w : Wr), s.qp? n = some q → q.st = .rts → q.cached = true → q.wrs = [w] →
    w.started = false → w.body = none → wqeOk n w.w = true → s.wqeLocal q w.w (!w.ring) = true → wqOp w.w = 1 →
    len = wq w.w 2 39 0 → m = s.mtu q →
    ∃ (t : State) (q2 : Qp) (w2 : Wr), exec (.wrStart n) s = .next t ∧ t.qp? n = some q2 ∧ q2.wrs = [w2] ∧
      w2.started = true ∧ w2.msn = q.msn ∧ w2.toSend.length = max 1 (ceilDiv len m) ∧
      (∀ k, k < max 1 (ceilDiv len m) → (w2.toSend[k]?).map (fun p => (p.typ, p.psn, p.msn, p.msgPsn0, p.taddr, p.rkey)) =
        some (1, (q.psn + k) % 2 ^ 32, q.msn, q.psn, wq w.w 3 47 0 + k * m, wq w.w 4 31 0)) ∧
      q2.psn = (q.psn + max 1 (ceilDiv len m)) % 2 ^ 32 ∧ q2.msn = (q.msn + 1) % 2 ^ 32 ∧
      (w.ring = true → q2.sqCons = (q.sqCons + 1) % 2 ^ (q.sqLog2 + 1)) ∧ (w.ring = false → q2.sqCons = q.sqCons) ∧
      (∀ k, k ≠ n → t.qp? k = s.qp? k) ∧ t.devMem = s.devMem ∧ t.hostMem = s.hostMem ∧ t.counters = s.counters) ∧
  (∀ (n : Nat) (s : State) (q : Qp) (w : Wr), s.qp? n = some q → q.st = .rts → q.cached = true → q.wrs = [w] →
    q.dying = false → w.started = false → w.body = none → wqeOk n w.w = true → s.wqeLocal q w.w (!w.ring) = true →
    wqOp w.w = 0 → w.w.getD 6 0 = 0 →
    ∃ (t : State) (q2 : Qp), exec (.wrStart n) s = .next t ∧ t.qp? n = some q2 ∧ q2.wrs = [] ∧ q2.psn = q.psn ∧
      t.devMem = s.devMem ∧ t.hostMem = s.hostMem ∧ (wq w.w 0 47 32 ≠ 0 → (t.ctr (wq w.w 0 29 16)).toNat =
        ((s.ctr (wq w.w 0 29 16)).toNat + wq w.w 0 47 32) % 2 ^ 64)) ∧
  (∀ (n j off : Nat) (s : State) (q : Qp) (w : Wr) (p : Packet) (rest : List Packet) (bs : List Byte),
    s.qp? n = some q → q.st = .rts → q.cached = true → s.nextPath q q.lastPath = some j → q.resp = [] →
    q.wrs = [w] → w.toSend = p :: rest → q.unacked = [] → p.typ = 1 → w.body = none → off = p.taddr - wq w.w 3 47 0 →
    0 < wq w.w 2 39 0 - off → s.devRead (wq w.w 1 47 0 + off) (min (s.mtu q) (wq w.w 2 39 0 - off)) = some bs →
    ∃ (t : State) (q2 : Qp) (u : Unacked) (f : TxFrame), exec (.dataPacketSend n) s = .next t ∧ t.qp? n = some q2 ∧
      q2.unacked = [u] ∧ u.pkt = { p with payload := bs, path := j, txc := q.txc } ∧ u.path = j ∧ u.sentTick = s.tick ∧
      u.rto = qpRto q ∧ u.tries = 0 ∧ u.wr = w.num ∧ q2.lastPath = j ∧ q2.txc = q.txc + 1 ∧
      q2.wrs.map (·.toSend) = [rest] ∧ (t.sub (pathSub q j)).txQ = (s.sub (pathSub q j)).txQ ++ [f] ∧
      f.packet = some u.pkt ∧ f.cls = q.cls ∧ t.devMem = s.devMem ∧ t.hostMem = s.hostMem ∧ t.counters = s.counters) ∧
  (∀ (n t0 i : Nat) (s : State) (q : Qp), s.qp? n = some q → q.st = .rts → q.ackTick = some t0 → t0 + 100 ≤ s.tick →
    i = pathSub q (s.ctlPath q) → (s.sub i).link = true →
    ∃ (t : State) (q2 : Qp) (f : TxFrame), exec (.ackTimer n) s = .next t ∧ t.qp? n = some q2 ∧ q2.ackTick = none ∧
      q2.newCnt = 0 ∧ q2.ece = 0 ∧ (t.sub i).txQ = (s.sub i).txQ ++ [f] ∧ f.cls = 3 ∧
      f.packet.map (fun p => (p.typ, p.payload.take 16)) =
        some (5, natLE 4 q.cum ++ natLE 2 q.ece ++ natLE 2 q.newCnt ++ natLE 8 q.echo) ∧
      t.devMem = s.devMem ∧ t.hostMem = s.hostMem ∧ t.counters = s.counters) ∧
  (∀ (n j : Nat) (s : State) (q : Qp) (u : Unacked), s.qp? n = some q → q.st = .rts → q.unacked = [u] →
    u.rto ≤ nsSince s.tick u.sentTick → u.tries < s.retryLimit q → q.strikes.contains u.path = false →
    s.nextPath q u.path = some j →
    ∃ (t : State) (q2 : Qp) (f : TxFrame), exec (.rtoExpire n) s = .next t ∧ t.qp? n = some q2 ∧
      q2.unacked = [⟨{ u.pkt with retx := true, path := j, txc := q.txc }, j, s.tick, 2 * u.rto, u.tries + 1, u.wr⟩] ∧
      q2.strikes = u.path :: q.strikes ∧ (t.sub (pathSub q j)).txQ = (s.sub (pathSub q j)).txQ ++ [f] ∧
      f.packet = some { u.pkt with retx := true, path := j, txc := q.txc } ∧ t.devMem = s.devMem ∧
      t.hostMem = s.hostMem ∧ t.counters = s.counters) ∧
  (∀ (n : Nat) (s : State) (q : Qp) (u : Unacked), s.qp? n = some q → q.st = .rts → q.unacked = [u] →
    u.rto ≤ nsSince s.tick u.sentTick → s.retryLimit q ≤ u.tries →
    exec (.rtoExpire n) s = .next (s.qpFail n 3 (some u.wr))) ∧
  (∀ (n j : Nat) (s : State) (q : Qp), s.qp? n = some q → q.st = .rts → j < q.npath →
    (s.pathDown q j = true ∨ q.unacked ≠ []) → (∀ e ∈ q.probes, e.1 = j → e.2.2 + 10000 ≤ s.tick) →
    ∃ (t : State) (q2 : Qp), exec (.pathProbe n j) s = .next t ∧ t.qp? n = some q2 ∧
      q2.probes.head? = some (j, q.txc, s.tick) ∧ q2.txc = q.txc + 1 ∧ t.devMem = s.devMem ∧ t.hostMem = s.hostMem ∧
      t.counters = s.counters) ∧
  (∀ (n : Nat) (s : State) (q : Qp), s.qp? n = some q → q.cached = false →
    s.cacheFull q.part = false → s.xp.miss = [] →
    ∃ t : State, exec (.contextFetch n) s = .next t ∧
      t.qp? n = some { q with cached := true, lru := s.xp.nextLru } ∧ (∀ k, k ≠ n → t.qp? k = s.qp? k) ∧
      t.xp.nextLru = s.xp.nextLru + 1 ∧ t.devMem = s.devMem ∧ t.hostMem = s.hostMem ∧ t.counters = s.counters) ∧
  (∀ (n k : Nat) (s : State) (g : Trigger) (q : Qp), tabFind s.xp.triggers n = some g → s.trigReady g = true →
    (∀ e ∈ s.xp.triggers, e.1 < n → e.2.ctr = g.ctr → s.trigReady e.2 = false) → k = wq g.w 7 47 32 →
    s.qp? k = some q →
    ∃ t : State, exec (.triggerFire n) s = .next t ∧
      t.qp? k = some { q with wrs := q.wrs ++ [{ num := q.wrNum, w := g.w }], wrNum := q.wrNum + 1 } ∧
      tabFind t.xp.triggers n = (if g.rearm = 0 then none else some { g with thresh := (g.thresh + g.rearm) % 2 ^ 32 }) ∧
      (∀ e, e ≠ n → tabFind t.xp.triggers e = tabFind s.xp.triggers e) ∧ (∀ e, e ≠ k → t.qp? e = s.qp? e) ∧
      t.devMem = s.devMem ∧ t.hostMem = s.hostMem ∧ t.counters = s.counters) ∧
  (∀ (j peer rail n : Nat) (s : State) (x : Job) (q : Qp), s.job? j = some x → jobRuns x = true → s.jobsRising →
    (s.jobRails j).find? (fun r => r.1 = peer && r.2.1 = rail) = some (peer, rail, n) → s.qp? n = some q →
    q.job = j → q.peer = peer → tabGet x.startTick x.sentTick (peer * 16 + rail) + 1000000 ≤ s.tick →
    pathSub q (railPath q rail) = rail → (s.sub rail).link = true →
    ∃ (t : State) (y : Job) (f : TxFrame), exec (.keepalive j peer rail) s = .next t ∧ t.job? j = some y ∧
      tabFind y.sentTick (peer * 16 + rail) = some s.tick ∧ (t.sub rail).txQ = (s.sub rail).txQ ++ [f] ∧
      f.packet.map (fun p => (p.typ, p.payload)) = some (9, ctrlPayload 1 0 0 (selfIdx x) x.epoch x.step s.tick) ∧
      t.devMem = s.devMem ∧ t.hostMem = s.hostMem ∧ t.counters = s.counters) ∧
  (∀ (j peer : Nat) (s : State) (x : Job), s.job? j = some x → jobRuns x = true →
    (∃ e ∈ s.rtsQps j, e.2.peer = peer) →
    max x.startTick (tabGet 0 x.heard peer) + s.rf (.xp j) 0x008 12 0 * 100000 ≤ s.tick →
    exec (.peerLost j peer) s = .next (s.fence j 0x0B 0 0 0 0))

/-- Links and lasers (R319 to R321, R324, R325, R492): a port comes up, goes down with everything it held, or is
degraded; a laser module is released, latched or fails. -/
def Obligations.PortEvents : Prop :=
  (∀ (i : SubId) (s : State), (s.sub i.val).link = false → s.subExists i.val = true → s.subEnabled i.val = true →
    (s.sub i.val).barred = false → (s.bay (i.val / 4)).lit = true →
    ∃ t : State, exec (.portUp i) s = .next t ∧ (t.sub i.val).link = true ∧ (∀ k, k ≠ i.val → t.sub k = s.sub k) ∧
      (t.port (i.val / 2)).lanes = (s.port (i.val / 2)).lanes ||| s.subLanes i.val ∧ t.xp = s.xp ∧ t.cfg = s.cfg) ∧
  (∀ (i : SubId) (s : State), (s.sub i.val).link = true →
    ∃ t : State, exec (.linkFault i) s = .next t ∧ (t.sub i.val).link = false ∧ (t.sub i.val).txQ = [] ∧
      (t.sub i.val).tx = none ∧ (t.sub i.val).paused = (s.sub i.val).paused ∧ (∀ k, k ≠ i.val → (t.sub k).link = (s.sub k).link) ∧
      t.cfg = s.cfg ∧ t.counters = s.counters) ∧
  (∀ (i : SubId) (lane : Fin 8) (s : State), (s.sub i.val).link = true →
    ((s.subLanes i.val).testBit lane.val = false → exec (.laneLockLoss i lane) s = .next s) ∧
    ((s.subLanes i.val).testBit lane.val = true → ∃ t : State, exec (.laneLockLoss i lane) s = .next t ∧
      (t.sub i.val).link = false ∧ (t.sub i.val).txQ = [] ∧ (t.sub i.val).tx = none ∧
      (∀ k, k ≠ i.val → (t.sub k).link = (s.sub k).link) ∧ t.cfg = s.cfg ∧ t.counters = s.counters)) ∧
  (∀ (i : SubId) (s : State), s.subExists i.val = true →
    ∃ t : State, exec (.pcsFaultClear i) s = .next t ∧
      tabGet 0 (t.sub i.val).counters 19 = (tabGet 0 (s.sub i.val).counters 19 + 1) % 2 ^ 32 ∧
      (∀ k, k ≠ 19 → tabGet 0 (t.sub i.val).counters k = tabGet 0 (s.sub i.val).counters k) ∧
      (t.sub i.val).link = (s.sub i.val).link ∧ (∀ k, k ≠ i.val → t.sub k = s.sub k) ∧ t.hostMem = s.hostMem ∧
      t.devMem = s.devMem) ∧
  (∀ (i : SubId) (s : State), (s.sub i.val).link = true → (s.sub i.val).degradedTick = none →
    ∃ (t : State) (a b : Nat), exec (.portDegraded i) s = .next t ∧ a < 2 ^ 32 ∧ b < 2 ^ 32 ∧ a + b ≠ 0 ∧
      tabGet 0 (t.sub i.val).counters 17 = (tabGet 0 (s.sub i.val).counters 17 + a) % 2 ^ 32 ∧
      tabGet 0 (t.sub i.val).counters 18 = (tabGet 0 (s.sub i.val).counters 18 + b) % 2 ^ 32 ∧
      (t.sub i.val).degradedTick = some s.tick ∧ (t.sub i.val).link = true) ∧
  (∀ (b : BayId) (s : State), (s.bay b.val).latched = true →
    ∃ t : State, exec (.laserLatchRelease b) s = .next t ∧ (t.bay b.val).present = false ∧
      (t.bay b.val).latched = false ∧ (t.bay b.val).lit = false ∧ t.power.pdOpt.testBit (2 * b.val) = false ∧
      t.power.pdOpt.testBit (2 * b.val + 1) = false ∧ (∀ i ∈ baySubs b.val, (t.sub i).link = false) ∧
      (∀ k, k ≠ b.val → t.bay k = s.bay k)) ∧
  (∀ (b : BayId) (genuine : Bool) (s : State), (s.bay b.val).latched = false →
    ∃ t : State, exec (.laserLatch b genuine) s = .next t ∧ (t.bay b.val).present = true ∧
      (t.bay b.val).latched = true ∧ (t.bay b.val).genuine = genuine ∧ (t.bay b.val).faulted = false ∧
      (genuine = true → (t.bay b.val).lit = (s.power.hub && (baySubs b.val).any s.subEnabled)) ∧
      (genuine = false → t.power.alertCause.testBit 4 = true ∧ (t.bay b.val).lit = (s.bay b.val).lit) ∧
      (∀ k, k ≠ b.val → t.bay k = s.bay k) ∧ (∀ i, (t.sub i).link = (s.sub i).link)) ∧
  (∀ (b : BayId) (s : State), (s.bay b.val).present = true → (s.bay b.val).faulted = false →
    ∃ t : State, exec (.laserFault b) s = .next t ∧ (t.bay b.val).faulted = true ∧ (t.bay b.val).lit = false ∧
      (∀ i ∈ baySubs b.val, (t.sub i).link = false) ∧ t.power.alertCause.testBit 4 = true ∧
      (∀ k, k ≠ b.val → t.bay k = s.bay k))

/-- Frames in and out of a sub-port (R48, R326 to R336): the order of the checks, flow control, transmission and
its boundaries. -/
def Obligations.FrameMac : Prop :=
  (∀ (i : SubId) (s : State) (f : Frame) (p : Packet), (s.sub i.val).link = true → 64 ≤ f.len →
    f.len ≤ s.rf (.sub i.val) 0x800 13 0 → f.fcsOk = true → f.pfc = none → s.vlanOk i.val f = true →
    isTransportFrame f = true → (f.ipv6 = true ∨ f.ip4CsumOk = true) →
    (f.udpCsumZero = true → f.ipv6 = false) → (f.udpCsumZero = false → f.udpCsumOk = true) →
    s.bufUsed i.val + f.len ≤ s.bufSize i.val → f.packet = some p → p.version = 2 → 1 ≤ p.typ → p.typ ≤ 9 →
    ∃ t : State, exec (.frameReceive i f) s = .next t ∧
      (t.sub i.val).rxQ = (s.sub i.val).rxQ ++ [(p, f.ce, s.framePrio i.val f, f.len, f.authentic)] ∧
      t.bufOf i.val (s.framePrio i.val f) = s.bufOf i.val (s.framePrio i.val f) + f.len ∧
      (∀ k, k ≠ s.framePrio i.val f → t.bufOf i.val k = s.bufOf i.val k) ∧ t.xp = s.xp ∧ t.devMem = s.devMem ∧
      t.hostMem = s.hostMem ∧ t.counters = s.counters ∧ (∀ k, k ≠ i.val → t.sub k = s.sub k)) ∧
  (∀ (i : SubId) (s : State) (f : Frame), (s.sub i.val).link = true →
    (f.len < 64 ∨ f.fcsOk = false ∨ s.rf (.sub i.val) 0x800 13 0 < f.len ∨
      (f.pfc = none ∧ (s.vlanOk i.val f = false ∨ isTransportFrame f = false))) →
    ∃ (t : State) (c : Nat), exec (.frameReceive i f) s = .next t ∧ (t.sub i.val).rxQ = (s.sub i.val).rxQ ∧
      c = (if f.len < 64 then (if f.fcsOk then 9 else 10) else if f.fcsOk = false then 8
        else if s.rf (.sub i.val) 0x800 13 0 < f.len then 11 else if s.vlanOk i.val f = false then 15 else 16) ∧
      tabGet 0 (t.sub i.val).counters c = (tabGet 0 (s.sub i.val).counters c + 1) % 2 ^ 32 ∧ t.xp = s.xp ∧
      t.devMem = s.devMem ∧ t.hostMem = s.hostMem ∧ t.counters = s.counters) ∧
  (∀ (i : SubId) (s : State) (f : Frame) (en : BitVec 8) (q : List Nat), (s.sub i.val).link = true → 64 ≤ f.len →
    f.len ≤ s.rf (.sub i.val) 0x800 13 0 → f.fcsOk = true → f.pfc = some (en, q) →
    ∃ t : State, exec (.pfcFrameReceive i f) s = .next t ∧
      (∀ p, p < 8 → tabFind (t.sub i.val).paused p =
        (if en.getLsbD p = true ∧ (s.rf (.sub i.val) 0x80C 15 8).testBit p = true then
          (if q.getD p 0 = 0 then none else some (s.tick + s.quantaTicks i.val (q.getD p 0)))
         else tabFind (s.sub i.val).paused p)) ∧
      tabGet 0 (t.sub i.val).counters 6 = (tabGet 0 (s.sub i.val).counters 6 + 1) % 2 ^ 32 ∧
      (t.sub i.val).rxQ = (s.sub i.val).rxQ ∧ t.xp = s.xp ∧ t.devMem = s.devMem ∧ t.hostMem = s.hostMem) ∧
  (∀ (i : SubId) (p : Fin 8) (s : State) (t0 : Nat), tabFind (s.sub i.val).paused p.val = some t0 →
    (s.tick < t0 → exec (.pfcPauseExpire i p) s = .next s) ∧
    (t0 ≤ s.tick → ∃ t : State, exec (.pfcPauseExpire i p) s = .next t ∧ tabFind (t.sub i.val).paused p.val = none ∧
      (∀ k, k ≠ p.val → tabFind (t.sub i.val).paused k = tabFind (s.sub i.val).paused k) ∧ t.xp = s.xp ∧
      t.cfg = s.cfg ∧ (∀ k, k ≠ i.val → t.sub k = s.sub k))) ∧
  (∀ (i : SubId) (p : Fin 8) (s : State) (t0 q : Nat), tabFind (s.sub i.val).xoff p.val = some t0 →
    (s.sub i.val).link = true → q = s.rf (.sub i.val) 0x80C 31 16 → (s.rf (.sub i.val) 0x80C 7 0).testBit p.val = true →
    s.rf (.sub i.val) 0x810 27 16 * 1024 ≤ s.bufOf i.val p.val → t0 + s.quantaTicks i.val (q / 2) ≤ s.tick →
    ∃ (t : State) (f : TxFrame), exec (.pfcRepeat i p) s = .next t ∧ (t.sub i.val).txQ = f :: (s.sub i.val).txQ ∧
      f.pfc = some (p.val, q) ∧ f.cls = 3 ∧ tabFind (t.sub i.val).xoff p.val = some s.tick ∧ t.xp = s.xp ∧
      t.cfg = s.cfg ∧ (∀ k, k ≠ i.val → t.sub k = s.sub k)) ∧
  (∀ (i : SubId) (n : Nat) (s : State) (f : TxFrame) (rest : List TxFrame), (s.sub i.val).txQ = f :: rest →
    s.txFree i.val f = true → (s.sub i.val).link = true → (s.sub i.val).tx = none →
    min f.len (s.rf (.sub i.val) 0x804 13 0) ≤ n →
    exec (.txFrameStart i n) s = .next (s.setSub i.val { s.sub i.val with txQ := rest, tx := some f, underrun := false })) ∧
  (∀ (i : SubId) (s : State) (f : TxFrame), (s.sub i.val).tx = some f → (s.sub i.val).underrun = false →
    s.rf (.sub i.val) 0x804 13 0 < f.len →
    ∃ t : State, exec (.txUnderrun i) s = .next t ∧ (t.sub i.val).underrun = true ∧ (t.sub i.val).tx = some f ∧
      tabGet 0 (t.sub i.val).counters 72 = (tabGet 0 (s.sub i.val).counters 72 + 1) % 2 ^ 32 ∧ t.cfg = s.cfg ∧
      t.xp = s.xp ∧ (∀ k, k ≠ i.val → t.sub k = s.sub k)) ∧
  (∀ (i : SubId) (s : State) (f : TxFrame), (s.sub i.val).tx = some f → (s.sub i.val).underrun = false →
    ∃ t : State, exec (.txFrameEnd i) s = .next t ∧ (t.sub i.val).tx = none ∧
      (t.sub i.val).wire = f :: (s.sub i.val).wire ∧ (t.sub i.val).txQ = (s.sub i.val).txQ ∧
      tabGet 0 (t.sub i.val).counters 64 = (tabGet 0 (s.sub i.val).counters 64 + 1) % 2 ^ 32 ∧ t.xp = s.xp ∧
      t.devMem = s.devMem ∧ t.hostMem = s.hostMem) ∧
  (∀ (i : SubId) (s : State) (f : TxFrame), (s.sub i.val).tx = some f → (s.sub i.val).underrun = true →
    (∀ e ∈ s.pend, keyBlk e.1 ≠ blkNum (.sub i.val)) →
    ∃ t : State, exec (.txFrameEnd i) s = .next t ∧ (t.sub i.val).tx = none ∧
      (t.sub i.val).wire = (s.sub i.val).wire ∧
      t.reg (.sub i.val) 0x804 = BitVec.ofNat 32 (min (s.rf (.sub i.val) 0x804 13 0 + 1024) 9216) ∧ t.xp = s.xp ∧
      t.devMem = s.devMem ∧ t.hostMem = s.hostMem) ∧
  (∀ (i : SubId) (tx : Bool) (s : State) (m v : Word), s.pend = [(regKey (.sub i.val) 0x804, (m, v))] →
    m &&& 0x3FFF = m → m ≠ 0 → (s.sub i.val).rxVlan = none → (s.sub i.val).tx = none →
    (tx = false → exec (.macIdleBoundary i tx) s = .next s) ∧
    (tx = true → ∃ t : State, exec (.macIdleBoundary i tx) s = .next t ∧ t.pend = [] ∧
      t.reg (.sub i.val) 0x804 = mergeBits (s.reg (.sub i.val) 0x804) m v ∧
      tabGet 0 t.bseq (blkNum (.sub i.val)) = tabGet 0 s.bseq (blkNum (.sub i.val)) + 1 ∧ t.xp = s.xp ∧
      t.devMem = s.devMem ∧ t.hostMem = s.hostMem))

/-- The twelve bring-up steps (R447 to R461): an accepted BU_STEP starts its step, whose effect and outcome are the
step's own; any other write of BU_STEP only records WRONG_STATE. That a step's effect stands as soon as it is
accepted is the model's choice (log 15). -/
def Obligations.BringupSteps : Prop :=
  (∀ (idOk bad0 bad1 : Bool) (s : State), s.buReady 1 →
    ∃ t : State, exec (.powerHub idOk bad0 bad1) s = .next t ∧ t.power.hub = true ∧ t.sec.identityOk = idOk ∧
      t.bu.startSeq = s.bu.startSeq + 1 ∧ t.bu.groupsOff = 0 ∧ t.devMem = s.devMem ∧ t.hostMem = s.hostMem ∧
      (s.link.width < 4 → t.buRuns 1 4 0x01 (s.link.width * 256 + s.link.rate)) ∧
      (4 ≤ s.link.width → idOk = false → t.buRuns 1 4 0x05 0) ∧
      (4 ≤ s.link.width → idOk = true → bad0 = true → bad1 = true → t.buRuns 1 4 0x04 0) ∧
      (16 ≤ s.link.width → 6 ≤ s.link.rate → idOk = true → bad0 = false ∨ bad1 = false → t.buRuns 1 2 0 0)) ∧
  (∀ (o : LinkOutcome) (s : State), s.buReady 2 →
    (o ≠ .ok → ∃ t : State, exec (.loadFw o) s = .next t ∧ t.buRuns 2 4 0x03 0 ∧ t.sec.measures = s.sec.measures) ∧
    (o = .ok → s.buImage 0 (8 * 2 ^ 20) 1 = none → ∃ t : State, exec (.loadFw o) s = .next t ∧ t.buRuns 2 4 0x02 1 ∧
      t.sec.measures = s.sec.measures) ∧
    (∀ k1 m1 k2 m2, o = .ok → s.buImage 0 (8 * 2 ^ 20) 1 = some (k1, m1) →
      s.buImage 3 (16 * 2 ^ 20) 2 = some (k2, m2) → ∃ t : State, exec (.loadFw o) s = .next t ∧ t.buRuns 2 2 0 0 ∧
      ⟨1, 0xFF, k1, 0, m1⟩ ∈ t.sec.measures ∧ ⟨2, 0xFF, k2, 0, m2⟩ ∈ t.sec.measures)) ∧
  (∀ (fab : BitVec 4) (s : State), s.buReady 3 →
    ∃ t : State, exec (.powerDies fab) s = .next t ∧ t.power.pdFab = 15 - fab.toNat ∧ t.power.pdPhy = 15 ∧
      t.power.pdG = 2 ^ 32 - 1 ∧ (fab = 0 → t.buRuns 3 2 0 0) ∧
      (fab ≠ 0 → t.buRuns 3 4 0x06 (lowBit fab.toNat 4)) ∧ t.devMem = s.devMem ∧ t.hostMem = s.hostMem) ∧
  (∀ (g : BitVec 32) (d : BitVec 4) (s : State), s.buReady 4 →
    ∃ t : State, exec (.lockClocks g d) s = .next t ∧ (∀ e ∈ t.groups, e.2.opp = 7 ∧ e.2.req = 7 ∧ e.2.change = none) ∧
      (d ≠ 0 → t.buRuns 4 4 0x07 (lowBit d.toNat 4)) ∧ (d = 0 → g = 0 → t.buRuns 4 2 0 0) ∧
      (d = 0 → g ≠ 0 → t.buRuns 4 3 0x07 (lowBit g.toNat 32 * 256 + lowBit g.toNat 32 / 8) ∧
        t.bu.groupsOff = s.bu.groupsOff ||| g.toNat ∧ t.bu.degraded.testBit 28 = true)) ∧
  (∀ (failed : List LaneLoc) (half : BitVec 4) (s : State), s.buReady 5 →
    ∃ t : State, exec (.trainSolder failed half) s = .next t ∧ t.bu.result = 1 ∧ t.bu.step = 5 ∧
      (∀ b, b < 4 → ((t.bridge b).half = true ↔ 4 < t.worstModule b ∧ half.getLsbD b = false) ∧
        ((t.bridge b).out = true ↔ 4 < t.worstModule b ∧ half.getLsbD b = true)) ∧
      (t.bu.outcome.1 = 4 ↔ 1 < ((upTo 4).filter (fun b => (t.bridge b).out)).length) ∧ t.devMem = s.devMem ∧
      t.hostMem = s.hostMem) ∧
  (∀ (margins : List Nat) (s : State) (n : Nat), s.buReady 6 → n = popcount (chanMask (fun c => 3 ≤ margins.getD c 0)) 192 →
    ∃ t : State, exec (.trainMemory margins) s = .next t ∧
      (∀ c, c < 192 → t.mem.chanOk.testBit c = decide (3 ≤ margins.getD c 0)) ∧
      (∀ c, c < 192 → (t.chan c).margin = margins.getD c 0 ∧ (t.chan c).weak = false) ∧ t.devMem = s.devMem ∧
      (n < 176 → t.buRuns 6 4 0x09 n) ∧ (176 ≤ n → n < 192 → t.buRuns 6 3 0x09 n) ∧ (192 ≤ n → t.buRuns 6 2 0 0)) ∧
  (∀ (mode : BitVec 4) (rows : List RowLoc) (s : State), s.buReady 7 →
    (3 ≤ mode.toNat → exec (.testMemory mode rows) s = .next (s.noteWrite .bu 0 stBadArg)) ∧
    (mode.toNat < 3 → ∃ t : State, exec (.testMemory mode rows) s = .next t ∧ t.bu.result = 1 ∧ t.bu.step = 7 ∧
      (mode.toNat ≠ 2 → t.mem.regions = []) ∧ (mode.toNat ≠ 0 → t.bu.degraded.testBit 26 = true) ∧
      (rows = [] → t.mem.chanOk = chanMask (fun c => s.mem.chanOk.testBit c)) ∧ t.hostMem = s.hostMem)) ∧
  (∀ (fails : List (Nat × Nat)) (s : State), s.buReady 8 →
    ∃ t : State, exec (.testCores fails) s = .next t ∧ t.bu.result = 1 ∧ t.bu.step = 8 ∧
      (∀ e ∈ fails, e.1 < 65536 → t.coreNamed e.1 = true) ∧ (∀ c, s.coreNamed c = true → t.coreNamed c = true) ∧
      (t.bu.outcome = (2, 0, 0) ∨ t.bu.outcome = (3, 0x0C, 0)) ∧ t.devMem = s.devMem ∧ t.hostMem = s.hostMem) ∧
  (∀ (s : State), s.buReady 9 →
    ∃ t : State, exec .applyDefects s = .next t ∧ t.bu.result = 1 ∧ t.bu.step = 9 ∧
      (∀ g, g < 32 → t.bu.groupsOff.testBit g = (s.bu.groupsOff.testBit g || decide ((s.goodSlots g).length < 64))) ∧
      (∀ g i, g < 32 → i < 64 → t.bu.groupsOff.testBit g = false →
        tabGet 0 t.remap (64 * g + i) = 72 * g + (s.goodSlots g).getD i 0) ∧ t.devMem = s.devMem ∧
      t.hostMem = s.hostMem) ∧
  (∀ (fail : BitVec 8) (s : State) (down : Nat), s.buReady 10 →
    down = ((upTo 8).map (fun p => flagAt ((s.bay (p / 2)).latched && (s.bay (p / 2)).genuine && fail.getLsbD p) p)).foldl (· + ·) 0 →
    ∃ t : State, exec (.startOptics fail) s = .next t ∧ (∀ i, i < 16 → (t.sub i).counters = [] ∧
        (t.sub i).half = [] ∧ (t.sub i).barred = down.testBit (i / 2)) ∧
      (down = 0 → t.buRuns 10 2 0 0) ∧ (down ≠ 0 → t.buRuns 10 3 0x0B down) ∧ t.devMem = s.devMem ∧
      t.hostMem = s.hostMem) ∧
  (∀ (ready : Bool) (s : State), s.buReady 11 →
    ∃ t : State, exec (.startCp ready) s = .next t ∧
      (ready = true → t.buRuns 11 2 0 0 ∧ t.power.cp = true ∧ t.bu.session ≠ 0 ∧ t.bu.session ≠ s.bu.session ∧
        t.bu.session < 2 ^ 32) ∧
      (ready = false → t.buRuns 11 4 0x0F 0 ∧ t.power = s.power ∧ t.bu.session = s.bu.session) ∧
      t.devMem = s.devMem ∧ t.hostMem = s.hostMem) ∧
  (∀ (o : LinkOutcome) (s : State), s.buReady 12 →
    ∃ t : State, exec (.attest o) s = .next t ∧ t.bu.result = 1 ∧ t.bu.step = 12 ∧ t.devMem = s.devMem ∧
      (o = .ok → t.bu.outcome = (2, 0, 0) ∧
        ∃ rep, t.hostMem = s.hostMem.writeL (s.buArg 0 + 2 ^ 32 * s.buArg 1) rep) ∧
      (o ≠ .ok → t.bu.outcome.1 = 4 ∧ t.hostMem = s.hostMem)) ∧
  (∀ (s : State), s.bu.result = 1 →
    exec .bringupStepEnd s = .next { s with bu := { s.bu with
      result := s.bu.outcome.1, cause := s.bu.outcome.2.1, detail := s.bu.outcome.2.2
      next := buNext s.bu.step s.bu.outcome.1
      progress := if s.bu.outcome.1 = 4 then s.bu.progress else 100 } }) ∧
  (∀ (s : State), s.bu.result = 1 → (s.power.pwrbrk = false ∨ s.power.cp = true) →
    s.bu.startTick + buBound s.bu.step * 100000000 < s.tick →
    ∃ t : State, exec .bringupTimeout s = .next t ∧ t.bu.result = 4 ∧ t.bu.cause = 0x0D ∧ t.bu.detail = s.bu.step ∧
      t.bu.next = buNext s.bu.step 4 ∧ (s.bu.step = 0x0B → t.power.cp = false) ∧ t.devMem = s.devMem ∧
      t.hostMem = s.hostMem) ∧
  (∀ (c : Instr) (k : Nat) (s : State),
    (c, k) ∈ [(.powerHub true false false, 1), (.loadFw .ok, 2), (.powerDies 0, 3), (.lockClocks 0 0, 4),
      (.trainSolder [] 0, 5), (.trainMemory [], 6), (.testMemory 0 [], 7), (.testCores [], 8), (.applyDefects, 9),
      (.startOptics 0, 10), (.startCp true, 11), (.attest .ok, 12)] → s.link.up = true →
    (s.bu.result = 1 ∨ s.bu.next ≠ k ∨ s.power.tripped = true ∨ s.power.v48 = false) →
    exec c s = .next (s.noteWrite .bu 0 stWrong))

/-- The defect-list commands (R463, R464): DL_READ, DL_REMOVE and DIAG_CORE_MAP. -/
def Obligations.DefectCommands : Prop :=
  (∀ (mb : MbId) (s q : State) (r : Req), s.front mb.val 0x0B01 1 true r → q = s.takeReq mb.val → r.w 0 % 64 = 0 →
    q.outBad r (r.w 0) q.dlBytes.length = none →
    exec (.dlRead mb) s = .next ((q.r40Write (r.w 0) q.dlBytes).reply r stOk
      (natLE 2 (s.defects.list.length + s.ovfCores.length)))) ∧
  (∀ (mb : MbId) (s : State) (r : Req) (a k : List Byte), s.frontArg mb.val 0x0B10 0 true r a → a.length = 160 →
    s.keyFor (leAt a 24 4) 3 none = some k →
    Config.ed448Verify k (shake (a.take 44)) ((a.drop 44).take 114) = true → s.defects.removeSeq < leAt a 16 8 →
    (a.drop 28).take 16 = serialBytes → (a.take 16) ∈ s.defects.list → leAt a 0 1 ≠ 1 → leAt a 1 1 ≠ 1 →
    ∃ s2 : State, exec (.dlRemove mb) s = .next (s2.reply r stOk []) ∧
      s2.defects.list = s.defects.list.filter (fun x => x ≠ a.take 16) ∧ s2.defects.removeSeq = leAt a 16 8 ∧
      s2.defects.overflow = s.defects.overflow ∧ s2.defects.loose = s.defects.loose ∧
      dlGen s2.defects = dlGen s.defects + 1 ∧ s2.jobs = s.jobs ∧ s2.devMem = s.devMem ∧ s2.hostMem = s.hostMem ∧
      s2.cfg = s.cfg ∧ s2.remap = s.remap) ∧
  (∀ (mb : MbId) (s : State) (r : Req) (a : List Byte), s.frontArg mb.val 0x0B10 0 true r a → a.length = 160 →
    s.keyFor (leAt a 24 4) 3 none = none →
    exec (.dlRemove mb) s = .next ((s.takeReq mb.val).reply r stVerify [])) ∧
  (∀ (mb : MbId) (s : State) (r : Req) (c : Nat), s.front mb.val 0x0B20 1 false r → c = bitsOf (r.w 0) 10 0 →
    (s.groupOff (coreGroup c) = true → exec (.diagCoreMap mb) s = .next ((s.takeReq mb.val).reply r stBadArg [])) ∧
    (s.groupOff (coreGroup c) = false → exec (.diagCoreMap mb) s =
      .next ((s.takeReq mb.val).reply r stOk (natLE 2 (tabGet 0 s.remap c)))))

/-- The module's pins and power (R56, R276, R277, R313, R384, R450, R482, R483, R489, R494): resets, the 48 V input,
trips and the inlet sensor. -/
def Obligations.ModuleEvents : Prop :=
  (∀ (mv : Nat) (s : State), s.power.v48 = false → 4200 ≤ mv → mv ≤ 6000 → (s.power.overVolt = true → mv ≤ 5800) →
    ∃ t : State, exec (.powerOn mv) s = .next t ∧ t.power.v48 = true ∧ t.power.perst = true ∧ t.power.mv10 = mv ∧
      t.power.tripped = false ∧ t.power.overVolt = false ∧ t.tick = 0 ∧ t.power.hub = false ∧
      (5800 < mv ↔ t.power.alertCause.testBit 3 = true) ∧ t.store = s.store ∧ t.defects = s.defects) ∧
  (∀ (mv : Nat) (s : State), s.power.v48 = true ∨ mv < 4200 ∨ 6000 < mv ∨ (s.power.overVolt = true ∧ 5800 < mv) →
    exec (.powerOn mv) s = .next s) ∧
  (∀ (c : Instr) (ov : Bool) (s : State), (c, ov) ∈ [(.powerLoss, false), (.overvoltage, true)] →
    (s.power.v48 = false → exec c s = .next s) ∧
    (s.power.v48 = true → ∃ t : State, exec c s = .next t ∧ t.power.v48 = false ∧ t.power.overVolt = ov ∧
      t.power.tripped = false ∧ t.power.hub = false ∧ t.power.pdFab = 0 ∧ t.jobs = [] ∧ t.svcs = [] ∧
      t.mailboxes = [] ∧ t.cfg = [] ∧ t.mem.regions = [] ∧ t.store.bytes = s.store.bytes ∧
      t.defects.list = s.defects.list ∧ t.sec.keys = s.sec.keys ∧ t.hostMem = s.hostMem)) ∧
  (∀ (s : State), s.power.v48 = true → s.power.tripped = false → s.power.perst = false → s.autoJobs = [] →
    s.svcs = [] →
    ∃ t : State, exec .perstAssert s = .next t ∧ t.power.perst = true ∧ t.power.hub = false ∧ t.power.cp = false ∧
      t.jobs = [] ∧ t.mailboxes = [] ∧ t.cfg = [] ∧ t.pend = [] ∧ t.counters = [] ∧ t.bu.warm = true ∧ t.bu.result = 0 ∧
      t.bu.next = 1 ∧ t.link.up = false ∧ t.tick = s.tick ∧ t.store.bytes = s.store.bytes ∧ t.defects = s.defects ∧
      t.mem.regions.map (·.1) = s.mem.regions.map (·.1) ∧ (∀ e ∈ t.mem.regions, e.2.orphan = true ∧ e.2.part = none)) ∧
  (∀ (s : State), s.power.v48 = true → s.power.tripped = false → s.power.perst = false →
    s.autoJobs ≠ [] ∨ s.svcs ≠ [] →
    ∃ t : State, exec .perstAssert s = .next t ∧ t.power.perst = true ∧ t.power.linkOnly = true ∧ t.link.msixTab = [] ∧
      t.link.requester = none ∧ t.link.up = false ∧ t.power.hub = s.power.hub ∧ t.power.cp = s.power.cp ∧
      t.tick = s.tick) ∧
  (∀ (s : State), s.power.v48 = false ∨ s.power.tripped = true ∨ s.power.perst = true →
    exec .perstAssert s = .next s) ∧
  (∀ (slot : Fin 8) (g1 : Bool) (s : State), s.power.v48 = true → s.power.tripped = false → s.power.perst = true →
    s.power.linkOnly = false →
    exec (.perstRelease slot g1) s = .next { s with
      power := { s.power with perst := false }
      bu := { s.bu with slotId := slot.val, g1mode := !g1 }
      compat := if g1 then 0 else 0xF }) ∧
  (∀ (slot : Fin 8) (g1 : Bool) (s : State), s.power.v48 = true → s.power.tripped = false → s.power.perst = true →
    s.power.linkOnly = true →
    exec (.perstRelease slot g1) s = .next { s with power := { s.power with perst := false, linkOnly := false } }) ∧
  (∀ (s : State), s.power.tripped = true → (s.power.hub = true ∨ s.power.pdFab ≠ 0) →
    ∃ t : State, exec .tripPowerOff s = .next t ∧ t.power.hub = false ∧ t.power.cp = false ∧ t.power.pdG = 0 ∧
      t.power.pdFab = 0 ∧ t.power.pdPhy = 0 ∧ t.power.pdOpt = 0 ∧ t.power.tripped = true ∧ t.power.therm = s.power.therm ∧
      t.power.v48 = s.power.v48 ∧ t.bu.next = 0 ∧ t.bu.result = s.bu.result ∧ t.jobs = [] ∧ t.svcs = [] ∧
      t.mailboxes = [] ∧ t.cfg = [] ∧ t.store.bytes = s.store.bytes ∧ t.defects.list = s.defects.list ∧
      t.tick = s.tick) ∧
  (∀ (temp : Nat) (s : State), s.power.v48 = true →
    ∃ t : State, exec (.inletAbove35C temp) s = .next t ∧ t.power.inlet = temp ∧
      (280 < temp → t.power.alertCause.testBit 2 = true) ∧
      (280 < temp → s.power.alertCause.testBit 2 = false → t.power.alert = true) ∧
      (temp ≤ 280 → t.power.alertCause = s.power.alertCause ∧ t.power.alert = s.power.alert) ∧
      t.power.hub = s.power.hub ∧ t.jobs = s.jobs ∧ t.devMem = s.devMem ∧ t.hostMem = s.hostMem)

/-- The SMBus endpoint (R486, R487): what each read answers, that reading ALERT_CAUSE clears it, that the alert
response releases ALERT_N, and that a write is not acknowledged. Nothing answers without 48 V. -/
def Obligations.SmbusReads : Prop :=
  (∀ (s : State), s.power.v48 = true →
    exec .smbIdent s = .next { s with busOut := partNumber ++ serialBytes } ∧
    exec .smbStatus s = .next { s with busOut := natLE 1 s.smbStatusByte } ∧
    exec .smbVin s = .next { s with busOut := natLE 2 s.power.mv10 } ∧
    exec .smbPin s = .next { s with busOut := natLE 2 s.con.avgW } ∧
    exec .smbTjMax s = .next { s with busOut := natLE 2 s.tjMax } ∧
    exec .smbInlet s = .next { s with busOut := natLE 2 s.power.inlet } ∧
    exec .smbAlertCause s = .next { s with
      busOut := natLE 1 s.power.alertCause
      power := { s.power with alertCause := 0 } } ∧
    (s.power.alert = true → exec .smbAlertResponse s = .next { s with
      busOut := natLE 1 (0x58 + s.bu.slotId)
      power := { s.power with alert := false } }) ∧
    (s.power.alert = false → exec .smbAlertResponse s = .next { s with busOut := [] })) ∧
  (∀ (c : Byte) (s : State), exec (.smbWrite c) s = .next { s with busOut := [] }) ∧
  (∀ (c : Instr) (s : State), c ∈ [.smbIdent, .smbStatus, .smbVin, .smbPin, .smbTjMax, .smbInlet, .smbAlertCause,
    .smbAlertResponse] → s.power.v48 = false → exec c s = .next { s with busOut := [] }) ∧
  (∀ (s : State), s.smbStatusByte < 32 ∧ (s.smbStatusByte.testBit 0 = s.power.therm) ∧
    (s.smbStatusByte.testBit 1 = s.power.pwrbrk) ∧
    (s.smbStatusByte.testBit 2 = (s.power.mv10 < 4200 || 5800 < s.power.mv10)))

/-- Graph walkers, deques and the end of a task (R132 to R139, R142, R144, R145): fetching, releasing, popping,
stealing, completing, hanging, and a graph that no longer moves. -/
def Obligations.TaskEngine : Prop :=
  (∀ (j : Nat) (d : DieId) (s : State) (x : Job) (w : Walker) (l : Nat × Nat) (bs : List Byte), s.job? j = some x →
    x.st = .running → w = tabGet {} x.walkers d.val → l = x.lists.getD d.val (0, 0) → w.next < l.2 →
    w.fetched.length < 1024 → s.devRead (x.image + l.1 + 64 * w.next) 64 = some bs →
    exec (.taskFetch j d) s = .next (s.setJob j { x with walkers := tabSet x.walkers d.val { w with
      next := w.next + 1
      fetched := w.fetched ++ [{ owner := .job j, w := words64 bs 8 }] } })) ∧
  (∀ (j : Nat) (d : DieId) (s : State) (x : Job) (w : Walker) (k : Task) (rest : List Task), s.job? j = some x →
    x.st = .running → w = tabGet {} x.walkers d.val → takeFirst (s.waitsOk x) w.fetched = some (k, rest) →
    ∃ (t : State) (y : Job), exec (.taskRelease j d) s = .next t ∧ t.job? j = some y ∧
      (tabGet {} y.walkers d.val).fetched = rest ∧ y.lastMove = s.tick ∧ s.waitsOk x k = true ∧
      ((s.core k.home).deque.length < 32 → (∀ u ∈ w.held, u.home ≠ k.home) →
        (t.core k.home).deque = (s.core k.home).deque ++ [bindVersion x k] ∧
        (tabGet {} y.walkers d.val).held = w.held) ∧
      (32 ≤ (s.core k.home).deque.length → t.core k.home = s.core k.home ∧
        (tabGet {} y.walkers d.val).held = w.held ++ [bindVersion x k]) ∧
      (∀ c, c ≠ k.home → t.core c = s.core c) ∧ t.devMem = s.devMem ∧ t.hostMem = s.hostMem ∧ t.counters = s.counters) ∧
  (∀ (c : CoreId) (s : State) (k : Task) (rest : List Task), (s.core c.val).svc = none → s.coreIdle c.val = true →
    popEntry (s.core c.val).deque = some (k, rest) →
    ∃ (t : State) (r : Run), exec (.taskPop c) s = .next t ∧ (t.core c.val).run = some r ∧ r.task = k ∧
      r.start = s.tick ∧ k ∈ (s.core c.val).deque ∧
      (k.phase ≠ 2 ∨ ∀ u ∈ (s.core c.val).deque, u.phase = 2) ∧
      (s.noneWaits → (t.core c.val).deque = rest) ∧ (∀ e, e ≠ c.val → t.core e = s.core e) ∧ t.devMem = s.devMem ∧
      t.hostMem = s.hostMem ∧ t.counters = s.counters) ∧
  (∀ (c : CoreId) (s : State) (o v : Nat) (k : Task) (rest : List Task), (s.core c.val).svc = none →
    s.coreIdle c.val = true → (s.core c.val).deque = [] → 1 ≤ o → o ≤ 4 → s.victim c.val o = some v →
    (∀ p, 1 ≤ p → p < o → s.victim c.val p = none) →
    takeLast (s.takeable c.val (min o 3)) (s.core v).deque = some (k, rest) →
    ∃ (t : State) (r : Run), exec (.taskSteal c) s = .next t ∧ (t.core c.val).run = some r ∧ r.task = k ∧
      r.start = s.tick ∧ v ≠ c.val ∧ k ∈ (s.core v).deque ∧ s.takeable c.val (min o 3) k = true ∧
      (s.noneWaits → (t.core v).deque = rest) ∧
      (t.grp (c.val / 64)).thiefTakes = ((s.grp (c.val / 64)).thiefTakes + 1) % 2 ^ 32 ∧
      (t.grp (v / 64)).stolenFrom = ((s.grp (v / 64)).stolenFrom + 1) % 2 ^ 32 ∧ t.devMem = s.devMem ∧
      t.hostMem = s.hostMem ∧ t.counters = s.counters) ∧
  (∀ (c : CoreId) (s : State) (run : Run) (r : Result) (j a : Nat) (x : Job) (k : Task),
    (s.core c.val).run = some run → run.done = some r → k = run.task → k.owner = .job j → k.sec = none → r.status = 0 →
    s.job? j = some x → x.st = .running → x.named k = none → a = x.cpl + 16 * bitsOf (k.word 3) 63 48 →
    badIn s.mem.badLines a 16 = none → bitsOf (k.word 3) 63 48 < x.cplCount →
    ∃ (t : State) (y : Job), exec (.taskComplete c) s = .next t ∧ (t.core c.val).run = none ∧ t.job? j = some y ∧
      y.done = x.done + 1 ∧ y.st = .running ∧
      (k.cpl = true → t.devMem.readN a 12 = natLE 4 r.num0 ++ natLE 4 r.num1 ++ natLE 2 0 ++ natLE 2 c.val) ∧
      (∀ b, (k.cpl = false ∨ b < a ∨ a + 16 ≤ b) → t.devMem.read b = s.devMem.read b) ∧ t.hostMem = s.hostMem ∧
      (k.sigInc = 0 → t.counters = s.counters) ∧
      (t.ctr (x.ctrBase + k.sigId)).toNat = ((s.ctr (x.ctrBase + k.sigId)).toNat + k.sigInc) % 2 ^ 64 ∧
      (∀ e, e ≠ x.ctrBase + k.sigId → t.ctr e = s.ctr e)) ∧
  (∀ (c : CoreId) (s : State) (run : Run) (r : Result) (j : Nat) (x : Job), s.jobsRising →
    (s.core c.val).run = some run → run.done = some r → run.task.owner = .job j → run.task.sec = none → r.status ≠ 0 →
    s.job? j = some x → jobRuns x = true →
    ∃ t : State, exec (.taskComplete c) s = .next t ∧ t.counters = s.counters ∧ (∀ y, t.job? j = some y →
      y.st = .fenced ∧ y.fault.map (fun f => (f.cause, f.tstatus, f.core)) = some (0x01, r.status, c.val))) ∧
  (∀ (c : CoreId) (s : State) (run : Run) (r : Result) (k : Nat) (v : Svc), (s.core c.val).run = some run →
    run.done = some r → run.task.owner = .svc k → r.status = 0 → s.svc? k = some v → v.ph = .run → 1 < v.tasksLeft →
    ∃ (t : State) (u : Svc), exec (.taskComplete c) s = .next t ∧ t.svc? k = some u ∧ u.tasksLeft = v.tasksLeft - 1 ∧
      u.ph = .run ∧ u.num = v.num ||| r.num0 / 2 ^ 28 ∧ t.devMem = s.devMem ∧ t.hostMem = s.hostMem ∧
      (t.ctr (v.ctrBase + run.task.sigId)).toNat =
        ((s.ctr (v.ctrBase + run.task.sigId)).toNat + run.task.sigInc) % 2 ^ 64) ∧
  (∀ (c : CoreId) (s : State) (run : Run) (j : Nat) (x : Job), s.jobsRising → (s.core c.val).run = some run →
    run.done = none → run.start + second < s.tick → run.task.owner = .job j → run.task.sec = none →
    s.job? j = some x → jobRuns x = true →
    ∃ t : State, exec (.hang c) s = .next t ∧ (t.core c.val).run = none ∧ (∀ y, t.job? j = some y →
      y.st = .fenced ∧ y.fault.map (fun f => (f.cause, f.tstatus, f.core)) = some (0x01, tsHang, c.val))) ∧
  (∀ (c : CoreId) (s : State) (run : Run), (s.core c.val).run = some run → s.tick ≤ run.start + second →
    exec (.hang c) s = .next s) ∧
  (∀ (j : Nat) (s : State) (x : Job), s.job? j = some x → x.st = .running → x.stallMs ≠ 0 → x.unreleased = true →
    s.jobBusy j x = false →
    (x.lastMove + x.stallMs * 100000 ≤ s.tick → exec (.graphStall j) s = .next (s.fence j 0x02 0 0 0 0)) ∧
    (s.tick < x.lastMove + x.stallMs * 100000 → exec (.graphStall j) s = .next s))

/-- The work of a task by its kind (R94, R96, R99, R124, R127 to R129, R237): a core that runs a task of a kind does
the kind's work and keeps its status words; LOAD and STORE move their bytes; COLL hands its descriptor over. -/
def Obligations.TaskKinds : Prop :=
  (∀ (mk : CoreId → Instr) (k : Nat) (work : State → Ctx → Task → TRes (State × NumStat)) (c : CoreId) (s : State)
    (x : Ctx) (t : Task),
    (mk, k, work) ∈ ([(.taskGemm, 0, State.gemmTask), (.taskGemmT, 1, State.gemmTask), (.taskGemmWg, 2, State.gemmTask),
      (.taskVec, 3, vecTaskRun), (.taskLoad, 4, loadTask), (.taskStore, 5, storeTask), (.taskGather, 6, gatherTask),
      (.taskSvc, 9, svcTaskRun)] : List ((CoreId → Instr) × Nat × (State → Ctx → Task → TRes (State × NumStat)))) →
    s.running c.val = some (x, t) → t.kind = k → t.sec = none →
    (∀ s1 n, work s x t = .ok (s1, n) → exec (mk c) s = .next (s1.setDone c.val { num0 := n.stat0, num1 := n.stat1 })) ∧
    (∀ s1 e, work s x t = .error (s1, e) → exec (mk c) s = .next (s1.setDone c.val { status := e }))) ∧
  (∀ (c : CoreId) (s : State) (x : Ctx) (t : Task) (m : Move) (bs : List Byte), s.running c.val = some (x, t) →
    t.kind = 4 → t.sec = none → m = t.moveBody → m.ok t = true → s.wRead x m.dev 0 m.len = .ok bs →
    ∃ (u : State) (r : Run), exec (.taskLoad c) s = .next u ∧
      u.localMem.readN (localAt x.home m.loc) bs.length = bs ∧
      (∀ b, b < localAt x.home m.loc ∨ localAt x.home m.loc + bs.length ≤ b → u.localMem.read b = s.localMem.read b) ∧
      (u.core c.val).run = some r ∧ r.task = t ∧ r.done = some {} ∧ u.devMem = s.devMem ∧ u.hostMem = s.hostMem ∧
      u.counters = s.counters ∧ u.jobs = s.jobs) ∧
  (∀ (c : CoreId) (s : State) (x : Ctx) (t : Task) (m : Move) (a : Nat), s.running c.val = some (x, t) →
    t.kind = 5 → t.sec = none → m = t.moveBody → m.ok t = true → ctxAddr x m.dev = (false, a) →
    s.tSpan x a m.len true = .ok () →
    ∃ (u : State) (r : Run), exec (.taskStore c) s = .next u ∧
      u.devMem.readN a m.len = s.localMem.readN (localAt x.home m.loc) m.len ∧
      (∀ b, b < a ∨ a + m.len ≤ b → u.devMem.read b = s.devMem.read b) ∧
      (u.core c.val).run = some r ∧ r.task = t ∧ r.done = some {} ∧ u.localMem = s.localMem ∧ u.hostMem = s.hostMem ∧
      u.counters = s.counters ∧ u.jobs = s.jobs) ∧
  (∀ (mk : CoreId → Instr) (c : CoreId) (s : State) (x : Ctx) (t : Task),
    mk ∈ ([.taskLoad, .taskStore, .taskGather] : List (CoreId → Instr)) →
    s.running c.val = some (x, t) → t.sec = none → (mk = .taskLoad → t.kind = 4) → (mk = .taskStore → t.kind = 5) →
    (mk = .taskGather → t.kind = 6) → t.moveBody.ok t = false →
    exec (mk c) s = .next (s.setDone c.val { status := tsProgram })) ∧
  (∀ (c : CoreId) (s s1 : State) (x : Ctx) (t : Task) (j : Nat) (bs : List Byte) (y : Job),
    s.running c.val = some (x, t) → t.owner = .job j → t.kind = 7 → t.sec = none → t.word 6 = 0 → t.word 7 = 0 →
    s.wRead x (t.word 5) 48 8 = .ok bs → s.job? j = some y → tabFind y.colls (leNat bs) = none →
    s.handOff x j (t.word 5) 0 false = .ok s1 →
    exec (.taskColl c) s = .next (s1.setDone c.val {}) ∧ s1.devMem = s.devMem ∧ s1.hostMem = s.hostMem ∧
      s1.counters = s.counters ∧ s1.cores = s.cores) ∧
  (∀ (c : CoreId) (s : State) (x : Ctx) (t : Task) (j : Nat), s.running c.val = some (x, t) → t.owner = .job j →
    t.kind = 7 → t.sec = none → (t.word 6 ≠ 0 ∨ t.word 7 ≠ 0) →
    exec (.taskColl c) s = .next (s.setDone c.val { status := tsProgram }))

/-- The vector instructions (R119 to R121): on a core whose VEC task has begun, each row has its own effect on the
registers, the lane mask, memory and the count of iterations; TYPE 3 ends the task with PROGRAM_FAULT. What lanes
beyond an instruction's count hold stays. -/
def Obligations.VectorRows : Prop :=
  (∀ (mk : CoreId → VecFields → Instr) (op : Nat) (c : CoreId) (f : VecFields) (s : State) (r : VecRun),
    (mk, op) ∈ ([(.vecAdd, 0x08), (.vecSub, 0x09), (.vecMul, 0x0A), (.vecFma, 0x0B), (.vecDiv, 0x0C), (.vecMax, 0x0D),
      (.vecMin, 0x0E), (.vecAbs, 0x0F), (.vecSqrt, 0x10), (.vecRsqrt, 0x11), (.vecExp, 0x12), (.vecLog, 0x13),
      (.vecTanh, 0x14), (.vecSigmoid, 0x15), (.vecErf, 0x16)] : List ((CoreId → VecFields → Instr) × Nat)) →
    s.vecAt c.val r → f.typ.val ≠ 3 →
    ∃ t : State, exec (mk c f) s = .next t ∧
      (t.core c.val).vec.reg f.zd.val = unlanes f.typ.val ((upTo (lanes f.typ.val (r.v.reg f.za.val)).length).map (fun l =>
        laneOp op f.typ.val (freeLane s.free l) ((lanes f.typ.val (r.v.reg f.za.val)).getD l 0)
          ((lanes f.typ.val (r.v.reg f.zb.val)).getD l 0) ((lanes f.typ.val (r.v.reg f.zc.val)).getD l 0))) ∧
      (∀ z, z < 32 → z ≠ f.zd.val → (t.core c.val).vec.reg z = r.v.reg z) ∧ (t.core c.val).vec.mask = r.v.mask ∧
      (t.core c.val).vec.iter = r.v.iter ∧ t.devMem = s.devMem ∧ t.localMem = s.localMem ∧ t.acc = s.acc ∧
      t.jobs = s.jobs ∧ t.counters = s.counters) ∧
  (∀ (mk : CoreId → VecFields → Instr) (op : Nat) (c : CoreId) (f : VecFields) (s : State) (r : VecRun) (l : Nat)
    (a b : Word) (x : Int), (mk, op) ∈ ([(.vecAdd, 0x08), (.vecSub, 0x09), (.vecMul, 0x0A)] :
      List ((CoreId → VecFields → Instr) × Nat)) →
    s.vecAt c.val r → f.typ.val = 2 → l < 64 → a = r.v.get f.za.val l → b = r.v.get f.zb.val l →
    x = (if op = 0x08 then a.toInt + b.toInt else if op = 0x09 then a.toInt - b.toInt else a.toInt * b.toInt) →
    -2147483648 ≤ x → x ≤ 2147483647 →
    ∃ t : State, exec (mk c f) s = .next t ∧ ((t.core c.val).vec.get f.zd.val l).toInt = x) ∧
  (∀ (c : CoreId) (f : VecFields) (s : State) (r : VecRun), s.vecAt c.val r → f.typ.val ≠ 3 →
    ∃ t : State, exec (.vecNop c f) s = .next t ∧ t.core c.val = s.core c.val ∧ t.devMem = s.devMem ∧
      t.localMem = s.localMem ∧ t.acc = s.acc ∧ t.free = s.free) ∧
  (∀ (c : CoreId) (f : VecFields) (s : State) (r : VecRun) (n : Nat) (p : Bool × Nat) (bs : List Byte),
    s.vecAt c.val r → f.typ.val ≠ 3 → n = f.imm.toNat / 2 ^ 24 + 1 → n ≤ 64 →
    r.target s (f.zb.val % 16) (immOff f.imm) = .ok p → s.tRead r.x p.1 p.2 (4 * n) = .ok bs →
    ∃ t : State, exec (.vecLd c f) s = .next t ∧
      (∀ l, l < n → (t.core c.val).vec.get f.zd.val l = BitVec.ofNat 32 (leAt bs (4 * l) 4)) ∧
      (∀ l, n ≤ l → l < 64 → (t.core c.val).vec.get f.zd.val l = r.v.get f.zd.val l) ∧
      (∀ z, z < 32 → z ≠ f.zd.val → (t.core c.val).vec.reg z = r.v.reg z) ∧ t.devMem = s.devMem ∧
      t.localMem = s.localMem ∧ t.acc = s.acc) ∧
  (∀ (c : CoreId) (f : VecFields) (s : State) (r : VecRun) (n a : Nat), s.vecAt c.val r → f.typ.val ≠ 3 →
    n = f.imm.toNat / 2 ^ 24 + 1 → n ≤ 64 → r.target s (f.zb.val % 16) (immOff f.imm) = .ok (true, a) →
    a + 4 * n ≤ stageBase →
    ∃ t : State, exec (.vecSt c f) s = .next t ∧ t.localMem.readN (localAt r.x.home a) (4 * n) =
        ((r.v.reg f.za.val).take n).flatMap (fun w => natLE 4 w.toNat) ∧
      (∀ b, b < localAt r.x.home a ∨ localAt r.x.home a + 4 * n ≤ b → t.localMem.read b = s.localMem.read b) ∧
      (∀ z, z < 32 → (t.core c.val).vec.reg z = r.v.reg z) ∧ t.devMem = s.devMem ∧ t.acc = s.acc) ∧
  (∀ (c : CoreId) (f : VecFields) (s : State) (r : VecRun) (row e : Nat), s.vecAt c.val r → f.typ.val ≠ 3 →
    row = f.imm.toNat % 512 → e = bitsOf f.imm.toNat 15 9 → row < r.b.accRows → e ≤ 16 →
    ∃ t : State, exec (.vecLdacc c f) s = .next t ∧
      (∀ l, l < 64 → (t.core c.val).vec.get f.zd.val l = s.accGet r.x.core (r.b.accBase + row) (e + l)) ∧
      (∀ z, z < 32 → z ≠ f.zd.val → (t.core c.val).vec.reg z = r.v.reg z) ∧ t.devMem = s.devMem ∧
      t.localMem = s.localMem ∧ t.acc = s.acc) ∧
  (∀ (c : CoreId) (f : VecFields) (s : State) (r : VecRun) (p : Bool × Nat) (bs : List Byte), s.vecAt c.val r →
    f.typ.val ≠ 3 → r.target s (f.zb.val % 16) (immOff f.imm) = .ok p → s.tRead r.x p.1 p.2 4 = .ok bs →
    ∃ t : State, exec (.vecBcast c f) s = .next t ∧
      (∀ l, l < 64 → (t.core c.val).vec.get f.zd.val l = BitVec.ofNat 32 (leAt bs 0 4)) ∧
      (∀ z, z < 32 → z ≠ f.zd.val → (t.core c.val).vec.reg z = r.v.reg z) ∧ t.devMem = s.devMem ∧
      t.localMem = s.localMem ∧ t.acc = s.acc) ∧
  (∀ (c : CoreId) (f : VecFields) (s : State) (r : VecRun), s.vecAt c.val r → f.typ.val ≠ 3 →
    ∃ t : State, exec (.vecMovi c f) s = .next t ∧
      (∀ l, l < 64 → (t.core c.val).vec.get f.zd.val l = (if f.typ.val = 1 then bfPack f.imm f.imm else f.imm)) ∧
      (∀ z, z < 32 → z ≠ f.zd.val → (t.core c.val).vec.reg z = r.v.reg z) ∧ t.devMem = s.devMem ∧
      t.localMem = s.localMem ∧ t.acc = s.acc) ∧
  (∀ (c : CoreId) (f : VecFields) (s : State) (r : VecRun) (la lb : List Word), s.vecAt c.val r → f.typ.val ≠ 3 →
    la = lanes f.typ.val (r.v.reg f.za.val) → lb = lanes f.typ.val (r.v.reg f.zb.val) →
    (∃ t : State, exec (.vecCmplt c f) s = .next t ∧
      (∀ l, l < la.length → tabFind (t.core c.val).vec.mask l = some (laneLt f.typ.val (la.getD l 0) (lb.getD l 0))) ∧
      (∀ z, z < 32 → (t.core c.val).vec.reg z = r.v.reg z) ∧ t.devMem = s.devMem ∧ t.localMem = s.localMem ∧
      t.acc = s.acc) ∧
    (∃ t : State, exec (.vecSel c f) s = .next t ∧
      (t.core c.val).vec.reg f.zd.val = unlanes f.typ.val ((upTo la.length).map (fun l =>
        if r.v.mk1 l then la.getD l 0 else lb.getD l 0)) ∧
      (∀ z, z < 32 → z ≠ f.zd.val → (t.core c.val).vec.reg z = r.v.reg z) ∧ (t.core c.val).vec.mask = r.v.mask ∧
      t.devMem = s.devMem ∧ t.localMem = s.localMem ∧ t.acc = s.acc)) ∧
  (∀ (mk : CoreId → VecFields → Instr) (op : Nat) (c : CoreId) (f : VecFields) (s : State) (r : VecRun) (la : List Word),
    (mk, op) ∈ ([(.vecRsum, 0x08), (.vecRmax, 0x0D)] : List ((CoreId → VecFields → Instr) × Nat)) → s.vecAt c.val r →
    f.typ.val ≠ 3 → la = lanes f.typ.val (r.v.reg f.za.val) →
    ∃ t : State, exec (mk c f) s = .next t ∧
      (t.core c.val).vec.reg f.zd.val = unlanes f.typ.val (List.replicate la.length
        (treeOf (fun a b => laneOp op f.typ.val (freeLane s.free 0) a b 0) (if f.typ.val = 1 then 7 else 6) la)) ∧
      (∀ z, z < 32 → z ≠ f.zd.val → (t.core c.val).vec.reg z = r.v.reg z) ∧ t.devMem = s.devMem ∧
      t.localMem = s.localMem ∧ t.acc = s.acc) ∧
  (∀ (c : CoreId) (f : VecFields) (s : State) (r : VecRun), s.vecAt c.val r → f.typ.val = 0 ∨ f.typ.val = 2 →
    ∃ t : State, exec (.vecCvt c f) s = .next t ∧
      (∀ l, l < 64 → (t.core c.val).vec.get f.zd.val l =
        (cvtLane f.typ.val (f.imm.toNat % 16) f.imm (freeLane s.free l) (r.v.get f.za.val l) {}).1) ∧
      (∀ z, z < 32 → z ≠ f.zd.val → (t.core c.val).vec.reg z = r.v.reg z) ∧ t.devMem = s.devMem ∧
      t.localMem = s.localMem ∧ t.acc = s.acc) ∧
  (∀ (c : CoreId) (f : VecFields) (s s1 s2 : State) (r : VecRun) (vs : List Word) (p q : Bool × Nat)
    (o : List Byte × List Byte × NumStat), s.vecAt c.val r → f.typ.val = 0 → isMx (f.imm.toNat % 16) = true →
    vs = r.v.reg f.za.val → o = mxLine (f.imm.toNat % 16) (blocks32 vs) r.n →
    r.target s (f.zb.val % 16) 0 = .ok p → r.target s (f.zc.val % 16) 0 = .ok q →
    s.tWrite r.x p.1 p.2 o.1 = .ok s1 → s1.tWrite r.x q.1 q.2 o.2.1 = .ok s2 →
    ∃ t : State, exec (.vecQmx c f) s = .next t ∧ t.devMem = s2.devMem ∧ t.localMem = s2.localMem ∧
      (t.core c.val).vec.n = o.2.2 ∧ (∀ z, z < 32 → (t.core c.val).vec.reg z = r.v.reg z) ∧ t.acc = s.acc) ∧
  (∀ (c : CoreId) (f : VecFields) (s : State) (r : VecRun), s.vecAt c.val r → f.typ.val ≠ 3 →
    isMx (f.imm.toNat % 16) = false → exec (.vecQmx c f) s = .next (s.setDone c.val { status := tsProgram })) ∧
  (∀ (c : CoreId) (f : VecFields) (s s1 : State) (r : VecRun) (p : Bool × Nat) (bs : List Byte) (m : Word),
    s.vecAt c.val r → f.typ.val = 0 → r.target s (f.zb.val % 16) (immOff f.imm) = .ok p →
    s.tRead r.x p.1 p.2 4 = .ok bs → amaxOf (r.v.reg f.za.val) = some m →
    s.tWrite r.x p.1 p.2 (natLE 4 (amaxMerge (BitVec.ofNat 32 (leAt bs 0 4)) (some m)).toNat) = .ok s1 →
    ∃ t : State, exec (.vecAmax c f) s = .next t ∧ t.devMem = s1.devMem ∧ t.localMem = s1.localMem ∧
      (∀ z, z < 32 → (t.core c.val).vec.reg z = r.v.reg z) ∧ t.acc = s.acc) ∧
  (∀ (c : CoreId) (f : VecFields) (s : State) (r : VecRun), s.vecAt c.val r → f.typ.val ≠ 3 →
    ∃ t : State, exec (.vecEnd c f) s = .next t ∧ (t.core c.val).vec.iter = r.v.iter + 1 ∧
      (r.v.iter + 1 < r.b.iter → (t.core c.val).run = (s.core c.val).run) ∧
      (r.b.iter ≤ r.v.iter + 1 → ((t.core c.val).run.bind (fun x => x.done)).map (fun d => d.status) = some 0) ∧
      t.devMem = s.devMem ∧ t.localMem = s.localMem ∧ t.acc = s.acc) ∧
  (∀ (mk : CoreId → VecFields → Instr) (c : CoreId) (f : VecFields) (s : State) (r : VecRun),
    mk ∈ ([.vecNop, .vecLd, .vecSt, .vecLdacc, .vecBcast, .vecMovi, .vecAdd, .vecSub, .vecMul, .vecFma, .vecDiv, .vecMax,
      .vecMin, .vecAbs, .vecSqrt, .vecRsqrt, .vecExp, .vecLog, .vecTanh, .vecSigmoid, .vecErf, .vecCmplt, .vecSel,
      .vecRsum, .vecRmax, .vecCvt, .vecQmx, .vecAmax, .vecEnd] : List (CoreId → VecFields → Instr)) →
    s.vecAt c.val r → f.typ.val = 3 → exec (mk c f) s = .next (s.setDone c.val { status := tsProgram }))

/-- The update instructions and matrix steps (R183 to R190, R200, R202 to R207): on a core whose section has begun,
each row has its own effect on the block registers, the slots, the section's planes and its place; an instruction
that breaks a limit ends the section with PROGRAM_FAULT. -/
def Obligations.UpdateRows : Prop :=
  (∀ (mk : CoreId → UpdFields → Instr) (op : Nat) (c : CoreId) (f : UpdFields) (s : State) (r : SecRun),
    (mk, op) ∈ ([(.updAdd, 0x08), (.updSub, 0x09), (.updMul, 0x0A), (.updFma, 0x0B), (.updDiv, 0x0C), (.updSqrt, 0x0D),
      (.updRsqrt, 0x0E), (.updAbs, 0x0F), (.updSign, 0x10), (.updMax, 0x11), (.updMin, 0x12), (.updClamp, 0x13),
      (.updSel, 0x14), (.updExp, 0x15), (.updLog, 0x16)] : List ((CoreId → UpdFields → Instr) × Nat)) →
    s.secAt c.val r → updOk op f = true →
    ∃ t : State, exec (mk c f) s = .next t ∧
      (∀ l, l < 1024 → ((t.core c.val).upd.reg f.d.val)[l]? = some (updLane op ((r.src f f.a.val).getD l 0)
        ((r.src f f.b.val).getD l 0) ((r.src f f.c.val).getD l 0))) ∧
      (∀ z, z ≠ f.d.val → (t.core c.val).upd.reg z = r.u.reg z) ∧ (t.core c.val).upd.p = r.u.p ∧
      (t.core c.val).upd.block = r.u.block ∧ (t.core c.val).upd.elems = true ∧ (t.core c.val).run = (s.core c.val).run ∧
      t.devMem = s.devMem ∧ t.localMem = s.localMem ∧ t.jobs = s.jobs ∧ t.counters = s.counters) ∧
  (∀ (c : CoreId) (f : UpdFields) (s : State) (r : SecRun), s.secAt c.val r → updOk 0x17 f = true →
    ∃ t : State, exec (.updCvt c f) s = .next t ∧
      (t.core c.val).upd.reg f.d.val = updCvtLanes (f.imm.toNat % 16) (r.src f f.a.val) ∧
      (∀ z, z ≠ f.d.val → (t.core c.val).upd.reg z = r.u.reg z) ∧ t.devMem = s.devMem ∧ t.localMem = s.localMem ∧
      t.jobs = s.jobs) ∧
  (∀ (c : CoreId) (f : UpdFields) (s : State) (r : SecRun), s.secAt c.val r → updOk 0x00 f = true →
    ∃ t : State, exec (.updNop c f) s = .next t ∧ t.core c.val = s.core c.val ∧ t.devMem = s.devMem ∧
      t.localMem = s.localMem ∧ t.jobs = s.jobs) ∧
  (∀ (c : CoreId) (f : UpdFields) (s : State) (r : SecRun) (bs : List Byte), s.secAt c.val r → updOk 0x01 f = true →
    s.wRead r.x (r.sec.plane (f.imm.toNat % 16)) (4096 * r.u.block) (4 * r.count) = .ok bs →
    ∃ t : State, exec (.updLd c f) s = .next t ∧
      (t.core c.val).upd.reg f.d.val = wordsLE bs r.count ++ List.replicate (1024 - r.count) 0 ∧
      (∀ z, z ≠ f.d.val → (t.core c.val).upd.reg z = r.u.reg z) ∧ (t.core c.val).upd.block = r.u.block ∧
      t.devMem = s.devMem ∧ t.localMem = s.localMem ∧ t.jobs = s.jobs) ∧
  (∀ (c : CoreId) (f : UpdFields) (s s1 : State) (r : SecRun) (code : Nat) (vs : List Word), s.secAt c.val r →
    updOk 0x02 f = true → code = f.imm.toNat % 16 → code ≠ 7 → vs = (r.src f f.a.val).take r.count →
    s.wWrite r.x (r.sec.plane code) (4096 * r.u.block) (vs.flatMap (fun v => natLE 4 v.toNat)) = .ok s1 →
    ∃ t : State, exec (.updSt c f) s = .next t ∧ t.devMem = s1.devMem ∧ t.localMem = s1.localMem ∧
      (∀ z, (t.core c.val).upd.reg z = r.u.reg z) ∧
      (t.core c.val).upd.nonfin = r.u.nonfin + (if code = 0 then countNonfin vs else 0) ∧
      (t.core c.val).upd.block = r.u.block ∧ t.counters = s.counters) ∧
  (∀ (c : CoreId) (f : UpdFields) (s s1 : State) (r : SecRun) (vs : List Word), s.secAt c.val r → updOk 0x02 f = true →
    f.imm.toNat % 16 = 7 → vs = (r.src f f.a.val).take r.count →
    (r.sec.cParts r.u.block vs).foldlM (fun st p => st.tWrite r.x false (r.dst + p.1) p.2) s = .ok s1 →
    ∃ t : State, exec (.updSt c f) s = .next t ∧ t.devMem = s1.devMem ∧ t.localMem = s1.localMem ∧
      (∀ z, (t.core c.val).upd.reg z = r.u.reg z) ∧ (t.core c.val).upd.nonfin = r.u.nonfin + countNonfin vs ∧
      t.counters = s.counters) ∧
  (∀ (mk : CoreId → UpdFields → Instr) (op : Nat) (c : CoreId) (f : UpdFields) (s : State) (r : SecRun) (acc : Word),
    (mk, op) ∈ ([(.updSumsq, 0x20), (.updNorm2, 0x21)] : List ((CoreId → UpdFields → Instr) × Nat)) → s.secAt c.val r →
    updOk op f = true → acc = add32 r.u.acc (sumSq ((r.src f f.a.val).take r.count)) →
    ∃ t : State, exec (mk c f) s = .next t ∧ t.devMem = s.devMem ∧ t.localMem = s.localMem ∧ t.jobs = s.jobs ∧
      (r.lastBlock = false → (t.core c.val).upd.acc = acc ∧ (t.core c.val).upd.block = r.u.block + 1 ∧
        (t.core c.val).upd.p = r.u.p) ∧
      (r.lastBlock = true → (t.core c.val).upd.acc = 0 ∧ (t.core c.val).upd.block = 0 ∧
        (t.core c.val).upd.p = r.u.p.set (f.d.val - 16) (if op = 0x21 then sqrt32 acc else acc))) ∧
  (∀ (mk : CoreId → UpdFields → Instr) (op : Nat) (c : CoreId) (f : UpdFields) (s : State) (r : SecRun) (dst : Nat),
    (mk, op) ∈ ([(.mstepGram, 0x30), (.mstepOrth, 0x31), (.mstepInv, 0x32), (.mstepIroot, 0x33)] :
      List ((CoreId → UpdFields → Instr) × Nat)) →
    s.secAt c.val r → updOk op f = true → dst = bitsOf f.imm.toNat 7 4 →
    (r.u.elems = true → r.lastBlock = false → ∃ t : State, exec (mk c f) s = .next t ∧
      (t.core c.val).upd.block = r.u.block + 1 ∧ t.devMem = s.devMem ∧ t.localMem = s.localMem) ∧
    (∀ ys s1, r.u.elems = false → r.matrixOf s op f = .ok (some ys) → r.writePlane s dst ys = .ok s1 →
      ∃ t : State, exec (mk c f) s = .next t ∧ t.devMem = s1.devMem ∧ t.localMem = s1.localMem ∧
        (t.core c.val).upd.secflags = r.u.secflags ||| 2 ^ dst ∧ (t.core c.val).upd.fallbacks = r.u.fallbacks) ∧
    (r.u.elems = false → r.matrixOf s op f = .ok none → r.u.secflags.testBit dst = true →
      ∃ t : State, exec (mk c f) s = .next t ∧ t.devMem = s.devMem ∧ t.localMem = s.localMem ∧
        (t.core c.val).upd.secflags = r.u.secflags ||| 2 ^ 15 ∧ (t.core c.val).upd.lastFb = true ∧
        (t.core c.val).upd.fallbacks = r.u.fallbacks + 1)) ∧
  (∀ (c : CoreId) (f : UpdFields) (s : State) (r : SecRun), s.secAt c.val r → updOk 0x3F f = true →
    ∃ t : State, exec (.updEnd c f) s = .next t ∧ t.devMem = s.devMem ∧ t.localMem = s.localMem ∧ t.jobs = s.jobs ∧
      (r.u.elems = true → r.lastBlock = false → (t.core c.val).upd.block = r.u.block + 1 ∧
        (t.core c.val).run = (s.core c.val).run) ∧
      (r.u.elems = false ∨ r.lastBlock = true → (t.core c.val).run.bind (fun x => x.done) = some {})) ∧
  (∀ (mk : CoreId → UpdFields → Instr) (op : Nat) (c : CoreId) (f : UpdFields) (s : State) (r : SecRun),
    (mk, op) ∈ ([(.updNop, 0x00), (.updLd, 0x01), (.updSt, 0x02), (.updAdd, 0x08), (.updSub, 0x09), (.updMul, 0x0A),
      (.updFma, 0x0B), (.updDiv, 0x0C), (.updSqrt, 0x0D), (.updRsqrt, 0x0E), (.updAbs, 0x0F), (.updSign, 0x10),
      (.updMax, 0x11), (.updMin, 0x12), (.updClamp, 0x13), (.updSel, 0x14), (.updExp, 0x15), (.updLog, 0x16),
      (.updCvt, 0x17), (.updSumsq, 0x20), (.updNorm2, 0x21), (.mstepGram, 0x30), (.mstepOrth, 0x31), (.mstepInv, 0x32),
      (.mstepIroot, 0x33), (.updEnd, 0x3F)] : List ((CoreId → UpdFields → Instr) × Nat)) →
    s.secAt c.val r → updOk op f = false → exec (mk c f) s = .next (s.setDone c.val { status := tsProgram }))

/-- The life of an update (R160, R161, R166, R186 to R188, R192, R198, R201): its task checks the order of steps and
the skip decision, begins or stalls; its sections run; it resumes; and at its end the next version is placed. -/
def Obligations.UpdateLife : Prop :=
  (∀ (c : CoreId) (s : State) (x : Ctx) (k : Task) (j : Nat) (y : Job) (l : Layer), s.running c.val = some (x, k) →
    k.owner = .job j → k.kind = 8 → k.sec = none → s.job? j = some y → jobRuns y = true →
    y.layer? k.updLayer = some l →
    (s.compat.getLsbD 3 = false → l.seq = y.range.seq →
      exec (.taskUpd c) s = .next ((s.raise 0x3006 [y.part] true y.part (natLE 2 j ++ natLE 2 l.id ++
        natLE 4 y.range.seq ++ natLE 8 y.step)).fence j 0x04 0 0 0 0)) ∧
    ((s.compat.getLsbD 3 = true ∨ l.seq ≠ y.range.seq) → s.skipDecision j y l = none →
      exec (.taskUpd c) s = .next s) ∧
    (∀ hb, (s.compat.getLsbD 3 = true ∨ l.seq ≠ y.range.seq) → s.skipDecision j y l = some true → l.placed = none →
      s.wRead { x with move := none } (k.word 7) 0 64 = .ok hb → leAt hb 24 8 = 0 →
      ∃ (t : State) (z : Job) (m : Layer), exec (.taskUpd c) s = .next t ∧ t.job? j = some z ∧
        z.layer? l.id = some m ∧ m.seq = y.range.seq ∧ m.placed = some l.version ∧ m.skipCommit = true ∧
        m.version = l.version ∧ (t.core c.val).run.bind (fun r => r.done) = some {} ∧ t.devMem = s.devMem ∧
        t.hostMem = s.hostMem ∧ t.counters = s.counters) ∧
    ((s.compat.getLsbD 3 = true ∨ l.seq ≠ y.range.seq) → s.skipDecision j y l = some false →
      s.canPlace j l = false →
      ∃ (t : State) (z : Job) (m : Layer) (u : Upd), exec (.taskUpd c) s = .next t ∧ t.job? j = some z ∧
        z.layer? l.id = some m ∧ m.stalled = true ∧ m.stalls = (l.stalls + 1) % 2 ^ 32 ∧ m.version = l.version ∧
        tabFind z.upds l.id = some u ∧ u.stalled = true ∧ u.core = c.val ∧ u.task = k ∧ (t.core c.val).run = none ∧
        t.devMem = s.devMem ∧ t.hostMem = s.hostMem ∧ t.counters = s.counters) ∧
    (∀ run s1, s.jobsRising → (s.core c.val).run = some run →
      (s.compat.getLsbD 3 = true ∨ l.seq ≠ y.range.seq) →
      s.skipDecision j y l = some false → s.canPlace j l = true →
      s.updBegin { x with move := none } j c.val l k run.start = .ok s1 →
      exec (.taskUpd c) s = .next s1 ∧ (s1.core c.val).run = none ∧ s1.devMem = s.devMem ∧
      ∃ (z : Job) (m : Layer), s1.job? j = some z ∧ z.layer? l.id = some m ∧ m.seq = y.range.seq ∧
        m.stalled = false ∧ m.version = l.version ∧ tabFind z.upds l.id ≠ none)) ∧
  (∀ (c : CoreId) (s s1 : State) (x : Ctx) (j l i : Nat) (q : SecRun), s.onSection c.val = some (x, j, l, i) →
    (s.core c.val).upd.on = false → s.sectionRun { x with move := none } j l i = .ok (s1, q) →
    (q.fin = true → exec (.sectionTask c) s = .next ((s1.setCore c.val { s1.core c.val with upd := q.u }).setDone c.val {})) ∧
    (q.fin = false → exec (.sectionTask c) s = .next (s1.setCore c.val { s1.core c.val with upd := q.u }))) ∧
  (∀ (c : CoreId) (s : State) (x : Ctx) (j l i : Nat), s.onSection c.val = some (x, j, l, i) →
    (s.core c.val).upd.on = true → exec (.sectionTask c) s = .next s) ∧
  (∀ (j n : Nat) (s s1 : State) (y : Job) (u : Upd) (l : Layer), s.job? j = some y → tabFind y.upds n = some u →
    y.layer? n = some l → u.stalled = true → jobRuns y = true →
    (s.canPlace j l = false → exec (.updResume j n) s = .next s) ∧
    (s.canPlace j l = true →
      s.updBegin { s.ctxOf u.core u.task with move := none } j u.core l u.task u.startTick = .ok s1 →
      exec (.updResume j n) s = .next s1)) ∧
  (∀ (j n : Nat) (s s1 : State) (y : Job) (u : Upd) (l : Layer) (hb : List Byte) (x : Ctx), s.job? j = some y →
    tabFind y.upds n = some u → y.layer? n = some l → u.stalled = false → u.toPush = 0 → u.outstanding = 0 →
    y.st = .running → x = { s.ctxOf u.core u.task with move := none } → s.updRecord x u = .ok (s1, hb) →
    leAt hb 24 8 = 0 → u.task.cpl = false → y.named u.task = none →
    ∃ (t : State) (z : Job) (m : Layer), exec (.updComplete j n) s = .next t ∧ t.job? j = some z ∧
      z.layer? n = some m ∧ m.placed = some (nextVer l.version) ∧ m.version = l.version ∧
      tabFind z.upds n = none ∧ z.done = y.done + 1 ∧ t.devMem = s1.devMem ∧
      (t.ctr (y.ctrBase + u.task.sigId)).toNat =
        ((s.ctr (y.ctrBase + u.task.sigId)).toNat + u.task.sigInc) % 2 ^ 64) ∧
  (∀ (j n : Nat) (s : State) (y : Job) (u : Upd), s.job? j = some y → tabFind y.upds n = some u →
    (u.stalled = true ∨ u.toPush ≠ 0 ∨ u.outstanding ≠ 0) → exec (.updComplete j n) s = .next s)

/-- The collective engine (R216, R217, R225 to R233): a member does its own part once, places or combines what
arrives, serves gathers, and signals when its completion condition holds. -/
def Obligations.Collectives : Prop :=
  (∀ (mk : Nat → Nat → Instr) (op j n : Nat) (s : State) (x : Job) (c : Coll),
    (mk, op) ∈ ([(.reduceToOwner, 0), (.bcastFromOwner, 1), (.allGather, 2), (.reduceScatter, 3), (.allToAll, 4),
      (.ringShift, 5), (.layerGather, 6)] : List ((Nat → Nat → Instr) × Nat)) →
    s.job? j = some x → tabFind x.colls n = some c → c.op = op →
    (jobRuns x = false ∨ c.sent = true ∨ s.peersUp j c = false ∨ (op = 6 ∧ c.granted = false)) →
    exec (mk j n) s = .next s) ∧
  (∀ (j n : Nat) (s : State) (x : Job) (c : Coll) (v : List Word), s.job? j = some x → jobRuns x = true →
    tabFind x.colls n = some c → c.op = 0 → c.sent = false → s.peersUp j c = true → c.self = c.root → c.sum = [] →
    s.ownSum c = some v →
    ∃ (t : State) (y : Job), exec (.reduceToOwner j n) s = .next t ∧ t.job? j = some y ∧
      tabFind y.colls n = some { c with sum := v, sent := true } ∧ t.xp = s.xp ∧ t.devMem = s.devMem ∧
      t.hostMem = s.hostMem ∧ t.counters = s.counters) ∧
  (∀ (j n : Nat) (s : State) (x : Job) (c : Coll) (m : Member) (q : Qp) (bs : List Byte), s.job? j = some x →
    jobRuns x = true → tabFind x.colls n = some c → c.op = 0 → c.sent = false → s.peersUp j c = true →
    c.self ≠ c.root → 0 < c.len → s.devRead c.src c.len = some bs → c.members[c.root]? = some m →
    s.qp? m.qpn = some q →
    ∃ (t : State) (y : Job) (q2 : Qp), exec (.reduceToOwner j n) s = .next t ∧ t.job? j = some y ∧
      tabFind y.colls n = some { c with sent := true } ∧ t.qp? m.qpn = some q2 ∧
      q2.wrs.length = q.wrs.length + (cutChunks c.chunk bs).length ∧ q2.wrs.take q.wrs.length = q.wrs ∧
      (∀ k, k < (cutChunks c.chunk bs).length → (q2.wrs[q.wrs.length + k]?).map (fun w => (w.body, w.coll)) =
        some (some (collHeader x 0 c.layer n x.step (c.flags x (k + 1 = (cutChunks c.chunk bs).length)) c.version k ++
          c.wire ((cutChunks c.chunk bs).getD k [])), some n)) ∧
      (∀ e, e ≠ m.qpn → t.qp? e = s.qp? e) ∧ t.devMem = s.devMem ∧ t.hostMem = s.hostMem ∧ t.counters = s.counters) ∧
  (∀ (j n : Nat) (s : State) (x : Job) (c : Coll), s.job? j = some x → jobRuns x = true → tabFind x.colls n = some c →
    c.op = 1 → c.sent = false → s.peersUp j c = true → c.self = c.root →
    (c.skip = true ∨ c.len = 0 ∨ s.devRead (c.from x) c.len ≠ none) →
    ∃ (t : State) (y : Job), exec (.bcastFromOwner j n) s = .next t ∧ t.job? j = some y ∧
      tabFind y.colls n = some { c with sent := true } ∧ t.devMem = s.devMem ∧ t.hostMem = s.hostMem ∧
      t.counters = s.counters) ∧
  (∀ (j n : Nat) (s : State) (x : Job) (c : Coll) (bs : List Byte), s.job? j = some x → jobRuns x = true →
    tabFind x.colls n = some c → c.op = 2 → c.sent = false → s.peersUp j c = true → 0 < c.part c.self →
    s.devRead c.src (c.part c.self) = some bs →
    ∃ (t : State) (y : Job), exec (.allGather j n) s = .next t ∧ t.job? j = some y ∧
      tabFind y.colls n = some { c with sent := true } ∧
      t.devMem.readN (c.dst + c.offset c.self) bs.length = bs ∧
      (∀ b, b < c.dst + c.offset c.self ∨ c.dst + c.offset c.self + bs.length ≤ b → t.devMem.read b = s.devMem.read b) ∧
      t.hostMem = s.hostMem ∧ t.counters = s.counters) ∧
  (∀ (j n : Nat) (s : State) (x : Job) (c : Coll) (bs : List Byte) (v : List Word), s.job? j = some x →
    jobRuns x = true → tabFind x.colls n = some c → c.op = 3 → c.sent = false → s.peersUp j c = true →
    0 < c.offset c.n → s.devRead c.src (c.offset c.n) = some bs → c.sum = [] → s.ownSum c = some v →
    ∃ (t : State) (y : Job), exec (.reduceScatter j n) s = .next t ∧ t.job? j = some y ∧
      tabFind y.colls n = some { c with sum := v, sent := true } ∧ t.devMem = s.devMem ∧ t.hostMem = s.hostMem ∧
      t.counters = s.counters) ∧
  (∀ (j n a : Nat) (s : State) (x : Job) (c : Coll), s.job? j = some x → jobRuns x = true →
    tabFind x.colls n = some c → c.op = 4 → c.sent = false → s.peersUp j c = true →
    (c.offset c.n = 0 ∨ s.devRead c.src (c.offset c.n) ≠ none) → a = addrOf (c.w.getD 5 0) + 8 * (c.n + c.self) →
    ∃ (t : State) (y : Job), exec (.allToAll j n) s = .next t ∧ t.job? j = some y ∧
      tabFind y.colls n = some { c with counts := tabSet c.counts c.self (c.part c.self), sent := true } ∧
      t.devMem.readN a 8 = natLE 8 (c.part c.self) ∧
      (∀ b, b < a ∨ a + 8 ≤ b → t.devMem.read b = s.devMem.read b) ∧ t.hostMem = s.hostMem ∧
      t.counters = s.counters) ∧
  (∀ (j n : Nat) (s : State) (x : Job) (c : Coll) (bs : List Byte), s.job? j = some x → jobRuns x = true →
    tabFind x.colls n = some c → c.op = 5 → c.sent = false → s.peersUp j c = true → 0 < c.part c.self →
    s.devRead c.src (c.part c.self) = some bs →
    ∃ (t : State) (y : Job), exec (.ringShift j n) s = .next t ∧ t.job? j = some y ∧
      tabFind y.colls n = some { c with sent := true } ∧ (c.n ≠ 1 → t.devMem = s.devMem) ∧
      (c.n = 1 → t.xp = s.xp ∧ t.devMem.readN c.dst bs.length = bs) ∧ t.hostMem = s.hostMem ∧
      t.counters = s.counters) ∧
  (∀ (j n : Nat) (s : State) (x : Job) (c : Coll) (m : Member) (q : Qp), s.job? j = some x → jobRuns x = true →
    tabFind x.colls n = some c → c.op = 6 → c.sent = false → s.peersUp j c = true → c.granted = true →
    c.members[c.root]? = some m → s.qp? m.qpn = some q →
    ∃ (t : State) (y : Job) (q2 : Qp) (w : Wr), exec (.layerGather j n) s = .next t ∧ t.job? j = some y ∧
      tabFind y.colls n = some { c with sent := true, step := x.step } ∧ t.qp? m.qpn = some q2 ∧
      q2.wrs = q.wrs ++ [w] ∧ w.body = some (collHeader x 6 c.layer n x.step 8 0 0) ∧ w.coll = some n ∧
      (∀ e, e ≠ m.qpn → t.qp? e = s.qp? e) ∧ t.devMem = s.devMem ∧ t.hostMem = s.hostMem ∧
      t.counters = s.counters) ∧
  (∀ (j : Nat) (m : CollMsg) (s : State) (x : Job), s.job? j = some x → jobRuns x = true →
    (m.epoch ≠ x.epoch → exec (.collMessageReceive j m) s = .next (s.setJob j { x with epochDrop := satAdd 0xFF x.epochDrop 1 })) ∧
    (m.epoch = x.epoch → m.op ≠ 6 → tabFind x.colls m.collId = none →
      exec (.collMessageReceive j m) s = .next (s.fence j 0x07 0 0 0 0)) ∧
    (∀ c, m.epoch = x.epoch → m.op ≠ 6 → tabFind x.colls m.collId = some c → c.expects m (c.posOf m.sender) = false →
      exec (.collMessageReceive j m) s = .next (s.fence j 0x07 0 0 0 0))) ∧
  (∀ (j a p : Nat) (m : CollMsg) (s : State) (x : Job) (c : Coll), s.job? j = some x → jobRuns x = true →
    m.epoch = x.epoch → tabFind x.colls m.collId = some c → c.op = 2 → m.op = 2 → c.grad = false → c.layerbuf = false →
    p = c.posOf m.sender → c.expects m p = true → a = c.dst + c.offset p + m.chunkNo * c.chunk →
    s.extentBad x.part a m.payload.length = false →
    ∃ (t : State) (y : Job) (d : Coll), exec (.collMessageReceive j m) s = .next t ∧
      t.devMem.readN a m.payload.length = m.payload ∧
      (∀ b, b < a ∨ a + m.payload.length ≤ b → t.devMem.read b = s.devMem.read b) ∧ t.job? j = some y ∧
      tabFind y.colls m.collId = some d ∧ tabGet 0 d.got p = tabGet 0 c.got p + m.payload.length ∧
      (m.last = true → d.lasts.contains p = true) ∧ t.hostMem = s.hostMem ∧ t.counters = s.counters) ∧
  (∀ (j p : Nat) (m : CollMsg) (s : State) (x : Job) (c : Coll), s.job? j = some x → jobRuns x = true →
    m.epoch = x.epoch → tabFind x.colls m.collId = some c → (c.op = 0 ∨ c.op = 3) → m.op = c.op → c.grad = false →
    c.layerbuf = false → p = c.posOf m.sender → c.expects m p = true → c.sum ≠ [] →
    ∃ (t : State) (y : Job) (d : Coll), exec (.collMessageReceive j m) s = .next t ∧ t.job? j = some y ∧
      tabFind y.colls m.collId = some d ∧ d.sum = addFrom c.sum (m.chunkNo * c.chunk / 4) (c.unwire m.payload) ∧
      t.devMem = s.devMem ∧ t.hostMem = s.hostMem ∧ t.counters = s.counters) ∧
  (∀ (j n snd id qpn : Nat) (s : State) (x : Job) (l : Layer) (rest : List (Nat × Nat × Nat)) (q : Qp) (bs : List Byte),
    s.job? j = some x → jobRuns x = true → x.layer? n = some l →
    takeFirst (fun q : Nat × Nat × Nat => decide (q.2.1 ≤ l.commits)) l.requests = some ((snd, l.commits, id), rest) →
    (s.xp.qps.find? (fun e => decide (e.2.job = j) && decide (e.2.peer = snd) && decide (e.2.st = .rts))).map (·.1) = some qpn →
    s.qp? qpn = some q → 0 < l.size → s.devRead (l.buf l.version) l.size = some bs →
    ∃ (t : State) (y : Job) (q2 : Qp) (w : Wr), exec (.gatherRequestServe j n) s = .next t ∧ t.job? j = some y ∧
      (y.layer? n).map (·.requests) = some rest ∧ t.qp? qpn = some q2 ∧ q2.wrs = q.wrs ++ [w] ∧
      w.body = some (collHeader x 6 n id l.commits 8 l.version 0 ++ bs) ∧ w.reads = some (n, l.bufNo l.version) ∧
      t.devMem = s.devMem ∧ t.hostMem = s.hostMem ∧ t.counters = s.counters) ∧
  (∀ (j n a inc : Nat) (s : State) (x : Job) (c : Coll), s.job? j = some x → jobRuns x = true →
    tabFind x.colls n = some c → s.collDone j n c = true → (c.op = 1 ∨ c.op = 5) → inc = bitsOf (c.w.getD 1 0) 15 0 →
    a = x.ctrBase + bitsOf (c.w.getD 0 0) 55 42 → s.jobsRising →
    ∃ (t : State) (y : Job), exec (.collComplete j n) s = .next t ∧ t.job? j = some y ∧ tabFind y.colls n = none ∧
      (∀ k, k ≠ n → tabFind y.colls k = tabFind x.colls k) ∧
      (t.ctr a).toNat = ((s.ctr a).toNat + inc) % 2 ^ 64 ∧ (∀ e, e ≠ a → t.ctr e = s.ctr e) ∧ t.devMem = s.devMem ∧
      t.hostMem = s.hostMem ∧ t.xp = s.xp) ∧
  (∀ (j n : Nat) (s : State) (x : Job) (c : Coll), s.job? j = some x → tabFind x.colls n = some c →
    s.collDone j n c = false → exec (.collComplete j n) s = .next s)

/-- Invar's events (R393 to R404, R407): sampler steps, retrains and what a freeze holds, rings and lasers, the slew
budget, Solder lanes, and droop thresholds. -/
def Obligations.InvarEvents : Prop :=
  (∀ (ch : ChanId) (centre margin : Int) (s : State) (x : Chan), s.chanRuns ch.val = true → x = s.chan ch.val →
    flag (s.reg .iv 0x000) 31 = true → centre ≠ x.phase →
    (s.frozen (ch.val / 48) = false → x.stepTick + 10000 ≤ s.tick →
      ∃ t : State, exec (.memEyeMeasure ch centre margin) s = .next t ∧ (t.chan ch.val).margin = margin.toNat ∧
        (t.chan ch.val).phase = x.phase + (if x.phase < centre then 1 else -1) ∧ (t.chan ch.val).stepTick = s.tick ∧
        (∀ k, k ≠ ch.val → t.chan k = s.chan k) ∧ t.mem = s.mem ∧ t.devMem = s.devMem) ∧
    (s.frozen (ch.val / 48) = true → x.heldStep = none →
      ∃ t : State, exec (.memEyeMeasure ch centre margin) s = .next t ∧ (t.chan ch.val).phase = x.phase ∧
        (t.chan ch.val).heldStep = some (if x.phase < centre then 1 else -1) ∧
        t.inv.held = (s.inv.held + 1) % 65536 ∧ (∀ k, k ≠ ch.val → t.chan k = s.chan k) ∧ t.mem = s.mem)) ∧
  (∀ (ch : ChanId) (m : Nat) (s : State), s.chanRuns ch.val = true → s.retrainOk ch.val = true →
    (s.frozen (ch.val / 48) = true → exec (.memRetrain ch m) s = .next s.countHeld) ∧
    (s.frozen (ch.val / 48) = false → ∃ t : State, exec (.memRetrain ch m) s = .next t ∧ (t.chan ch.val).margin = m ∧
      (t.chan ch.val).retrainTick = some s.tick ∧ (t.chan ch.val).waiting = none ∧
      (t.chan ch.val).weak = ((s.chan ch.val).weak || decide (m < s.rf .iv 0x000 7 0)) ∧
      (t.die (ch.val / 48)).retrains = ((s.die (ch.val / 48)).retrains + 1) % 65536 ∧
      (∀ k, k ≠ ch.val → t.chan k = s.chan k) ∧ t.mem = s.mem ∧ t.devMem = s.devMem)) ∧
  (∀ (ch : ChanId) (s : State) (t0 : Nat), s.chanRuns ch.val = true → (s.chan ch.val).waiting = some t0 →
    (t0 + 1000000 ≤ s.tick → exec (.retrainWaitExpire ch) s =
      .next (s.setChan ch.val { s.chan ch.val with waitOver := true })) ∧
    (s.tick < t0 + 1000000 → exec (.retrainWaitExpire ch) s = .next s)) ∧
  (∀ (d : DieId) (s : State) (t0 : Nat), (s.die d.val).freezeUntil = some t0 → t0 ≤ s.tick →
    (∀ g, g < 8 → (s.grp (8 * d.val + g)).change = none) →
    ∃ t : State, exec (.freezeEnd d) s = .next t ∧ (t.die d.val).freezeUntil = none ∧
      (∀ g, g < 8 → (t.grp (8 * d.val + g)).frozen = false) ∧
      (∀ c k, c ∈ s.dieChans d.val → (s.chan c).heldStep = some k →
        (t.chan c).phase = (s.chan c).phase + k ∧ (t.chan c).heldStep = none ∧ (t.chan c).stepTick = s.tick) ∧
      (∀ c, (s.chan c).heldStep = none → t.chan c = s.chan c)) ∧
  (∀ (d : DieId) (s : State) (t0 : Nat), (s.die d.val).freezeUntil = some t0 → s.tick < t0 →
    exec (.freezeEnd d) s = .next s) ∧
  (∀ (p : PortId) (lane : Fin 8) (s : State), s.optOn p.val = true →
    ((tabGet {} (s.port p.val).rings lane.val).locked = true →
      ∃ t : State, exec (.ringLockLoss p lane) s = .next t ∧
        (tabGet {} (t.port p.val).rings lane.val).locked = false ∧ (t.port p.val).relocks = (s.port p.val).relocks ∧
        (∀ k, k ≠ lane.val → tabGet {} (t.port p.val).rings k = tabGet {} (s.port p.val).rings k) ∧ t.subs = s.subs) ∧
    ((tabGet {} (s.port p.val).rings lane.val).locked = false →
      ∃ t : State, exec (.ringRelock p lane) s = .next t ∧
        (tabGet {} (t.port p.val).rings lane.val).locked = true ∧
        (t.port p.val).relocks = ((s.port p.val).relocks + 1) % 65536 ∧ t.subs = s.subs)) ∧
  (∀ (b : BayId) (out : Fin 16) (step : Int) (s : State), s.power.cp = true → (s.bay b.val).lit = true →
    (tabFind (s.bay b.val).trimTick out.val = none ∨
      ∃ t0, tabFind (s.bay b.val).trimTick out.val = some t0 ∧ t0 + 100000 ≤ s.tick) →
    (step.natAbs ≤ 5 → ∃ t : State, exec (.laserTrim b out step) s = .next t ∧
      tabGet 0 (t.bay b.val).bias out.val = tabGet 0 (s.bay b.val).bias out.val + step ∧
      tabFind (t.bay b.val).trimTick out.val = some s.tick ∧
      (∀ k, k ≠ out.val → tabGet 0 (t.bay b.val).bias k = tabGet 0 (s.bay b.val).bias k) ∧
      (t.bay b.val).lit = true ∧ (∀ k, k ≠ b.val → t.bay k = s.bay k)) ∧
    (5 < step.natAbs → exec (.laserTrim b out step) s = .next s)) ∧
  (∀ (d : DieId) (hs : List Nat) (s : State), s.power.cp = true →
    ((∃ h ∈ hs, h < 10) → ∃ t : State, exec (.slewBudgetUpdate d hs) s = .next t ∧ (t.die d.val).lowHeadroom = true ∧
      (t.die d.val).effective = s.rf .iv (0x010 + 4 * d.val) 7 0 / 2 ∧ (t.die d.val).goodTick = none) ∧
    ((∀ h ∈ hs, 15 ≤ h) → (s.die d.val).goodTick = none → (s.die d.val).lowHeadroom = true →
      ∃ t : State, exec (.slewBudgetUpdate d hs) s = .next t ∧ (t.die d.val).lowHeadroom = true ∧
        (t.die d.val).goodTick = some s.tick) ∧
    (∀ t0, (∀ h ∈ hs, 15 ≤ h) → (s.die d.val).goodTick = some t0 → t0 + 1000000 ≤ s.tick →
      ∃ t : State, exec (.slewBudgetUpdate d hs) s = .next t ∧ (t.die d.val).lowHeadroom = false ∧
        (t.die d.val).effective = s.rf .iv (0x010 + 4 * d.val) 7 0)) ∧
  (∀ (b : BridgeId) (m : Fin 12) (s : State), s.power.cp = true → flag (s.reg .iv 0x000) 30 = true →
    (s.bridge b.val).out = false → hasShadow (s.module b.val m.val) = true → (s.module b.val m.val).recal = none →
    ((s.frozen (bridgeDies b.val).1 = true ∨ s.frozen (bridgeDies b.val).2 = true) →
      exec (.laneRecal b m) s = .next s.countHeld) ∧
    (s.frozen (bridgeDies b.val).1 = false → s.frozen (bridgeDies b.val).2 = false →
      ∃ (t : State) (l : Nat), exec (.laneRecal b m) s = .next t ∧ (t.module b.val m.val).recal = some l ∧
        l ∈ carriers (s.module b.val m.val) ∧ (t.module b.val m.val).retired = (s.module b.val m.val).retired ∧
        t.defects = s.defects)) ∧
  (∀ (b : BridgeId) (m : Fin 12) (s : State) (l : Nat), (s.module b.val m.val).recal = some l →
    (∃ t : State, exec (.laneRecalDone b m true) s = .next t ∧ (t.module b.val m.val).recal = none ∧
      (t.module b.val m.val).nextLane = l + 1 ∧ (t.module b.val m.val).retired = (s.module b.val m.val).retired ∧
      (t.bridge b.val).swaps = ((s.bridge b.val).swaps + 1) % 65536 ∧ t.defects = s.defects) ∧
    (∃ t : State, exec (.laneRecalDone b m false) s = .next t ∧ (t.module b.val m.val).recal = none ∧
      (t.module b.val m.val).retired = (s.module b.val m.val).retired ++ [l] ∧
      (t.bridge b.val).half = (s.bridge b.val).half)) ∧
  (∀ (mk : BridgeId → Fin 12 → Fin 68 → Instr) (b : BridgeId) (m : Fin 12) (l : Fin 68) (s : State),
    mk ∈ ([.laneRetire, .laneFail] : List (BridgeId → Fin 12 → Fin 68 → Instr)) → s.power.cp = true →
    (s.bridge b.val).out = false → l.val ∈ carriers (s.module b.val m.val) →
    ∃ t : State, exec (mk b m l) s = .next t ∧
      (t.module b.val m.val).retired = (s.module b.val m.val).retired ++ [l.val] ∧
      (hasShadow (s.module b.val m.val) = true → (t.bridge b.val).half = (s.bridge b.val).half ∧
        (t.bridge b.val).out = false) ∧
      (hasShadow (s.module b.val m.val) = false → (s.bridge b.val).half = false →
        (t.bridge b.val).half = true ∧ (t.bridge b.val).out = false) ∧
      (hasShadow (s.module b.val m.val) = false → (s.bridge b.val).half = true → (t.bridge b.val).out = true) ∧
      (∀ k, k ≠ b.val → t.bridge k = s.bridge k)) ∧
  (∀ (g : GroupId) (n : Nat) (s : State), s.grpOn g.val = true →
    ((s.grp g.val).frozen = true → exec (.droopRecal g n) s = .next s.countHeld) ∧
    ((s.grp g.val).frozen = false → ∃ t : State, exec (.droopRecal g n) s = .next t ∧
      tabFind (t.grp g.val).droopTick (s.grp g.val).opp = some s.tick ∧
      t.inv.droopRecals = (s.inv.droopRecals + 1) % 65536 ∧ t.inv.droopFailed = (s.inv.droopFailed + n) % 65536 ∧
      (∀ k, k ≠ g.val → t.grp k = s.grp k)))

/-- What a command leaves alone in the units (log 1): no command touches the queue of waiting commands; only
POWER_ON restarts the period timer (R244) and only a loss of power, a trip or a warm reset begins a new generation of accumulators;
and, for each unit, only the commands that `mayAnswerBus` to `mayBay` name change what it holds. -/
def Obligations.UnitFrame : Prop :=
  (∀ (c : Instr) (s t : State), exec c s = .next t → t.pending = s.pending) ∧
  (∀ (c : Instr) (s t : State), exec c s = .next t → (∀ mv, c ≠ .powerOn mv) → t.tick = s.tick) ∧
  (∀ (c : Instr) (s t : State), exec c s = .next t → c ≠ .tripPowerOff → c ≠ .perstAssert → c ≠ .powerLoss →
    c ≠ .overvoltage → t.era = s.era) ∧
  (∀ (c : Instr) (s t : State), exec c s = .next t → mayAnswerBus c = false → t.busOut = s.busOut) ∧
  (∀ (c : Instr) (s t : State), exec c s = .next t → mayLatch c = false → t.snap = s.snap) ∧
  (∀ (c : Instr) (s t : State), exec c s = .next t → mayCompat c = false → t.compat = s.compat) ∧
  (∀ (c : Instr) (s t : State), exec c s = .next t → mayRemap c = false → t.remap = s.remap) ∧
  (∀ (c : Instr) (s t : State), exec c s = .next t → mayCountErr c = false → t.errcnt = s.errcnt) ∧
  (∀ (c : Instr) (s t : State), exec c s = .next t → mayWstat c = false → t.wstat = s.wstat) ∧
  (∀ (c : Instr) (s t : State), exec c s = .next t → mayCv c = false → t.cvs = s.cvs) ∧
  (∀ (c : Instr) (s t : State), exec c s = .next t → mayCon c = false → t.con = s.con) ∧
  (∀ (c : Instr) (s t : State), exec c s = .next t → mayDie c = false → t.dies = s.dies) ∧
  (∀ (c : Instr) (s t : State), exec c s = .next t → mayGroup c = false → t.groups = s.groups) ∧
  (∀ (c : Instr) (s t : State), exec c s = .next t → mayInv c = false → t.inv = s.inv) ∧
  (∀ (c : Instr) (s t : State), exec c s = .next t → mayPort c = false → t.ports = s.ports) ∧
  (∀ (c : Instr) (s t : State), exec c s = .next t → mayBay c = false → t.bays = s.bays)

/-- What a command leaves alone in the memories and tables: host memory, device memory, local stores,
accumulators, sync counters, services, Pewter programs and the defect list change only under the commands that
`mayHostMem` to `mayDefects` name; under every other command each byte and each entry stays. -/
def Obligations.MemoryFrame : Prop :=
  (∀ (c : Instr) (s t : State) (a : Nat), exec c s = .next t → mayHostMem c = false →
    t.hostMem.read a = s.hostMem.read a) ∧
  (∀ (c : Instr) (s t : State) (a : Nat), exec c s = .next t → mayDevMem c = false →
    t.devMem.read a = s.devMem.read a) ∧
  (∀ (c : Instr) (s t : State) (a : Nat), exec c s = .next t → mayLocal c = false →
    t.localMem.read a = s.localMem.read a) ∧
  (∀ (c : Instr) (s t : State), exec c s = .next t → mayAcc c = false → t.acc = s.acc ∧ t.accFlags = s.accFlags) ∧
  (∀ (c : Instr) (s t : State) (i : Nat), exec c s = .next t → mayCtr c = false → t.ctr i = s.ctr i) ∧
  (∀ (c : Instr) (s t : State) (k : Nat), exec c s = .next t → maySvc c = false → t.svc? k = s.svc? k) ∧
  (∀ (c : Instr) (s t : State), exec c s = .next t → mayPewter c = false → t.pewter = s.pewter) ∧
  (∀ (c : Instr) (s t : State), exec c s = .next t → mayDefects c = false → t.defects = s.defects)

/-- One step executes the command at the front of the queue with the queue's rest. On an empty queue the block
idles: the model's own choice is that the period timer counts one tick of AONCLK while 48 V is present (log 1;
the timer itself is R244's). -/
def Obligations.StepRunsFront : Prop :=
  (∀ (c : Instr) (cs : List Instr) (s : State), s.pending = c :: cs → step s = exec c { s with pending := cs }) ∧
  (∀ s : State, s.pending = [] → ∃ t : State, step s = .next t ∧
    t.tick = (if s.power.v48 then s.tick + 1 else s.tick) ∧ { t with tick := s.tick } = s)

/-- What reset leaves (R19, R56, R447): NEXT is 0x01 and the result IDLE, COMPAT is 0, every register of every page
reads its reset value with nothing pending, and no partition, job, service or queue pair exists. That 48 V is
present with PERST_N asserted and nothing switched on, that mailboxes are off, and that no memory lists a byte
are the model's choice of where reset stands (log 3, 12, 65). -/
def Obligations.ResetValues : Prop :=
  State.reset.pending = [] ∧ State.reset.bu.next = 0x01 ∧ State.reset.bu.result = 0 ∧ State.reset.compat = 0 ∧
  (∀ (b : Blk) (off : Nat), State.reset.reg b off = regReset b off) ∧ State.reset.pend = [] ∧
  State.reset.sec.parts = [] ∧ State.reset.jobs = [] ∧ State.reset.svcs = [] ∧ State.reset.xp.qps = [] ∧
  State.reset.power.v48 = true ∧ State.reset.power.perst = true ∧ State.reset.power.hub = false ∧
  State.reset.power.cp = false ∧ State.reset.link.up = false ∧
  (∀ n, (State.reset.mb n).st = .disabled) ∧ State.reset.hostMem.cells = [] ∧ State.reset.devMem.cells = [] ∧
  State.reset.localMem.cells = [] ∧ State.reset.store.bytes.cells = [] ∧
  (∀ a, State.reset.hostMem.read a = 0)

/-- What every step keeps, at reset: every memory is in canonical form, and every job is listed once (log 2). -/
def Obligations.ResetInvariant : Prop :=
  State.reset.memWf = true ∧ State.reset.jobsRising

/-- What every step keeps, from every state: device memory, host memory, local stores and weight store stay in
canonical form (so that equal memories are equal data), and every job stays listed once (log 2). -/
def Obligations.StepKeepsInvariant : Prop :=
  ∀ s t : State, s.memWf = true ∧ s.jobsRising → step s = .next t → t.memWf = true ∧ t.jobsRising

/-- Messages to the host. A response (R31, R32, R33, R38) is 64 bytes at the next response slot, after which
RSP_PROD has advanced by one and, with INT_EN and without NOINT, the vector is raised; nothing else of host memory
and no other mailbox changes; a ring in device memory is written there instead. With the response ring full it is held: nothing is written, and the mailbox is not
ready for a request. An event (R431) is 32 bytes at the queue's producer index, with LOST where entries were lost
since the last one; with the ring full the entry is lost and only that is noted. While the link is down, what
would go to host memory is discarded and counted, and a vector is lost (R312). -/
def Obligations.MessagesToHost : Prop :=
  (∀ (s : State) (mb tag status a : Nat) (noint : Bool) (res : List Byte),
    (s.mb mb).st ≠ .disabled → s.rspFull mb = false → flag (s.reg (.mb mb) 0x020) 29 = false → s.link.up = true →
    res.length ≤ 56 → a = s.ringBase mb 0x018 + 64 * ((s.mb mb).rspProd % 64) →
    (s.respond mb tag noint status res).hostMem.readN a 64 =
      natLE 2 status ++ zeros 2 ++ natLE 4 tag ++ res ++ zeros (56 - res.length) ∧
    (∀ b, b < a ∨ a + 64 ≤ b → (s.respond mb tag noint status res).hostMem.read b = s.hostMem.read b) ∧
    ((s.respond mb tag noint status res).mb mb).rspProd = ((s.mb mb).rspProd + 1) % 128 ∧
    (∀ n, n ≠ mb → (s.respond mb tag noint status res).mb n = s.mb n) ∧
    (s.respond mb tag noint status res).devMem = s.devMem ∧
    (s.respond mb tag noint status res).link.msix =
      (if flag (s.reg (.mb mb) 0x020) 0 = true ∧ noint = false
        then fld (s.reg (.mb mb) 0x020) 23 16 :: s.link.msix else s.link.msix)) ∧
  (∀ (s : State) (mb tag status a : Nat) (noint : Bool) (res : List Byte),
    (s.mb mb).st ≠ .disabled → s.rspFull mb = false → flag (s.reg (.mb mb) 0x020) 29 = true →
    a = s.ringBase mb 0x018 + 64 * ((s.mb mb).rspProd % 64) → s.ringOk mb a 64 = true → res.length ≤ 56 →
    (s.respond mb tag noint status res).devMem.readN a 64 =
      natLE 2 status ++ zeros 2 ++ natLE 4 tag ++ res ++ zeros (56 - res.length) ∧
    (∀ b, b < a ∨ a + 64 ≤ b → (s.respond mb tag noint status res).devMem.read b = s.devMem.read b) ∧
    ((s.respond mb tag noint status res).mb mb).rspProd = ((s.mb mb).rspProd + 1) % 128 ∧
    (s.respond mb tag noint status res).hostMem = s.hostMem ∧
    (s.respond mb tag noint status res).link.msix =
      (if flag (s.reg (.mb mb) 0x020) 0 = true ∧ noint = false ∧ s.link.up = true
        then fld (s.reg (.mb mb) 0x020) 23 16 :: s.link.msix else s.link.msix)) ∧
  (∀ (s : State) (mb tag status : Nat) (noint : Bool) (res : List Byte),
    (s.mb mb).st ≠ .disabled → s.rspFull mb = true →
    ((s.respond mb tag noint status res).mb mb).held.isSome = true ∧
    ((s.respond mb tag noint status res).mb mb).rspProd = (s.mb mb).rspProd ∧
    (s.respond mb tag noint status res).mbReady mb = false ∧
    (∀ n, n ≠ mb → (s.respond mb tag noint status res).mb n = s.mb n) ∧
    (s.respond mb tag noint status res).hostMem = s.hostMem ∧
    (s.respond mb tag noint status res).devMem = s.devMem ∧
    (s.respond mb tag noint status res).link = s.link) ∧
  (∀ (s : State) (q code part n a : Nat) (detail : List Byte) (e : EvQueue),
    tabFind s.sec.evqs q = some e → e.set = true → n = 2 ^ e.log2 →
    (e.prod + 2 * n - s.rf (evqBlk q).1 (evqBlk q).2 12 0 % (2 * n)) % (2 * n) ≠ n →
    a = e.base + 32 * (e.prod % n) → r40Dev a = false → s.link.up = true → detail.length ≤ 16 →
    (s.evqPut q code part detail).hostMem.readN a 32 =
      natLE 2 code ++ natLE 1 (if e.lost then 1 else 0) ++ natLE 1 part ++ natLE 4 e.seq ++ natLE 8 s.tick ++
        detail ++ zeros (16 - detail.length) ∧
    (∀ b, b < a ∨ a + 32 ≤ b → (s.evqPut q code part detail).hostMem.read b = s.hostMem.read b) ∧
    tabFind (s.evqPut q code part detail).sec.evqs q =
      some { e with prod := (e.prod + 1) % (2 * n), lost := false, seq := (e.seq + 1) % 2 ^ 32 } ∧
    (∀ p, p ≠ q → tabFind (s.evqPut q code part detail).sec.evqs p = tabFind s.sec.evqs p) ∧
    (s.evqPut q code part detail).link.msix = (if e.intEn then e.vec :: s.link.msix else s.link.msix)) ∧
  (∀ (s : State) (q code part n : Nat) (detail : List Byte) (e : EvQueue),
    tabFind s.sec.evqs q = some e → e.set = true → n = 2 ^ e.log2 →
    (e.prod + 2 * n - s.rf (evqBlk q).1 (evqBlk q).2 12 0 % (2 * n)) % (2 * n) = n →
    s.evqPut q code part detail =
      { s with sec := { s.sec with evqs := tabSet s.sec.evqs q { e with lost := true } } }) ∧
  (∀ (s : State) (a v : Nat) (bs : List Byte), s.link.up = false → bs ≠ [] →
    (s.hostWrite a bs).hostMem = s.hostMem ∧
    (s.hostWrite a bs).link.discard = satAdd 0xFFFFFFFF s.link.discard 1 ∧ (s.msi v).link.msix = s.link.msix)
end

