-- ==== Sys2Proof/Laws/Tab.lean ====
section
/-! SUPPORT. Laws of sparse tables and byte memories: an entry reads back what was written, other entries
are untouched, and every memory operation keeps the canonical form. -/

namespace Sys2Proof.Machine
set_option Elab.async false

/-! ### Tables -/

@[simp] theorem tabGet_tabSet_same {α : Type} (d : α) (t : Tab α) (i : Nat) (v : α) :
    tabGet d (tabSet t i v) i = v := by
  induction t with
  | nil => simp [tabSet, tabGet]
  | cons e t ih =>
    obtain ⟨k, w⟩ := e
    simp only [tabSet]
    split
    · simp [tabGet]
    · split <;> simp_all [tabGet]

theorem tabGet_tabSet_ne {α : Type} (d : α) (t : Tab α) {i j : Nat} (v : α) (h : j ≠ i) :
    tabGet d (tabSet t i v) j = tabGet d t j := by
  induction t with
  | nil => simp [tabSet, tabGet, Ne.symm h]
  | cons e t ih =>
    obtain ⟨k, w⟩ := e
    simp only [tabSet]
    split
    · simp [tabGet, Ne.symm h]
    · split
      · subst k; simp [tabGet, Ne.symm h]
      · simp [tabGet, ih]

@[simp] theorem tabFind_tabSet_same {α : Type} (t : Tab α) (i : Nat) (v : α) :
    tabFind (tabSet t i v) i = some v := by
  induction t with
  | nil => simp [tabSet, tabFind]
  | cons e t ih =>
    obtain ⟨k, w⟩ := e
    simp only [tabSet]
    split
    · simp [tabFind]
    · split <;> simp_all [tabFind]

theorem tabFind_tabSet_ne {α : Type} (t : Tab α) {i j : Nat} (v : α) (h : j ≠ i) :
    tabFind (tabSet t i v) j = tabFind t j := by
  induction t with
  | nil => simp [tabSet, tabFind, Ne.symm h]
  | cons e t ih =>
    obtain ⟨k, w⟩ := e
    simp only [tabSet]
    split
    · simp [tabFind, Ne.symm h]
    · split
      · subst k; simp [tabFind, Ne.symm h]
      · simp [tabFind, ih]

@[simp] theorem tabFind_tabDel_same {α : Type} (t : Tab α) (i : Nat) : tabFind (tabDel t i) i = none := by
  induction t with
  | nil => rfl
  | cons e t ih =>
    obtain ⟨k, w⟩ := e
    by_cases h : k = i
    · simpa [tabDel, h] using ih
    · simpa [tabDel, h, tabFind] using ih

/-- Two reads of one table agree where an entry was found. -/
theorem tabGet_of_tabFind {α : Type} (d : α) (t : Tab α) {i : Nat} {v : α} (h : tabFind t i = some v) :
    tabGet d t i = v := by
  induction t with
  | nil => simp [tabFind] at h
  | cons e t ih => obtain ⟨k, w⟩ := e; by_cases hk : k = i <;> simp_all [tabFind, tabGet]

/-! ### One byte of memory -/

theorem cellsGet_cellsSet_same (l : List Host.Cell) (a : Nat) (b : Byte) :
    cellsGet (cellsSet l a b) a = some b := by
  induction l with
  | nil => simp [cellsSet, cellsGet]
  | cons e t ih =>
    obtain ⟨k, w⟩ := e
    simp only [cellsSet]
    split
    · simp [cellsGet]
    · split <;> simp_all [cellsGet]

theorem cellsGet_cellsSet_ne (l : List Host.Cell) {a c : Nat} (b : Byte) (h : c ≠ a) :
    cellsGet (cellsSet l a b) c = cellsGet l c := by
  induction l with
  | nil => simp [cellsSet, cellsGet, Ne.symm h]
  | cons e t ih =>
    obtain ⟨k, w⟩ := e
    simp only [cellsSet]
    split
    · simp [cellsGet, Ne.symm h]
    · split
      · subst k; simp [cellsGet, Ne.symm h]
      · simp [cellsGet, ih]

theorem cellsGet_filter (l : List Host.Cell) (p : Host.Cell → Bool) (c : Nat)
    (h : ∀ b, p (c, b) = true) : cellsGet (l.filter p) c = cellsGet l c := by
  induction l with
  | nil => rfl
  | cons e t ih =>
    obtain ⟨k, w⟩ := e
    by_cases hk : k = c
    · subst hk; simp [h, cellsGet]
    · by_cases hp : p (k, w) = true <;> simp [hp, cellsGet, hk, ih]

theorem cellsGet_filter_none (l : List Host.Cell) (p : Host.Cell → Bool) (c : Nat)
    (h : ∀ b, p (c, b) = false) : cellsGet (l.filter p) c = none := by
  induction l with
  | nil => rfl
  | cons e t ih =>
    obtain ⟨k, w⟩ := e
    by_cases hp : p (k, w) = true
    · have : k ≠ c := by rintro rfl; simp [h] at hp
      simp [hp, cellsGet, this, ih]
    · simpa [hp] using ih

@[simp] theorem Mem.write_undef (m : Mem) (a : Nat) (b : Byte) : (m.write a b).undef = m.undef := by
  unfold Mem.write; split
  · split <;> rfl
  · rfl

@[simp] theorem Mem.write_unlisted (m : Mem) (a : Nat) (b : Byte) (c : Nat) :
    (m.write a b).unlisted c = m.unlisted c := by simp [Mem.unlisted, Mem.undefAt]

/-- A byte reads back as it was written. -/
@[simp] theorem Mem.read_write_same (m : Mem) (a : Nat) (b : Byte) : (m.write a b).read a = b := by
  unfold Mem.read
  rw [Mem.write_unlisted]
  unfold Mem.write
  split
  · rename_i hu
    split
    · subst b; simp [cellsGet_filter_none, Mem.unlisted, hu]
    · simp [cellsGet_cellsSet_same]
  · simp [cellsGet_cellsSet_same]

/-- A write leaves every other byte alone. -/
theorem Mem.read_write_ne (m : Mem) {a c : Nat} (b : Byte) (h : c ≠ a) : (m.write a b).read c = m.read c := by
  unfold Mem.read
  rw [Mem.write_unlisted]
  unfold Mem.write
  split
  · split
    · rw [cellsGet_filter]; intro b; simpa using h
    · rw [cellsGet_cellsSet_ne _ _ h]
  · rw [cellsGet_cellsSet_ne _ _ h]

/-- Bytes outside a written span keep their values. -/
theorem Mem.read_writeL_outside (m : Mem) (a : Nat) (bs : List Byte) (c : Nat)
    (h : c < a ∨ a + bs.length ≤ c) : (m.writeL a bs).read c = m.read c := by
  induction bs generalizing m a with
  | nil => rfl
  | cons b bs ih =>
    simp only [List.length_cons] at h
    rw [Mem.writeL, ih _ _ (by omega), Mem.read_write_ne _ _ (by omega)]

/-- Bytes inside a written span read as written. -/
theorem Mem.read_writeL_inside (m : Mem) (a : Nat) (bs : List Byte) (i : Nat) (h : i < bs.length) :
    (m.writeL a bs).read (a + i) = bs[i] := by
  induction bs generalizing m a i with
  | nil => simp at h
  | cons b bs ih =>
    rw [Mem.writeL]
    cases i with
    | zero => rw [Mem.read_writeL_outside _ _ _ _ (by omega)]; simp
    | succ i => rw [show a + (i + 1) = (a + 1) + i from by omega, ih _ _ _ (by simpa using h)]; simp

@[simp] theorem Mem.readN_length (m : Mem) (a n : Nat) : (m.readN a n).length = n := by
  induction n generalizing a with
  | zero => rfl
  | succ n ih => simp [Mem.readN, ih]

/-- A span reads back as it was written. -/
@[simp] theorem Mem.readN_writeL_same (m : Mem) (a : Nat) (bs : List Byte) :
    (m.writeL a bs).readN a bs.length = bs := by
  induction bs generalizing m a with
  | nil => rfl
  | cons b bs ih =>
    simp only [Mem.writeL, List.length_cons, Mem.readN, ih, List.cons.injEq, and_true]
    rw [Mem.read_writeL_outside _ _ _ _ (by omega)]; simp

/-- A span that a write does not touch reads as before. -/
theorem Mem.readN_writeL_apart (m : Mem) (a : Nat) (bs : List Byte) (c n : Nat)
    (h : c + n ≤ a ∨ a + bs.length ≤ c) : (m.writeL a bs).readN c n = m.readN c n := by
  induction n generalizing c with
  | zero => rfl
  | succ n ih =>
    rw [Mem.readN, Mem.readN, ih _ (by omega), Mem.read_writeL_outside _ _ _ _ (by omega)]

/-! ### The canonical form -/

/-- Rising addresses, as a property of the head. -/
theorem cellsRising_cons {e : Host.Cell} {t : List Host.Cell} :
    cellsRising (e :: t) = true ↔ (∀ f ∈ t, e.1 < f.1) ∧ cellsRising t = true := by
  induction t generalizing e with
  | nil => simp [cellsRising]
  | cons f t ih =>
    obtain ⟨a, x⟩ := e
    obtain ⟨b, y⟩ := f
    simp only [cellsRising, Bool.and_eq_true, decide_eq_true_eq]
    constructor
    · rintro ⟨h1, h2⟩
      refine ⟨?_, h2⟩
      intro g hg
      rcases List.mem_cons.1 hg with rfl | hg
      · exact h1
      · exact Nat.lt_trans h1 ((ih.1 h2).1 g hg)
    · rintro ⟨h1, h2⟩
      exact ⟨h1 (b, y) (by simp), h2⟩

theorem mem_cellsSet {l : List Host.Cell} {a : Nat} {b : Byte} {e : Host.Cell}
    (h : e ∈ cellsSet l a b) : e = (a, b) ∨ e ∈ l := by
  induction l with
  | nil => simpa [cellsSet] using h
  | cons f t ih =>
    obtain ⟨k, w⟩ := f
    simp only [cellsSet] at h
    split at h
    · simpa using h
    · split at h
      · rcases List.mem_cons.1 h with h | h <;> simp_all
      · rcases List.mem_cons.1 h with h | h
        · simp [h]
        · rcases ih h with h | h <;> simp [h]

theorem cellsRising_cellsSet {l : List Host.Cell} (a : Nat) (b : Byte) (h : cellsRising l = true) :
    cellsRising (cellsSet l a b) = true := by
  induction l with
  | nil => rfl
  | cons e t ih =>
    obtain ⟨k, w⟩ := e
    obtain ⟨h1, h2⟩ := cellsRising_cons.1 h
    simp only [cellsSet]
    split
    · rename_i hk
      refine cellsRising_cons.2 ⟨?_, h⟩
      intro f hf
      rcases List.mem_cons.1 hf with rfl | hf
      · exact hk
      · exact Nat.lt_trans hk (h1 f hf)
    · split
      · rename_i hk; subst hk
        exact cellsRising_cons.2 ⟨h1, h2⟩
      · refine cellsRising_cons.2 ⟨?_, ih h2⟩
        intro f hf
        rcases mem_cellsSet hf with rfl | hf
        · show k < a; omega
        · exact h1 f hf

theorem cellsRising_filter {l : List Host.Cell} (p : Host.Cell → Bool) (h : cellsRising l = true) :
    cellsRising (l.filter p) = true := by
  induction l with
  | nil => rfl
  | cons e t ih =>
    obtain ⟨h1, h2⟩ := cellsRising_cons.1 h
    rw [List.filter_cons]
    split
    · exact cellsRising_cons.2 ⟨fun f hf => h1 f (List.mem_filter.1 hf).1, ih h2⟩
    · exact ih h2

/-- The canonical form in two parts. -/
theorem Mem.wf_iff {m : Mem} : m.wf = true ↔
    cellsRising m.cells = true ∧ ∀ c ∈ m.cells, (m.undefAt c.1).isSome = true ∨ c.2 ≠ 0 := by
  simp [Mem.wf, List.all_eq_true]

/-- The empty memory is in canonical form, whatever is undefined in it. -/
@[simp] theorem Mem.wf_nil (u : List Undef) : ({ cells := [], undef := u } : Mem).wf = true := rfl

/-- One written byte keeps the canonical form. -/
theorem Mem.wf_write {m : Mem} (a : Nat) (b : Byte) (h : m.wf = true) : (m.write a b).wf = true := by
  obtain ⟨h1, h2⟩ := Mem.wf_iff.1 h
  have hu : ∀ c, (m.write a b).undefAt c = m.undefAt c := by intro c; simp [Mem.undefAt]
  refine Mem.wf_iff.2 ⟨?_, ?_⟩
  · unfold Mem.write
    split
    · split
      · exact cellsRising_filter _ h1
      · exact cellsRising_cellsSet a b h1
    · exact cellsRising_cellsSet a b h1
  · intro c hc
    rw [hu]
    unfold Mem.write at hc
    split at hc
    · split at hc
      · exact h2 c (List.mem_filter.1 hc).1
      · rename_i hb
        rcases mem_cellsSet hc with rfl | hc
        · exact Or.inr hb
        · exact h2 c hc
    · rename_i hs
      rcases mem_cellsSet hc with rfl | hc
      · exact Or.inl (by simp [hs])
      · exact h2 c hc

/-- Written bytes keep the canonical form. -/
theorem Mem.wf_writeL {m : Mem} (a : Nat) (bs : List Byte) (h : m.wf = true) : (m.writeL a bs).wf = true := by
  induction bs generalizing m a with
  | nil => exact h
  | cons b bs ih => exact ih _ (Mem.wf_write a b h)

/-- Making a range undefined keeps the canonical form. -/
theorem Mem.wf_scramble {m : Mem} (base len gen : Nat) (h : m.wf = true) : (m.scramble base len gen).wf = true := by
  obtain ⟨h1, h2⟩ := Mem.wf_iff.1 h
  refine Mem.wf_iff.2 ⟨cellsRising_filter _ h1, ?_⟩
  intro c hc
  rcases h2 c (List.mem_filter.1 hc).1 with h | h
  · left
    simp only [Mem.scramble, Mem.undefAt, List.find?_cons] at *
    split
    · rfl
    · exact h
  · exact Or.inr h

/-- Cutting a range out of the undefined ones leaves every other address as it was. -/
theorem Mem.clear_undefAt {m : Mem} (base len c : Nat) (hc : ¬(base ≤ c ∧ c < base + len))
    (h : (m.undefAt c).isSome = true) : ((m.clear base len).undefAt c).isSome = true := by
  simp only [Mem.undefAt, List.find?_isSome, Bool.and_eq_true, decide_eq_true_eq] at *
  obtain ⟨u, hu, h1, h2⟩ := h
  by_cases hl : c < base
  · refine ⟨{ u with len := min u.len (base - u.base) }, ?_, h1, ?_⟩
    · simp only [Mem.clear, List.mem_flatMap, List.mem_filter]
      refine ⟨u, hu, by simp, ?_⟩
      simp only [ne_eq, decide_not, Bool.not_eq_eq_eq_not, Bool.not_true, decide_eq_false_iff_not]
      omega
    · show c < u.base + min u.len (base - u.base); omega
  · refine ⟨{ u with base := max u.base (base + len), len := u.base + u.len - max u.base (base + len) }, ?_, ?_, ?_⟩
    · simp only [Mem.clear, List.mem_flatMap, List.mem_filter]
      refine ⟨u, hu, by simp, ?_⟩
      simp only [ne_eq, decide_not, Bool.not_eq_eq_eq_not, Bool.not_true, decide_eq_false_iff_not]
      omega
    · show max u.base (base + len) ≤ c; omega
    · show c < max u.base (base + len) + (u.base + u.len - max u.base (base + len)); omega

/-- Clearing a range to zero keeps the canonical form. -/
theorem Mem.wf_clear {m : Mem} (base len : Nat) (h : m.wf = true) : (m.clear base len).wf = true := by
  obtain ⟨h1, h2⟩ := Mem.wf_iff.1 h
  refine Mem.wf_iff.2 ⟨cellsRising_filter _ h1, ?_⟩
  intro c hc
  have hf := List.mem_filter.1 hc
  rcases h2 c hf.1 with h | h
  · exact Or.inl (Mem.clear_undefAt base len c.1 (by have := hf.2; simp at this; omega) h)
  · exact Or.inr h

end Sys2Proof.Machine
end

