-- ==== Sys2Proof/Laws/State.lean ====
section
/-! SUPPORT. One lemma per field per update of State: each named update changes its own table and nothing
else, and reads back what it wrote. -/

namespace Sys2Proof.Machine
set_option Elab.async false

/-! ### setMb -/

@[simp] theorem State.setMb_mb_same (s : State) (n : Nat) (m : Mailbox) : (s.setMb n m).mb n = m := by
  simp [State.setMb, State.mb]
theorem State.setMb_mb_ne (s : State) (n : Nat) (m : Mailbox) {o : Nat} (h : o ≠ n) : (s.setMb n m).mb o = s.mb o := by
  simp [State.setMb, State.mb, tabGet_tabSet_ne _ _ _ h]
@[simp] theorem State.setMb_pending (s : State) (n : Nat) (m : Mailbox) : (s.setMb n m).pending = s.pending := rfl
@[simp] theorem State.setMb_tick (s : State) (n : Nat) (m : Mailbox) : (s.setMb n m).tick = s.tick := rfl
@[simp] theorem State.setMb_free (s : State) (n : Nat) (m : Mailbox) : (s.setMb n m).free = s.free := rfl
@[simp] theorem State.setMb_hostMem (s : State) (n : Nat) (m : Mailbox) : (s.setMb n m).hostMem = s.hostMem := rfl
@[simp] theorem State.setMb_busOut (s : State) (n : Nat) (m : Mailbox) : (s.setMb n m).busOut = s.busOut := rfl
@[simp] theorem State.setMb_devMem (s : State) (n : Nat) (m : Mailbox) : (s.setMb n m).devMem = s.devMem := rfl
@[simp] theorem State.setMb_localMem (s : State) (n : Nat) (m : Mailbox) : (s.setMb n m).localMem = s.localMem := rfl
@[simp] theorem State.setMb_acc (s : State) (n : Nat) (m : Mailbox) : (s.setMb n m).acc = s.acc := rfl
@[simp] theorem State.setMb_accFlags (s : State) (n : Nat) (m : Mailbox) : (s.setMb n m).accFlags = s.accFlags := rfl
@[simp] theorem State.setMb_accGen (s : State) (n : Nat) (m : Mailbox) : (s.setMb n m).accGen = s.accGen := rfl
@[simp] theorem State.setMb_era (s : State) (n : Nat) (m : Mailbox) : (s.setMb n m).era = s.era := rfl
@[simp] theorem State.setMb_cores (s : State) (n : Nat) (m : Mailbox) : (s.setMb n m).cores = s.cores := rfl
@[simp] theorem State.setMb_remap (s : State) (n : Nat) (m : Mailbox) : (s.setMb n m).remap = s.remap := rfl
@[simp] theorem State.setMb_counters (s : State) (n : Nat) (m : Mailbox) : (s.setMb n m).counters = s.counters := rfl
@[simp] theorem State.setMb_cfg (s : State) (n : Nat) (m : Mailbox) : (s.setMb n m).cfg = s.cfg := rfl
@[simp] theorem State.setMb_pend (s : State) (n : Nat) (m : Mailbox) : (s.setMb n m).pend = s.pend := rfl
@[simp] theorem State.setMb_bseq (s : State) (n : Nat) (m : Mailbox) : (s.setMb n m).bseq = s.bseq := rfl
@[simp] theorem State.setMb_wstat (s : State) (n : Nat) (m : Mailbox) : (s.setMb n m).wstat = s.wstat := rfl
@[simp] theorem State.setMb_errcnt (s : State) (n : Nat) (m : Mailbox) : (s.setMb n m).errcnt = s.errcnt := rfl
@[simp] theorem State.setMb_snap (s : State) (n : Nat) (m : Mailbox) : (s.setMb n m).snap = s.snap := rfl
@[simp] theorem State.setMb_lastMb (s : State) (n : Nat) (m : Mailbox) : (s.setMb n m).lastMb = s.lastMb := rfl
@[simp] theorem State.setMb_compat (s : State) (n : Nat) (m : Mailbox) : (s.setMb n m).compat = s.compat := rfl
@[simp] theorem State.setMb_bu (s : State) (n : Nat) (m : Mailbox) : (s.setMb n m).bu = s.bu := rfl
@[simp] theorem State.setMb_power (s : State) (n : Nat) (m : Mailbox) : (s.setMb n m).power = s.power := rfl
@[simp] theorem State.setMb_defects (s : State) (n : Nat) (m : Mailbox) : (s.setMb n m).defects = s.defects := rfl
@[simp] theorem State.setMb_sec (s : State) (n : Nat) (m : Mailbox) : (s.setMb n m).sec = s.sec := rfl
@[simp] theorem State.setMb_mem (s : State) (n : Nat) (m : Mailbox) : (s.setMb n m).mem = s.mem := rfl
@[simp] theorem State.setMb_store (s : State) (n : Nat) (m : Mailbox) : (s.setMb n m).store = s.store := rfl
@[simp] theorem State.setMb_link (s : State) (n : Nat) (m : Mailbox) : (s.setMb n m).link = s.link := rfl
@[simp] theorem State.setMb_pewter (s : State) (n : Nat) (m : Mailbox) : (s.setMb n m).pewter = s.pewter := rfl
@[simp] theorem State.setMb_jobs (s : State) (n : Nat) (m : Mailbox) : (s.setMb n m).jobs = s.jobs := rfl
@[simp] theorem State.setMb_svcs (s : State) (n : Nat) (m : Mailbox) : (s.setMb n m).svcs = s.svcs := rfl
@[simp] theorem State.setMb_xp (s : State) (n : Nat) (m : Mailbox) : (s.setMb n m).xp = s.xp := rfl
@[simp] theorem State.setMb_subs (s : State) (n : Nat) (m : Mailbox) : (s.setMb n m).subs = s.subs := rfl
@[simp] theorem State.setMb_ports (s : State) (n : Nat) (m : Mailbox) : (s.setMb n m).ports = s.ports := rfl
@[simp] theorem State.setMb_bays (s : State) (n : Nat) (m : Mailbox) : (s.setMb n m).bays = s.bays := rfl
@[simp] theorem State.setMb_groups (s : State) (n : Nat) (m : Mailbox) : (s.setMb n m).groups = s.groups := rfl
@[simp] theorem State.setMb_dies (s : State) (n : Nat) (m : Mailbox) : (s.setMb n m).dies = s.dies := rfl
@[simp] theorem State.setMb_con (s : State) (n : Nat) (m : Mailbox) : (s.setMb n m).con = s.con := rfl
@[simp] theorem State.setMb_inv (s : State) (n : Nat) (m : Mailbox) : (s.setMb n m).inv = s.inv := rfl
@[simp] theorem State.setMb_cvs (s : State) (n : Nat) (m : Mailbox) : (s.setMb n m).cvs = s.cvs := rfl
@[simp] theorem State.setMb_core (s : State) (n : Nat) (m : Mailbox) (o : Nat) : (s.setMb n m).core o = s.core o := rfl
@[simp] theorem State.setMb_job (s : State) (n : Nat) (m : Mailbox) (o : Nat) : (s.setMb n m).job? o = s.job? o := rfl
@[simp] theorem State.setMb_svc (s : State) (n : Nat) (m : Mailbox) (o : Nat) : (s.setMb n m).svc? o = s.svc? o := rfl
@[simp] theorem State.setMb_qp (s : State) (n : Nat) (m : Mailbox) (o : Nat) : (s.setMb n m).qp? o = s.qp? o := rfl
@[simp] theorem State.setMb_sub (s : State) (n : Nat) (m : Mailbox) (o : Nat) : (s.setMb n m).sub o = s.sub o := rfl
@[simp] theorem State.setMb_port (s : State) (n : Nat) (m : Mailbox) (o : Nat) : (s.setMb n m).port o = s.port o := rfl
@[simp] theorem State.setMb_bay (s : State) (n : Nat) (m : Mailbox) (o : Nat) : (s.setMb n m).bay o = s.bay o := rfl
@[simp] theorem State.setMb_grp (s : State) (n : Nat) (m : Mailbox) (o : Nat) : (s.setMb n m).grp o = s.grp o := rfl
@[simp] theorem State.setMb_die (s : State) (n : Nat) (m : Mailbox) (o : Nat) : (s.setMb n m).die o = s.die o := rfl
@[simp] theorem State.setMb_chan (s : State) (n : Nat) (m : Mailbox) (o : Nat) : (s.setMb n m).chan o = s.chan o := rfl
@[simp] theorem State.setMb_bridge (s : State) (n : Nat) (m : Mailbox) (o : Nat) : (s.setMb n m).bridge o = s.bridge o := rfl
@[simp] theorem State.setMb_cv (s : State) (n : Nat) (m : Mailbox) (o : Nat) : (s.setMb n m).cv o = s.cv o := rfl
@[simp] theorem State.setMb_part (s : State) (n : Nat) (m : Mailbox) (o : Nat) : (s.setMb n m).part? o = s.part? o := rfl
@[simp] theorem State.setMb_ctr (s : State) (n : Nat) (m : Mailbox) (o : Nat) : (s.setMb n m).ctr o = s.ctr o := rfl
@[simp] theorem State.setMb_reg (s : State) (n : Nat) (m : Mailbox) (b : Blk) (o : Nat) : (s.setMb n m).reg b o = s.reg b o := rfl

/-! ### setCore -/

@[simp] theorem State.setCore_core_same (s : State) (c : Nat) (x : CoreS) : (s.setCore c x).core c = x := by
  simp [State.setCore, State.core]
theorem State.setCore_core_ne (s : State) (c : Nat) (x : CoreS) {o : Nat} (h : o ≠ c) : (s.setCore c x).core o = s.core o := by
  simp [State.setCore, State.core, tabGet_tabSet_ne _ _ _ h]
@[simp] theorem State.setCore_pending (s : State) (c : Nat) (x : CoreS) : (s.setCore c x).pending = s.pending := rfl
@[simp] theorem State.setCore_tick (s : State) (c : Nat) (x : CoreS) : (s.setCore c x).tick = s.tick := rfl
@[simp] theorem State.setCore_free (s : State) (c : Nat) (x : CoreS) : (s.setCore c x).free = s.free := rfl
@[simp] theorem State.setCore_hostMem (s : State) (c : Nat) (x : CoreS) : (s.setCore c x).hostMem = s.hostMem := rfl
@[simp] theorem State.setCore_busOut (s : State) (c : Nat) (x : CoreS) : (s.setCore c x).busOut = s.busOut := rfl
@[simp] theorem State.setCore_devMem (s : State) (c : Nat) (x : CoreS) : (s.setCore c x).devMem = s.devMem := rfl
@[simp] theorem State.setCore_localMem (s : State) (c : Nat) (x : CoreS) : (s.setCore c x).localMem = s.localMem := rfl
@[simp] theorem State.setCore_acc (s : State) (c : Nat) (x : CoreS) : (s.setCore c x).acc = s.acc := rfl
@[simp] theorem State.setCore_accFlags (s : State) (c : Nat) (x : CoreS) : (s.setCore c x).accFlags = s.accFlags := rfl
@[simp] theorem State.setCore_accGen (s : State) (c : Nat) (x : CoreS) : (s.setCore c x).accGen = s.accGen := rfl
@[simp] theorem State.setCore_era (s : State) (c : Nat) (x : CoreS) : (s.setCore c x).era = s.era := rfl
@[simp] theorem State.setCore_remap (s : State) (c : Nat) (x : CoreS) : (s.setCore c x).remap = s.remap := rfl
@[simp] theorem State.setCore_counters (s : State) (c : Nat) (x : CoreS) : (s.setCore c x).counters = s.counters := rfl
@[simp] theorem State.setCore_cfg (s : State) (c : Nat) (x : CoreS) : (s.setCore c x).cfg = s.cfg := rfl
@[simp] theorem State.setCore_pend (s : State) (c : Nat) (x : CoreS) : (s.setCore c x).pend = s.pend := rfl
@[simp] theorem State.setCore_bseq (s : State) (c : Nat) (x : CoreS) : (s.setCore c x).bseq = s.bseq := rfl
@[simp] theorem State.setCore_wstat (s : State) (c : Nat) (x : CoreS) : (s.setCore c x).wstat = s.wstat := rfl
@[simp] theorem State.setCore_errcnt (s : State) (c : Nat) (x : CoreS) : (s.setCore c x).errcnt = s.errcnt := rfl
@[simp] theorem State.setCore_snap (s : State) (c : Nat) (x : CoreS) : (s.setCore c x).snap = s.snap := rfl
@[simp] theorem State.setCore_mailboxes (s : State) (c : Nat) (x : CoreS) : (s.setCore c x).mailboxes = s.mailboxes := rfl
@[simp] theorem State.setCore_lastMb (s : State) (c : Nat) (x : CoreS) : (s.setCore c x).lastMb = s.lastMb := rfl
@[simp] theorem State.setCore_compat (s : State) (c : Nat) (x : CoreS) : (s.setCore c x).compat = s.compat := rfl
@[simp] theorem State.setCore_bu (s : State) (c : Nat) (x : CoreS) : (s.setCore c x).bu = s.bu := rfl
@[simp] theorem State.setCore_power (s : State) (c : Nat) (x : CoreS) : (s.setCore c x).power = s.power := rfl
@[simp] theorem State.setCore_defects (s : State) (c : Nat) (x : CoreS) : (s.setCore c x).defects = s.defects := rfl
@[simp] theorem State.setCore_sec (s : State) (c : Nat) (x : CoreS) : (s.setCore c x).sec = s.sec := rfl
@[simp] theorem State.setCore_mem (s : State) (c : Nat) (x : CoreS) : (s.setCore c x).mem = s.mem := rfl
@[simp] theorem State.setCore_store (s : State) (c : Nat) (x : CoreS) : (s.setCore c x).store = s.store := rfl
@[simp] theorem State.setCore_link (s : State) (c : Nat) (x : CoreS) : (s.setCore c x).link = s.link := rfl
@[simp] theorem State.setCore_pewter (s : State) (c : Nat) (x : CoreS) : (s.setCore c x).pewter = s.pewter := rfl
@[simp] theorem State.setCore_jobs (s : State) (c : Nat) (x : CoreS) : (s.setCore c x).jobs = s.jobs := rfl
@[simp] theorem State.setCore_svcs (s : State) (c : Nat) (x : CoreS) : (s.setCore c x).svcs = s.svcs := rfl
@[simp] theorem State.setCore_xp (s : State) (c : Nat) (x : CoreS) : (s.setCore c x).xp = s.xp := rfl
@[simp] theorem State.setCore_subs (s : State) (c : Nat) (x : CoreS) : (s.setCore c x).subs = s.subs := rfl
@[simp] theorem State.setCore_ports (s : State) (c : Nat) (x : CoreS) : (s.setCore c x).ports = s.ports := rfl
@[simp] theorem State.setCore_bays (s : State) (c : Nat) (x : CoreS) : (s.setCore c x).bays = s.bays := rfl
@[simp] theorem State.setCore_groups (s : State) (c : Nat) (x : CoreS) : (s.setCore c x).groups = s.groups := rfl
@[simp] theorem State.setCore_dies (s : State) (c : Nat) (x : CoreS) : (s.setCore c x).dies = s.dies := rfl
@[simp] theorem State.setCore_con (s : State) (c : Nat) (x : CoreS) : (s.setCore c x).con = s.con := rfl
@[simp] theorem State.setCore_inv (s : State) (c : Nat) (x : CoreS) : (s.setCore c x).inv = s.inv := rfl
@[simp] theorem State.setCore_cvs (s : State) (c : Nat) (x : CoreS) : (s.setCore c x).cvs = s.cvs := rfl
@[simp] theorem State.setCore_mb (s : State) (c : Nat) (x : CoreS) (o : Nat) : (s.setCore c x).mb o = s.mb o := rfl
@[simp] theorem State.setCore_job (s : State) (c : Nat) (x : CoreS) (o : Nat) : (s.setCore c x).job? o = s.job? o := rfl
@[simp] theorem State.setCore_svc (s : State) (c : Nat) (x : CoreS) (o : Nat) : (s.setCore c x).svc? o = s.svc? o := rfl
@[simp] theorem State.setCore_qp (s : State) (c : Nat) (x : CoreS) (o : Nat) : (s.setCore c x).qp? o = s.qp? o := rfl
@[simp] theorem State.setCore_sub (s : State) (c : Nat) (x : CoreS) (o : Nat) : (s.setCore c x).sub o = s.sub o := rfl
@[simp] theorem State.setCore_port (s : State) (c : Nat) (x : CoreS) (o : Nat) : (s.setCore c x).port o = s.port o := rfl
@[simp] theorem State.setCore_bay (s : State) (c : Nat) (x : CoreS) (o : Nat) : (s.setCore c x).bay o = s.bay o := rfl
@[simp] theorem State.setCore_grp (s : State) (c : Nat) (x : CoreS) (o : Nat) : (s.setCore c x).grp o = s.grp o := rfl
@[simp] theorem State.setCore_die (s : State) (c : Nat) (x : CoreS) (o : Nat) : (s.setCore c x).die o = s.die o := rfl
@[simp] theorem State.setCore_chan (s : State) (c : Nat) (x : CoreS) (o : Nat) : (s.setCore c x).chan o = s.chan o := rfl
@[simp] theorem State.setCore_bridge (s : State) (c : Nat) (x : CoreS) (o : Nat) : (s.setCore c x).bridge o = s.bridge o := rfl
@[simp] theorem State.setCore_cv (s : State) (c : Nat) (x : CoreS) (o : Nat) : (s.setCore c x).cv o = s.cv o := rfl
@[simp] theorem State.setCore_part (s : State) (c : Nat) (x : CoreS) (o : Nat) : (s.setCore c x).part? o = s.part? o := rfl
@[simp] theorem State.setCore_ctr (s : State) (c : Nat) (x : CoreS) (o : Nat) : (s.setCore c x).ctr o = s.ctr o := rfl
@[simp] theorem State.setCore_reg (s : State) (c : Nat) (x : CoreS) (b : Blk) (o : Nat) : (s.setCore c x).reg b o = s.reg b o := rfl

/-! ### setJob -/

@[simp] theorem State.setJob_job_same (s : State) (j : Nat) (x : Job) : (s.setJob j x).job? j = some x := by
  simp [State.setJob, State.job?]
theorem State.setJob_job_ne (s : State) (j : Nat) (x : Job) {o : Nat} (h : o ≠ j) : (s.setJob j x).job? o = s.job? o := by
  simp [State.setJob, State.job?, tabFind_tabSet_ne _ _ h]
@[simp] theorem State.setJob_pending (s : State) (j : Nat) (x : Job) : (s.setJob j x).pending = s.pending := rfl
@[simp] theorem State.setJob_tick (s : State) (j : Nat) (x : Job) : (s.setJob j x).tick = s.tick := rfl
@[simp] theorem State.setJob_free (s : State) (j : Nat) (x : Job) : (s.setJob j x).free = s.free := rfl
@[simp] theorem State.setJob_hostMem (s : State) (j : Nat) (x : Job) : (s.setJob j x).hostMem = s.hostMem := rfl
@[simp] theorem State.setJob_busOut (s : State) (j : Nat) (x : Job) : (s.setJob j x).busOut = s.busOut := rfl
@[simp] theorem State.setJob_devMem (s : State) (j : Nat) (x : Job) : (s.setJob j x).devMem = s.devMem := rfl
@[simp] theorem State.setJob_localMem (s : State) (j : Nat) (x : Job) : (s.setJob j x).localMem = s.localMem := rfl
@[simp] theorem State.setJob_acc (s : State) (j : Nat) (x : Job) : (s.setJob j x).acc = s.acc := rfl
@[simp] theorem State.setJob_accFlags (s : State) (j : Nat) (x : Job) : (s.setJob j x).accFlags = s.accFlags := rfl
@[simp] theorem State.setJob_accGen (s : State) (j : Nat) (x : Job) : (s.setJob j x).accGen = s.accGen := rfl
@[simp] theorem State.setJob_era (s : State) (j : Nat) (x : Job) : (s.setJob j x).era = s.era := rfl
@[simp] theorem State.setJob_cores (s : State) (j : Nat) (x : Job) : (s.setJob j x).cores = s.cores := rfl
@[simp] theorem State.setJob_remap (s : State) (j : Nat) (x : Job) : (s.setJob j x).remap = s.remap := rfl
@[simp] theorem State.setJob_counters (s : State) (j : Nat) (x : Job) : (s.setJob j x).counters = s.counters := rfl
@[simp] theorem State.setJob_cfg (s : State) (j : Nat) (x : Job) : (s.setJob j x).cfg = s.cfg := rfl
@[simp] theorem State.setJob_pend (s : State) (j : Nat) (x : Job) : (s.setJob j x).pend = s.pend := rfl
@[simp] theorem State.setJob_bseq (s : State) (j : Nat) (x : Job) : (s.setJob j x).bseq = s.bseq := rfl
@[simp] theorem State.setJob_wstat (s : State) (j : Nat) (x : Job) : (s.setJob j x).wstat = s.wstat := rfl
@[simp] theorem State.setJob_errcnt (s : State) (j : Nat) (x : Job) : (s.setJob j x).errcnt = s.errcnt := rfl
@[simp] theorem State.setJob_snap (s : State) (j : Nat) (x : Job) : (s.setJob j x).snap = s.snap := rfl
@[simp] theorem State.setJob_mailboxes (s : State) (j : Nat) (x : Job) : (s.setJob j x).mailboxes = s.mailboxes := rfl
@[simp] theorem State.setJob_lastMb (s : State) (j : Nat) (x : Job) : (s.setJob j x).lastMb = s.lastMb := rfl
@[simp] theorem State.setJob_compat (s : State) (j : Nat) (x : Job) : (s.setJob j x).compat = s.compat := rfl
@[simp] theorem State.setJob_bu (s : State) (j : Nat) (x : Job) : (s.setJob j x).bu = s.bu := rfl
@[simp] theorem State.setJob_power (s : State) (j : Nat) (x : Job) : (s.setJob j x).power = s.power := rfl
@[simp] theorem State.setJob_defects (s : State) (j : Nat) (x : Job) : (s.setJob j x).defects = s.defects := rfl
@[simp] theorem State.setJob_sec (s : State) (j : Nat) (x : Job) : (s.setJob j x).sec = s.sec := rfl
@[simp] theorem State.setJob_mem (s : State) (j : Nat) (x : Job) : (s.setJob j x).mem = s.mem := rfl
@[simp] theorem State.setJob_store (s : State) (j : Nat) (x : Job) : (s.setJob j x).store = s.store := rfl
@[simp] theorem State.setJob_link (s : State) (j : Nat) (x : Job) : (s.setJob j x).link = s.link := rfl
@[simp] theorem State.setJob_pewter (s : State) (j : Nat) (x : Job) : (s.setJob j x).pewter = s.pewter := rfl
@[simp] theorem State.setJob_svcs (s : State) (j : Nat) (x : Job) : (s.setJob j x).svcs = s.svcs := rfl
@[simp] theorem State.setJob_xp (s : State) (j : Nat) (x : Job) : (s.setJob j x).xp = s.xp := rfl
@[simp] theorem State.setJob_subs (s : State) (j : Nat) (x : Job) : (s.setJob j x).subs = s.subs := rfl
@[simp] theorem State.setJob_ports (s : State) (j : Nat) (x : Job) : (s.setJob j x).ports = s.ports := rfl
@[simp] theorem State.setJob_bays (s : State) (j : Nat) (x : Job) : (s.setJob j x).bays = s.bays := rfl
@[simp] theorem State.setJob_groups (s : State) (j : Nat) (x : Job) : (s.setJob j x).groups = s.groups := rfl
@[simp] theorem State.setJob_dies (s : State) (j : Nat) (x : Job) : (s.setJob j x).dies = s.dies := rfl
@[simp] theorem State.setJob_con (s : State) (j : Nat) (x : Job) : (s.setJob j x).con = s.con := rfl
@[simp] theorem State.setJob_inv (s : State) (j : Nat) (x : Job) : (s.setJob j x).inv = s.inv := rfl
@[simp] theorem State.setJob_cvs (s : State) (j : Nat) (x : Job) : (s.setJob j x).cvs = s.cvs := rfl
@[simp] theorem State.setJob_mb (s : State) (j : Nat) (x : Job) (o : Nat) : (s.setJob j x).mb o = s.mb o := rfl
@[simp] theorem State.setJob_core (s : State) (j : Nat) (x : Job) (o : Nat) : (s.setJob j x).core o = s.core o := rfl
@[simp] theorem State.setJob_svc (s : State) (j : Nat) (x : Job) (o : Nat) : (s.setJob j x).svc? o = s.svc? o := rfl
@[simp] theorem State.setJob_qp (s : State) (j : Nat) (x : Job) (o : Nat) : (s.setJob j x).qp? o = s.qp? o := rfl
@[simp] theorem State.setJob_sub (s : State) (j : Nat) (x : Job) (o : Nat) : (s.setJob j x).sub o = s.sub o := rfl
@[simp] theorem State.setJob_port (s : State) (j : Nat) (x : Job) (o : Nat) : (s.setJob j x).port o = s.port o := rfl
@[simp] theorem State.setJob_bay (s : State) (j : Nat) (x : Job) (o : Nat) : (s.setJob j x).bay o = s.bay o := rfl
@[simp] theorem State.setJob_grp (s : State) (j : Nat) (x : Job) (o : Nat) : (s.setJob j x).grp o = s.grp o := rfl
@[simp] theorem State.setJob_die (s : State) (j : Nat) (x : Job) (o : Nat) : (s.setJob j x).die o = s.die o := rfl
@[simp] theorem State.setJob_chan (s : State) (j : Nat) (x : Job) (o : Nat) : (s.setJob j x).chan o = s.chan o := rfl
@[simp] theorem State.setJob_bridge (s : State) (j : Nat) (x : Job) (o : Nat) : (s.setJob j x).bridge o = s.bridge o := rfl
@[simp] theorem State.setJob_cv (s : State) (j : Nat) (x : Job) (o : Nat) : (s.setJob j x).cv o = s.cv o := rfl
@[simp] theorem State.setJob_part (s : State) (j : Nat) (x : Job) (o : Nat) : (s.setJob j x).part? o = s.part? o := rfl
@[simp] theorem State.setJob_ctr (s : State) (j : Nat) (x : Job) (o : Nat) : (s.setJob j x).ctr o = s.ctr o := rfl
@[simp] theorem State.setJob_reg (s : State) (j : Nat) (x : Job) (b : Blk) (o : Nat) : (s.setJob j x).reg b o = s.reg b o := rfl

/-! ### setSvc -/

@[simp] theorem State.setSvc_svc_same (s : State) (k : Nat) (x : Svc) : (s.setSvc k x).svc? k = some x := by
  simp [State.setSvc, State.svc?]
theorem State.setSvc_svc_ne (s : State) (k : Nat) (x : Svc) {o : Nat} (h : o ≠ k) : (s.setSvc k x).svc? o = s.svc? o := by
  simp [State.setSvc, State.svc?, tabFind_tabSet_ne _ _ h]
@[simp] theorem State.setSvc_pending (s : State) (k : Nat) (x : Svc) : (s.setSvc k x).pending = s.pending := rfl
@[simp] theorem State.setSvc_tick (s : State) (k : Nat) (x : Svc) : (s.setSvc k x).tick = s.tick := rfl
@[simp] theorem State.setSvc_free (s : State) (k : Nat) (x : Svc) : (s.setSvc k x).free = s.free := rfl
@[simp] theorem State.setSvc_hostMem (s : State) (k : Nat) (x : Svc) : (s.setSvc k x).hostMem = s.hostMem := rfl
@[simp] theorem State.setSvc_busOut (s : State) (k : Nat) (x : Svc) : (s.setSvc k x).busOut = s.busOut := rfl
@[simp] theorem State.setSvc_devMem (s : State) (k : Nat) (x : Svc) : (s.setSvc k x).devMem = s.devMem := rfl
@[simp] theorem State.setSvc_localMem (s : State) (k : Nat) (x : Svc) : (s.setSvc k x).localMem = s.localMem := rfl
@[simp] theorem State.setSvc_acc (s : State) (k : Nat) (x : Svc) : (s.setSvc k x).acc = s.acc := rfl
@[simp] theorem State.setSvc_accFlags (s : State) (k : Nat) (x : Svc) : (s.setSvc k x).accFlags = s.accFlags := rfl
@[simp] theorem State.setSvc_accGen (s : State) (k : Nat) (x : Svc) : (s.setSvc k x).accGen = s.accGen := rfl
@[simp] theorem State.setSvc_era (s : State) (k : Nat) (x : Svc) : (s.setSvc k x).era = s.era := rfl
@[simp] theorem State.setSvc_cores (s : State) (k : Nat) (x : Svc) : (s.setSvc k x).cores = s.cores := rfl
@[simp] theorem State.setSvc_remap (s : State) (k : Nat) (x : Svc) : (s.setSvc k x).remap = s.remap := rfl
@[simp] theorem State.setSvc_counters (s : State) (k : Nat) (x : Svc) : (s.setSvc k x).counters = s.counters := rfl
@[simp] theorem State.setSvc_cfg (s : State) (k : Nat) (x : Svc) : (s.setSvc k x).cfg = s.cfg := rfl
@[simp] theorem State.setSvc_pend (s : State) (k : Nat) (x : Svc) : (s.setSvc k x).pend = s.pend := rfl
@[simp] theorem State.setSvc_bseq (s : State) (k : Nat) (x : Svc) : (s.setSvc k x).bseq = s.bseq := rfl
@[simp] theorem State.setSvc_wstat (s : State) (k : Nat) (x : Svc) : (s.setSvc k x).wstat = s.wstat := rfl
@[simp] theorem State.setSvc_errcnt (s : State) (k : Nat) (x : Svc) : (s.setSvc k x).errcnt = s.errcnt := rfl
@[simp] theorem State.setSvc_snap (s : State) (k : Nat) (x : Svc) : (s.setSvc k x).snap = s.snap := rfl
@[simp] theorem State.setSvc_mailboxes (s : State) (k : Nat) (x : Svc) : (s.setSvc k x).mailboxes = s.mailboxes := rfl
@[simp] theorem State.setSvc_lastMb (s : State) (k : Nat) (x : Svc) : (s.setSvc k x).lastMb = s.lastMb := rfl
@[simp] theorem State.setSvc_compat (s : State) (k : Nat) (x : Svc) : (s.setSvc k x).compat = s.compat := rfl
@[simp] theorem State.setSvc_bu (s : State) (k : Nat) (x : Svc) : (s.setSvc k x).bu = s.bu := rfl
@[simp] theorem State.setSvc_power (s : State) (k : Nat) (x : Svc) : (s.setSvc k x).power = s.power := rfl
@[simp] theorem State.setSvc_defects (s : State) (k : Nat) (x : Svc) : (s.setSvc k x).defects = s.defects := rfl
@[simp] theorem State.setSvc_sec (s : State) (k : Nat) (x : Svc) : (s.setSvc k x).sec = s.sec := rfl
@[simp] theorem State.setSvc_mem (s : State) (k : Nat) (x : Svc) : (s.setSvc k x).mem = s.mem := rfl
@[simp] theorem State.setSvc_store (s : State) (k : Nat) (x : Svc) : (s.setSvc k x).store = s.store := rfl
@[simp] theorem State.setSvc_link (s : State) (k : Nat) (x : Svc) : (s.setSvc k x).link = s.link := rfl
@[simp] theorem State.setSvc_pewter (s : State) (k : Nat) (x : Svc) : (s.setSvc k x).pewter = s.pewter := rfl
@[simp] theorem State.setSvc_jobs (s : State) (k : Nat) (x : Svc) : (s.setSvc k x).jobs = s.jobs := rfl
@[simp] theorem State.setSvc_xp (s : State) (k : Nat) (x : Svc) : (s.setSvc k x).xp = s.xp := rfl
@[simp] theorem State.setSvc_subs (s : State) (k : Nat) (x : Svc) : (s.setSvc k x).subs = s.subs := rfl
@[simp] theorem State.setSvc_ports (s : State) (k : Nat) (x : Svc) : (s.setSvc k x).ports = s.ports := rfl
@[simp] theorem State.setSvc_bays (s : State) (k : Nat) (x : Svc) : (s.setSvc k x).bays = s.bays := rfl
@[simp] theorem State.setSvc_groups (s : State) (k : Nat) (x : Svc) : (s.setSvc k x).groups = s.groups := rfl
@[simp] theorem State.setSvc_dies (s : State) (k : Nat) (x : Svc) : (s.setSvc k x).dies = s.dies := rfl
@[simp] theorem State.setSvc_con (s : State) (k : Nat) (x : Svc) : (s.setSvc k x).con = s.con := rfl
@[simp] theorem State.setSvc_inv (s : State) (k : Nat) (x : Svc) : (s.setSvc k x).inv = s.inv := rfl
@[simp] theorem State.setSvc_cvs (s : State) (k : Nat) (x : Svc) : (s.setSvc k x).cvs = s.cvs := rfl
@[simp] theorem State.setSvc_mb (s : State) (k : Nat) (x : Svc) (o : Nat) : (s.setSvc k x).mb o = s.mb o := rfl
@[simp] theorem State.setSvc_core (s : State) (k : Nat) (x : Svc) (o : Nat) : (s.setSvc k x).core o = s.core o := rfl
@[simp] theorem State.setSvc_job (s : State) (k : Nat) (x : Svc) (o : Nat) : (s.setSvc k x).job? o = s.job? o := rfl
@[simp] theorem State.setSvc_qp (s : State) (k : Nat) (x : Svc) (o : Nat) : (s.setSvc k x).qp? o = s.qp? o := rfl
@[simp] theorem State.setSvc_sub (s : State) (k : Nat) (x : Svc) (o : Nat) : (s.setSvc k x).sub o = s.sub o := rfl
@[simp] theorem State.setSvc_port (s : State) (k : Nat) (x : Svc) (o : Nat) : (s.setSvc k x).port o = s.port o := rfl
@[simp] theorem State.setSvc_bay (s : State) (k : Nat) (x : Svc) (o : Nat) : (s.setSvc k x).bay o = s.bay o := rfl
@[simp] theorem State.setSvc_grp (s : State) (k : Nat) (x : Svc) (o : Nat) : (s.setSvc k x).grp o = s.grp o := rfl
@[simp] theorem State.setSvc_die (s : State) (k : Nat) (x : Svc) (o : Nat) : (s.setSvc k x).die o = s.die o := rfl
@[simp] theorem State.setSvc_chan (s : State) (k : Nat) (x : Svc) (o : Nat) : (s.setSvc k x).chan o = s.chan o := rfl
@[simp] theorem State.setSvc_bridge (s : State) (k : Nat) (x : Svc) (o : Nat) : (s.setSvc k x).bridge o = s.bridge o := rfl
@[simp] theorem State.setSvc_cv (s : State) (k : Nat) (x : Svc) (o : Nat) : (s.setSvc k x).cv o = s.cv o := rfl
@[simp] theorem State.setSvc_part (s : State) (k : Nat) (x : Svc) (o : Nat) : (s.setSvc k x).part? o = s.part? o := rfl
@[simp] theorem State.setSvc_ctr (s : State) (k : Nat) (x : Svc) (o : Nat) : (s.setSvc k x).ctr o = s.ctr o := rfl
@[simp] theorem State.setSvc_reg (s : State) (k : Nat) (x : Svc) (b : Blk) (o : Nat) : (s.setSvc k x).reg b o = s.reg b o := rfl

/-! ### setQp -/

@[simp] theorem State.setQp_qp_same (s : State) (q : Nat) (x : Qp) : (s.setQp q x).qp? q = some x := by
  simp [State.setQp, State.qp?]
theorem State.setQp_qp_ne (s : State) (q : Nat) (x : Qp) {o : Nat} (h : o ≠ q) : (s.setQp q x).qp? o = s.qp? o := by
  simp [State.setQp, State.qp?, tabFind_tabSet_ne _ _ h]
@[simp] theorem State.setQp_pending (s : State) (q : Nat) (x : Qp) : (s.setQp q x).pending = s.pending := rfl
@[simp] theorem State.setQp_tick (s : State) (q : Nat) (x : Qp) : (s.setQp q x).tick = s.tick := rfl
@[simp] theorem State.setQp_free (s : State) (q : Nat) (x : Qp) : (s.setQp q x).free = s.free := rfl
@[simp] theorem State.setQp_hostMem (s : State) (q : Nat) (x : Qp) : (s.setQp q x).hostMem = s.hostMem := rfl
@[simp] theorem State.setQp_busOut (s : State) (q : Nat) (x : Qp) : (s.setQp q x).busOut = s.busOut := rfl
@[simp] theorem State.setQp_devMem (s : State) (q : Nat) (x : Qp) : (s.setQp q x).devMem = s.devMem := rfl
@[simp] theorem State.setQp_localMem (s : State) (q : Nat) (x : Qp) : (s.setQp q x).localMem = s.localMem := rfl
@[simp] theorem State.setQp_acc (s : State) (q : Nat) (x : Qp) : (s.setQp q x).acc = s.acc := rfl
@[simp] theorem State.setQp_accFlags (s : State) (q : Nat) (x : Qp) : (s.setQp q x).accFlags = s.accFlags := rfl
@[simp] theorem State.setQp_accGen (s : State) (q : Nat) (x : Qp) : (s.setQp q x).accGen = s.accGen := rfl
@[simp] theorem State.setQp_era (s : State) (q : Nat) (x : Qp) : (s.setQp q x).era = s.era := rfl
@[simp] theorem State.setQp_cores (s : State) (q : Nat) (x : Qp) : (s.setQp q x).cores = s.cores := rfl
@[simp] theorem State.setQp_remap (s : State) (q : Nat) (x : Qp) : (s.setQp q x).remap = s.remap := rfl
@[simp] theorem State.setQp_counters (s : State) (q : Nat) (x : Qp) : (s.setQp q x).counters = s.counters := rfl
@[simp] theorem State.setQp_cfg (s : State) (q : Nat) (x : Qp) : (s.setQp q x).cfg = s.cfg := rfl
@[simp] theorem State.setQp_pend (s : State) (q : Nat) (x : Qp) : (s.setQp q x).pend = s.pend := rfl
@[simp] theorem State.setQp_bseq (s : State) (q : Nat) (x : Qp) : (s.setQp q x).bseq = s.bseq := rfl
@[simp] theorem State.setQp_wstat (s : State) (q : Nat) (x : Qp) : (s.setQp q x).wstat = s.wstat := rfl
@[simp] theorem State.setQp_errcnt (s : State) (q : Nat) (x : Qp) : (s.setQp q x).errcnt = s.errcnt := rfl
@[simp] theorem State.setQp_snap (s : State) (q : Nat) (x : Qp) : (s.setQp q x).snap = s.snap := rfl
@[simp] theorem State.setQp_mailboxes (s : State) (q : Nat) (x : Qp) : (s.setQp q x).mailboxes = s.mailboxes := rfl
@[simp] theorem State.setQp_lastMb (s : State) (q : Nat) (x : Qp) : (s.setQp q x).lastMb = s.lastMb := rfl
@[simp] theorem State.setQp_compat (s : State) (q : Nat) (x : Qp) : (s.setQp q x).compat = s.compat := rfl
@[simp] theorem State.setQp_bu (s : State) (q : Nat) (x : Qp) : (s.setQp q x).bu = s.bu := rfl
@[simp] theorem State.setQp_power (s : State) (q : Nat) (x : Qp) : (s.setQp q x).power = s.power := rfl
@[simp] theorem State.setQp_defects (s : State) (q : Nat) (x : Qp) : (s.setQp q x).defects = s.defects := rfl
@[simp] theorem State.setQp_sec (s : State) (q : Nat) (x : Qp) : (s.setQp q x).sec = s.sec := rfl
@[simp] theorem State.setQp_mem (s : State) (q : Nat) (x : Qp) : (s.setQp q x).mem = s.mem := rfl
@[simp] theorem State.setQp_store (s : State) (q : Nat) (x : Qp) : (s.setQp q x).store = s.store := rfl
@[simp] theorem State.setQp_link (s : State) (q : Nat) (x : Qp) : (s.setQp q x).link = s.link := rfl
@[simp] theorem State.setQp_pewter (s : State) (q : Nat) (x : Qp) : (s.setQp q x).pewter = s.pewter := rfl
@[simp] theorem State.setQp_jobs (s : State) (q : Nat) (x : Qp) : (s.setQp q x).jobs = s.jobs := rfl
@[simp] theorem State.setQp_svcs (s : State) (q : Nat) (x : Qp) : (s.setQp q x).svcs = s.svcs := rfl
@[simp] theorem State.setQp_subs (s : State) (q : Nat) (x : Qp) : (s.setQp q x).subs = s.subs := rfl
@[simp] theorem State.setQp_ports (s : State) (q : Nat) (x : Qp) : (s.setQp q x).ports = s.ports := rfl
@[simp] theorem State.setQp_bays (s : State) (q : Nat) (x : Qp) : (s.setQp q x).bays = s.bays := rfl
@[simp] theorem State.setQp_groups (s : State) (q : Nat) (x : Qp) : (s.setQp q x).groups = s.groups := rfl
@[simp] theorem State.setQp_dies (s : State) (q : Nat) (x : Qp) : (s.setQp q x).dies = s.dies := rfl
@[simp] theorem State.setQp_con (s : State) (q : Nat) (x : Qp) : (s.setQp q x).con = s.con := rfl
@[simp] theorem State.setQp_inv (s : State) (q : Nat) (x : Qp) : (s.setQp q x).inv = s.inv := rfl
@[simp] theorem State.setQp_cvs (s : State) (q : Nat) (x : Qp) : (s.setQp q x).cvs = s.cvs := rfl
@[simp] theorem State.setQp_mb (s : State) (q : Nat) (x : Qp) (o : Nat) : (s.setQp q x).mb o = s.mb o := rfl
@[simp] theorem State.setQp_core (s : State) (q : Nat) (x : Qp) (o : Nat) : (s.setQp q x).core o = s.core o := rfl
@[simp] theorem State.setQp_job (s : State) (q : Nat) (x : Qp) (o : Nat) : (s.setQp q x).job? o = s.job? o := rfl
@[simp] theorem State.setQp_svc (s : State) (q : Nat) (x : Qp) (o : Nat) : (s.setQp q x).svc? o = s.svc? o := rfl
@[simp] theorem State.setQp_sub (s : State) (q : Nat) (x : Qp) (o : Nat) : (s.setQp q x).sub o = s.sub o := rfl
@[simp] theorem State.setQp_port (s : State) (q : Nat) (x : Qp) (o : Nat) : (s.setQp q x).port o = s.port o := rfl
@[simp] theorem State.setQp_bay (s : State) (q : Nat) (x : Qp) (o : Nat) : (s.setQp q x).bay o = s.bay o := rfl
@[simp] theorem State.setQp_grp (s : State) (q : Nat) (x : Qp) (o : Nat) : (s.setQp q x).grp o = s.grp o := rfl
@[simp] theorem State.setQp_die (s : State) (q : Nat) (x : Qp) (o : Nat) : (s.setQp q x).die o = s.die o := rfl
@[simp] theorem State.setQp_chan (s : State) (q : Nat) (x : Qp) (o : Nat) : (s.setQp q x).chan o = s.chan o := rfl
@[simp] theorem State.setQp_bridge (s : State) (q : Nat) (x : Qp) (o : Nat) : (s.setQp q x).bridge o = s.bridge o := rfl
@[simp] theorem State.setQp_cv (s : State) (q : Nat) (x : Qp) (o : Nat) : (s.setQp q x).cv o = s.cv o := rfl
@[simp] theorem State.setQp_part (s : State) (q : Nat) (x : Qp) (o : Nat) : (s.setQp q x).part? o = s.part? o := rfl
@[simp] theorem State.setQp_ctr (s : State) (q : Nat) (x : Qp) (o : Nat) : (s.setQp q x).ctr o = s.ctr o := rfl
@[simp] theorem State.setQp_reg (s : State) (q : Nat) (x : Qp) (b : Blk) (o : Nat) : (s.setQp q x).reg b o = s.reg b o := rfl

/-! ### setSub -/

@[simp] theorem State.setSub_sub_same (s : State) (i : Nat) (x : SubPort) : (s.setSub i x).sub i = x := by
  simp [State.setSub, State.sub]
theorem State.setSub_sub_ne (s : State) (i : Nat) (x : SubPort) {o : Nat} (h : o ≠ i) : (s.setSub i x).sub o = s.sub o := by
  simp [State.setSub, State.sub, tabGet_tabSet_ne _ _ _ h]
@[simp] theorem State.setSub_pending (s : State) (i : Nat) (x : SubPort) : (s.setSub i x).pending = s.pending := rfl
@[simp] theorem State.setSub_tick (s : State) (i : Nat) (x : SubPort) : (s.setSub i x).tick = s.tick := rfl
@[simp] theorem State.setSub_free (s : State) (i : Nat) (x : SubPort) : (s.setSub i x).free = s.free := rfl
@[simp] theorem State.setSub_hostMem (s : State) (i : Nat) (x : SubPort) : (s.setSub i x).hostMem = s.hostMem := rfl
@[simp] theorem State.setSub_busOut (s : State) (i : Nat) (x : SubPort) : (s.setSub i x).busOut = s.busOut := rfl
@[simp] theorem State.setSub_devMem (s : State) (i : Nat) (x : SubPort) : (s.setSub i x).devMem = s.devMem := rfl
@[simp] theorem State.setSub_localMem (s : State) (i : Nat) (x : SubPort) : (s.setSub i x).localMem = s.localMem := rfl
@[simp] theorem State.setSub_acc (s : State) (i : Nat) (x : SubPort) : (s.setSub i x).acc = s.acc := rfl
@[simp] theorem State.setSub_accFlags (s : State) (i : Nat) (x : SubPort) : (s.setSub i x).accFlags = s.accFlags := rfl
@[simp] theorem State.setSub_accGen (s : State) (i : Nat) (x : SubPort) : (s.setSub i x).accGen = s.accGen := rfl
@[simp] theorem State.setSub_era (s : State) (i : Nat) (x : SubPort) : (s.setSub i x).era = s.era := rfl
@[simp] theorem State.setSub_cores (s : State) (i : Nat) (x : SubPort) : (s.setSub i x).cores = s.cores := rfl
@[simp] theorem State.setSub_remap (s : State) (i : Nat) (x : SubPort) : (s.setSub i x).remap = s.remap := rfl
@[simp] theorem State.setSub_counters (s : State) (i : Nat) (x : SubPort) : (s.setSub i x).counters = s.counters := rfl
@[simp] theorem State.setSub_cfg (s : State) (i : Nat) (x : SubPort) : (s.setSub i x).cfg = s.cfg := rfl
@[simp] theorem State.setSub_pend (s : State) (i : Nat) (x : SubPort) : (s.setSub i x).pend = s.pend := rfl
@[simp] theorem State.setSub_bseq (s : State) (i : Nat) (x : SubPort) : (s.setSub i x).bseq = s.bseq := rfl
@[simp] theorem State.setSub_wstat (s : State) (i : Nat) (x : SubPort) : (s.setSub i x).wstat = s.wstat := rfl
@[simp] theorem State.setSub_errcnt (s : State) (i : Nat) (x : SubPort) : (s.setSub i x).errcnt = s.errcnt := rfl
@[simp] theorem State.setSub_snap (s : State) (i : Nat) (x : SubPort) : (s.setSub i x).snap = s.snap := rfl
@[simp] theorem State.setSub_mailboxes (s : State) (i : Nat) (x : SubPort) : (s.setSub i x).mailboxes = s.mailboxes := rfl
@[simp] theorem State.setSub_lastMb (s : State) (i : Nat) (x : SubPort) : (s.setSub i x).lastMb = s.lastMb := rfl
@[simp] theorem State.setSub_compat (s : State) (i : Nat) (x : SubPort) : (s.setSub i x).compat = s.compat := rfl
@[simp] theorem State.setSub_bu (s : State) (i : Nat) (x : SubPort) : (s.setSub i x).bu = s.bu := rfl
@[simp] theorem State.setSub_power (s : State) (i : Nat) (x : SubPort) : (s.setSub i x).power = s.power := rfl
@[simp] theorem State.setSub_defects (s : State) (i : Nat) (x : SubPort) : (s.setSub i x).defects = s.defects := rfl
@[simp] theorem State.setSub_sec (s : State) (i : Nat) (x : SubPort) : (s.setSub i x).sec = s.sec := rfl
@[simp] theorem State.setSub_mem (s : State) (i : Nat) (x : SubPort) : (s.setSub i x).mem = s.mem := rfl
@[simp] theorem State.setSub_store (s : State) (i : Nat) (x : SubPort) : (s.setSub i x).store = s.store := rfl
@[simp] theorem State.setSub_link (s : State) (i : Nat) (x : SubPort) : (s.setSub i x).link = s.link := rfl
@[simp] theorem State.setSub_pewter (s : State) (i : Nat) (x : SubPort) : (s.setSub i x).pewter = s.pewter := rfl
@[simp] theorem State.setSub_jobs (s : State) (i : Nat) (x : SubPort) : (s.setSub i x).jobs = s.jobs := rfl
@[simp] theorem State.setSub_svcs (s : State) (i : Nat) (x : SubPort) : (s.setSub i x).svcs = s.svcs := rfl
@[simp] theorem State.setSub_xp (s : State) (i : Nat) (x : SubPort) : (s.setSub i x).xp = s.xp := rfl
@[simp] theorem State.setSub_ports (s : State) (i : Nat) (x : SubPort) : (s.setSub i x).ports = s.ports := rfl
@[simp] theorem State.setSub_bays (s : State) (i : Nat) (x : SubPort) : (s.setSub i x).bays = s.bays := rfl
@[simp] theorem State.setSub_groups (s : State) (i : Nat) (x : SubPort) : (s.setSub i x).groups = s.groups := rfl
@[simp] theorem State.setSub_dies (s : State) (i : Nat) (x : SubPort) : (s.setSub i x).dies = s.dies := rfl
@[simp] theorem State.setSub_con (s : State) (i : Nat) (x : SubPort) : (s.setSub i x).con = s.con := rfl
@[simp] theorem State.setSub_inv (s : State) (i : Nat) (x : SubPort) : (s.setSub i x).inv = s.inv := rfl
@[simp] theorem State.setSub_cvs (s : State) (i : Nat) (x : SubPort) : (s.setSub i x).cvs = s.cvs := rfl
@[simp] theorem State.setSub_mb (s : State) (i : Nat) (x : SubPort) (o : Nat) : (s.setSub i x).mb o = s.mb o := rfl
@[simp] theorem State.setSub_core (s : State) (i : Nat) (x : SubPort) (o : Nat) : (s.setSub i x).core o = s.core o := rfl
@[simp] theorem State.setSub_job (s : State) (i : Nat) (x : SubPort) (o : Nat) : (s.setSub i x).job? o = s.job? o := rfl
@[simp] theorem State.setSub_svc (s : State) (i : Nat) (x : SubPort) (o : Nat) : (s.setSub i x).svc? o = s.svc? o := rfl
@[simp] theorem State.setSub_qp (s : State) (i : Nat) (x : SubPort) (o : Nat) : (s.setSub i x).qp? o = s.qp? o := rfl
@[simp] theorem State.setSub_port (s : State) (i : Nat) (x : SubPort) (o : Nat) : (s.setSub i x).port o = s.port o := rfl
@[simp] theorem State.setSub_bay (s : State) (i : Nat) (x : SubPort) (o : Nat) : (s.setSub i x).bay o = s.bay o := rfl
@[simp] theorem State.setSub_grp (s : State) (i : Nat) (x : SubPort) (o : Nat) : (s.setSub i x).grp o = s.grp o := rfl
@[simp] theorem State.setSub_die (s : State) (i : Nat) (x : SubPort) (o : Nat) : (s.setSub i x).die o = s.die o := rfl
@[simp] theorem State.setSub_chan (s : State) (i : Nat) (x : SubPort) (o : Nat) : (s.setSub i x).chan o = s.chan o := rfl
@[simp] theorem State.setSub_bridge (s : State) (i : Nat) (x : SubPort) (o : Nat) : (s.setSub i x).bridge o = s.bridge o := rfl
@[simp] theorem State.setSub_cv (s : State) (i : Nat) (x : SubPort) (o : Nat) : (s.setSub i x).cv o = s.cv o := rfl
@[simp] theorem State.setSub_part (s : State) (i : Nat) (x : SubPort) (o : Nat) : (s.setSub i x).part? o = s.part? o := rfl
@[simp] theorem State.setSub_ctr (s : State) (i : Nat) (x : SubPort) (o : Nat) : (s.setSub i x).ctr o = s.ctr o := rfl
@[simp] theorem State.setSub_reg (s : State) (i : Nat) (x : SubPort) (b : Blk) (o : Nat) : (s.setSub i x).reg b o = s.reg b o := rfl

/-! ### setPort -/

@[simp] theorem State.setPort_port_same (s : State) (p : Nat) (x : Port) : (s.setPort p x).port p = x := by
  simp [State.setPort, State.port]
theorem State.setPort_port_ne (s : State) (p : Nat) (x : Port) {o : Nat} (h : o ≠ p) : (s.setPort p x).port o = s.port o := by
  simp [State.setPort, State.port, tabGet_tabSet_ne _ _ _ h]
@[simp] theorem State.setPort_pending (s : State) (p : Nat) (x : Port) : (s.setPort p x).pending = s.pending := rfl
@[simp] theorem State.setPort_tick (s : State) (p : Nat) (x : Port) : (s.setPort p x).tick = s.tick := rfl
@[simp] theorem State.setPort_free (s : State) (p : Nat) (x : Port) : (s.setPort p x).free = s.free := rfl
@[simp] theorem State.setPort_hostMem (s : State) (p : Nat) (x : Port) : (s.setPort p x).hostMem = s.hostMem := rfl
@[simp] theorem State.setPort_busOut (s : State) (p : Nat) (x : Port) : (s.setPort p x).busOut = s.busOut := rfl
@[simp] theorem State.setPort_devMem (s : State) (p : Nat) (x : Port) : (s.setPort p x).devMem = s.devMem := rfl
@[simp] theorem State.setPort_localMem (s : State) (p : Nat) (x : Port) : (s.setPort p x).localMem = s.localMem := rfl
@[simp] theorem State.setPort_acc (s : State) (p : Nat) (x : Port) : (s.setPort p x).acc = s.acc := rfl
@[simp] theorem State.setPort_accFlags (s : State) (p : Nat) (x : Port) : (s.setPort p x).accFlags = s.accFlags := rfl
@[simp] theorem State.setPort_accGen (s : State) (p : Nat) (x : Port) : (s.setPort p x).accGen = s.accGen := rfl
@[simp] theorem State.setPort_era (s : State) (p : Nat) (x : Port) : (s.setPort p x).era = s.era := rfl
@[simp] theorem State.setPort_cores (s : State) (p : Nat) (x : Port) : (s.setPort p x).cores = s.cores := rfl
@[simp] theorem State.setPort_remap (s : State) (p : Nat) (x : Port) : (s.setPort p x).remap = s.remap := rfl
@[simp] theorem State.setPort_counters (s : State) (p : Nat) (x : Port) : (s.setPort p x).counters = s.counters := rfl
@[simp] theorem State.setPort_cfg (s : State) (p : Nat) (x : Port) : (s.setPort p x).cfg = s.cfg := rfl
@[simp] theorem State.setPort_pend (s : State) (p : Nat) (x : Port) : (s.setPort p x).pend = s.pend := rfl
@[simp] theorem State.setPort_bseq (s : State) (p : Nat) (x : Port) : (s.setPort p x).bseq = s.bseq := rfl
@[simp] theorem State.setPort_wstat (s : State) (p : Nat) (x : Port) : (s.setPort p x).wstat = s.wstat := rfl
@[simp] theorem State.setPort_errcnt (s : State) (p : Nat) (x : Port) : (s.setPort p x).errcnt = s.errcnt := rfl
@[simp] theorem State.setPort_snap (s : State) (p : Nat) (x : Port) : (s.setPort p x).snap = s.snap := rfl
@[simp] theorem State.setPort_mailboxes (s : State) (p : Nat) (x : Port) : (s.setPort p x).mailboxes = s.mailboxes := rfl
@[simp] theorem State.setPort_lastMb (s : State) (p : Nat) (x : Port) : (s.setPort p x).lastMb = s.lastMb := rfl
@[simp] theorem State.setPort_compat (s : State) (p : Nat) (x : Port) : (s.setPort p x).compat = s.compat := rfl
@[simp] theorem State.setPort_bu (s : State) (p : Nat) (x : Port) : (s.setPort p x).bu = s.bu := rfl
@[simp] theorem State.setPort_power (s : State) (p : Nat) (x : Port) : (s.setPort p x).power = s.power := rfl
@[simp] theorem State.setPort_defects (s : State) (p : Nat) (x : Port) : (s.setPort p x).defects = s.defects := rfl
@[simp] theorem State.setPort_sec (s : State) (p : Nat) (x : Port) : (s.setPort p x).sec = s.sec := rfl
@[simp] theorem State.setPort_mem (s : State) (p : Nat) (x : Port) : (s.setPort p x).mem = s.mem := rfl
@[simp] theorem State.setPort_store (s : State) (p : Nat) (x : Port) : (s.setPort p x).store = s.store := rfl
@[simp] theorem State.setPort_link (s : State) (p : Nat) (x : Port) : (s.setPort p x).link = s.link := rfl
@[simp] theorem State.setPort_pewter (s : State) (p : Nat) (x : Port) : (s.setPort p x).pewter = s.pewter := rfl
@[simp] theorem State.setPort_jobs (s : State) (p : Nat) (x : Port) : (s.setPort p x).jobs = s.jobs := rfl
@[simp] theorem State.setPort_svcs (s : State) (p : Nat) (x : Port) : (s.setPort p x).svcs = s.svcs := rfl
@[simp] theorem State.setPort_xp (s : State) (p : Nat) (x : Port) : (s.setPort p x).xp = s.xp := rfl
@[simp] theorem State.setPort_subs (s : State) (p : Nat) (x : Port) : (s.setPort p x).subs = s.subs := rfl
@[simp] theorem State.setPort_bays (s : State) (p : Nat) (x : Port) : (s.setPort p x).bays = s.bays := rfl
@[simp] theorem State.setPort_groups (s : State) (p : Nat) (x : Port) : (s.setPort p x).groups = s.groups := rfl
@[simp] theorem State.setPort_dies (s : State) (p : Nat) (x : Port) : (s.setPort p x).dies = s.dies := rfl
@[simp] theorem State.setPort_con (s : State) (p : Nat) (x : Port) : (s.setPort p x).con = s.con := rfl
@[simp] theorem State.setPort_inv (s : State) (p : Nat) (x : Port) : (s.setPort p x).inv = s.inv := rfl
@[simp] theorem State.setPort_cvs (s : State) (p : Nat) (x : Port) : (s.setPort p x).cvs = s.cvs := rfl
@[simp] theorem State.setPort_mb (s : State) (p : Nat) (x : Port) (o : Nat) : (s.setPort p x).mb o = s.mb o := rfl
@[simp] theorem State.setPort_core (s : State) (p : Nat) (x : Port) (o : Nat) : (s.setPort p x).core o = s.core o := rfl
@[simp] theorem State.setPort_job (s : State) (p : Nat) (x : Port) (o : Nat) : (s.setPort p x).job? o = s.job? o := rfl
@[simp] theorem State.setPort_svc (s : State) (p : Nat) (x : Port) (o : Nat) : (s.setPort p x).svc? o = s.svc? o := rfl
@[simp] theorem State.setPort_qp (s : State) (p : Nat) (x : Port) (o : Nat) : (s.setPort p x).qp? o = s.qp? o := rfl
@[simp] theorem State.setPort_sub (s : State) (p : Nat) (x : Port) (o : Nat) : (s.setPort p x).sub o = s.sub o := rfl
@[simp] theorem State.setPort_bay (s : State) (p : Nat) (x : Port) (o : Nat) : (s.setPort p x).bay o = s.bay o := rfl
@[simp] theorem State.setPort_grp (s : State) (p : Nat) (x : Port) (o : Nat) : (s.setPort p x).grp o = s.grp o := rfl
@[simp] theorem State.setPort_die (s : State) (p : Nat) (x : Port) (o : Nat) : (s.setPort p x).die o = s.die o := rfl
@[simp] theorem State.setPort_chan (s : State) (p : Nat) (x : Port) (o : Nat) : (s.setPort p x).chan o = s.chan o := rfl
@[simp] theorem State.setPort_bridge (s : State) (p : Nat) (x : Port) (o : Nat) : (s.setPort p x).bridge o = s.bridge o := rfl
@[simp] theorem State.setPort_cv (s : State) (p : Nat) (x : Port) (o : Nat) : (s.setPort p x).cv o = s.cv o := rfl
@[simp] theorem State.setPort_part (s : State) (p : Nat) (x : Port) (o : Nat) : (s.setPort p x).part? o = s.part? o := rfl
@[simp] theorem State.setPort_ctr (s : State) (p : Nat) (x : Port) (o : Nat) : (s.setPort p x).ctr o = s.ctr o := rfl
@[simp] theorem State.setPort_reg (s : State) (p : Nat) (x : Port) (b : Blk) (o : Nat) : (s.setPort p x).reg b o = s.reg b o := rfl

/-! ### setBay -/

@[simp] theorem State.setBay_bay_same (s : State) (i : Nat) (x : Bay) : (s.setBay i x).bay i = x := by
  simp [State.setBay, State.bay]
theorem State.setBay_bay_ne (s : State) (i : Nat) (x : Bay) {o : Nat} (h : o ≠ i) : (s.setBay i x).bay o = s.bay o := by
  simp [State.setBay, State.bay, tabGet_tabSet_ne _ _ _ h]
@[simp] theorem State.setBay_pending (s : State) (i : Nat) (x : Bay) : (s.setBay i x).pending = s.pending := rfl
@[simp] theorem State.setBay_tick (s : State) (i : Nat) (x : Bay) : (s.setBay i x).tick = s.tick := rfl
@[simp] theorem State.setBay_free (s : State) (i : Nat) (x : Bay) : (s.setBay i x).free = s.free := rfl
@[simp] theorem State.setBay_hostMem (s : State) (i : Nat) (x : Bay) : (s.setBay i x).hostMem = s.hostMem := rfl
@[simp] theorem State.setBay_busOut (s : State) (i : Nat) (x : Bay) : (s.setBay i x).busOut = s.busOut := rfl
@[simp] theorem State.setBay_devMem (s : State) (i : Nat) (x : Bay) : (s.setBay i x).devMem = s.devMem := rfl
@[simp] theorem State.setBay_localMem (s : State) (i : Nat) (x : Bay) : (s.setBay i x).localMem = s.localMem := rfl
@[simp] theorem State.setBay_acc (s : State) (i : Nat) (x : Bay) : (s.setBay i x).acc = s.acc := rfl
@[simp] theorem State.setBay_accFlags (s : State) (i : Nat) (x : Bay) : (s.setBay i x).accFlags = s.accFlags := rfl
@[simp] theorem State.setBay_accGen (s : State) (i : Nat) (x : Bay) : (s.setBay i x).accGen = s.accGen := rfl
@[simp] theorem State.setBay_era (s : State) (i : Nat) (x : Bay) : (s.setBay i x).era = s.era := rfl
@[simp] theorem State.setBay_cores (s : State) (i : Nat) (x : Bay) : (s.setBay i x).cores = s.cores := rfl
@[simp] theorem State.setBay_remap (s : State) (i : Nat) (x : Bay) : (s.setBay i x).remap = s.remap := rfl
@[simp] theorem State.setBay_counters (s : State) (i : Nat) (x : Bay) : (s.setBay i x).counters = s.counters := rfl
@[simp] theorem State.setBay_cfg (s : State) (i : Nat) (x : Bay) : (s.setBay i x).cfg = s.cfg := rfl
@[simp] theorem State.setBay_pend (s : State) (i : Nat) (x : Bay) : (s.setBay i x).pend = s.pend := rfl
@[simp] theorem State.setBay_bseq (s : State) (i : Nat) (x : Bay) : (s.setBay i x).bseq = s.bseq := rfl
@[simp] theorem State.setBay_wstat (s : State) (i : Nat) (x : Bay) : (s.setBay i x).wstat = s.wstat := rfl
@[simp] theorem State.setBay_errcnt (s : State) (i : Nat) (x : Bay) : (s.setBay i x).errcnt = s.errcnt := rfl
@[simp] theorem State.setBay_snap (s : State) (i : Nat) (x : Bay) : (s.setBay i x).snap = s.snap := rfl
@[simp] theorem State.setBay_mailboxes (s : State) (i : Nat) (x : Bay) : (s.setBay i x).mailboxes = s.mailboxes := rfl
@[simp] theorem State.setBay_lastMb (s : State) (i : Nat) (x : Bay) : (s.setBay i x).lastMb = s.lastMb := rfl
@[simp] theorem State.setBay_compat (s : State) (i : Nat) (x : Bay) : (s.setBay i x).compat = s.compat := rfl
@[simp] theorem State.setBay_bu (s : State) (i : Nat) (x : Bay) : (s.setBay i x).bu = s.bu := rfl
@[simp] theorem State.setBay_power (s : State) (i : Nat) (x : Bay) : (s.setBay i x).power = s.power := rfl
@[simp] theorem State.setBay_defects (s : State) (i : Nat) (x : Bay) : (s.setBay i x).defects = s.defects := rfl
@[simp] theorem State.setBay_sec (s : State) (i : Nat) (x : Bay) : (s.setBay i x).sec = s.sec := rfl
@[simp] theorem State.setBay_mem (s : State) (i : Nat) (x : Bay) : (s.setBay i x).mem = s.mem := rfl
@[simp] theorem State.setBay_store (s : State) (i : Nat) (x : Bay) : (s.setBay i x).store = s.store := rfl
@[simp] theorem State.setBay_link (s : State) (i : Nat) (x : Bay) : (s.setBay i x).link = s.link := rfl
@[simp] theorem State.setBay_pewter (s : State) (i : Nat) (x : Bay) : (s.setBay i x).pewter = s.pewter := rfl
@[simp] theorem State.setBay_jobs (s : State) (i : Nat) (x : Bay) : (s.setBay i x).jobs = s.jobs := rfl
@[simp] theorem State.setBay_svcs (s : State) (i : Nat) (x : Bay) : (s.setBay i x).svcs = s.svcs := rfl
@[simp] theorem State.setBay_xp (s : State) (i : Nat) (x : Bay) : (s.setBay i x).xp = s.xp := rfl
@[simp] theorem State.setBay_subs (s : State) (i : Nat) (x : Bay) : (s.setBay i x).subs = s.subs := rfl
@[simp] theorem State.setBay_ports (s : State) (i : Nat) (x : Bay) : (s.setBay i x).ports = s.ports := rfl
@[simp] theorem State.setBay_groups (s : State) (i : Nat) (x : Bay) : (s.setBay i x).groups = s.groups := rfl
@[simp] theorem State.setBay_dies (s : State) (i : Nat) (x : Bay) : (s.setBay i x).dies = s.dies := rfl
@[simp] theorem State.setBay_con (s : State) (i : Nat) (x : Bay) : (s.setBay i x).con = s.con := rfl
@[simp] theorem State.setBay_inv (s : State) (i : Nat) (x : Bay) : (s.setBay i x).inv = s.inv := rfl
@[simp] theorem State.setBay_cvs (s : State) (i : Nat) (x : Bay) : (s.setBay i x).cvs = s.cvs := rfl
@[simp] theorem State.setBay_mb (s : State) (i : Nat) (x : Bay) (o : Nat) : (s.setBay i x).mb o = s.mb o := rfl
@[simp] theorem State.setBay_core (s : State) (i : Nat) (x : Bay) (o : Nat) : (s.setBay i x).core o = s.core o := rfl
@[simp] theorem State.setBay_job (s : State) (i : Nat) (x : Bay) (o : Nat) : (s.setBay i x).job? o = s.job? o := rfl
@[simp] theorem State.setBay_svc (s : State) (i : Nat) (x : Bay) (o : Nat) : (s.setBay i x).svc? o = s.svc? o := rfl
@[simp] theorem State.setBay_qp (s : State) (i : Nat) (x : Bay) (o : Nat) : (s.setBay i x).qp? o = s.qp? o := rfl
@[simp] theorem State.setBay_sub (s : State) (i : Nat) (x : Bay) (o : Nat) : (s.setBay i x).sub o = s.sub o := rfl
@[simp] theorem State.setBay_port (s : State) (i : Nat) (x : Bay) (o : Nat) : (s.setBay i x).port o = s.port o := rfl
@[simp] theorem State.setBay_grp (s : State) (i : Nat) (x : Bay) (o : Nat) : (s.setBay i x).grp o = s.grp o := rfl
@[simp] theorem State.setBay_die (s : State) (i : Nat) (x : Bay) (o : Nat) : (s.setBay i x).die o = s.die o := rfl
@[simp] theorem State.setBay_chan (s : State) (i : Nat) (x : Bay) (o : Nat) : (s.setBay i x).chan o = s.chan o := rfl
@[simp] theorem State.setBay_bridge (s : State) (i : Nat) (x : Bay) (o : Nat) : (s.setBay i x).bridge o = s.bridge o := rfl
@[simp] theorem State.setBay_cv (s : State) (i : Nat) (x : Bay) (o : Nat) : (s.setBay i x).cv o = s.cv o := rfl
@[simp] theorem State.setBay_part (s : State) (i : Nat) (x : Bay) (o : Nat) : (s.setBay i x).part? o = s.part? o := rfl
@[simp] theorem State.setBay_ctr (s : State) (i : Nat) (x : Bay) (o : Nat) : (s.setBay i x).ctr o = s.ctr o := rfl
@[simp] theorem State.setBay_reg (s : State) (i : Nat) (x : Bay) (b : Blk) (o : Nat) : (s.setBay i x).reg b o = s.reg b o := rfl

/-! ### setGrp -/

@[simp] theorem State.setGrp_grp_same (s : State) (g : Nat) (x : Group) : (s.setGrp g x).grp g = x := by
  simp [State.setGrp, State.grp]
theorem State.setGrp_grp_ne (s : State) (g : Nat) (x : Group) {o : Nat} (h : o ≠ g) : (s.setGrp g x).grp o = s.grp o := by
  simp [State.setGrp, State.grp, tabGet_tabSet_ne _ _ _ h]
@[simp] theorem State.setGrp_pending (s : State) (g : Nat) (x : Group) : (s.setGrp g x).pending = s.pending := rfl
@[simp] theorem State.setGrp_tick (s : State) (g : Nat) (x : Group) : (s.setGrp g x).tick = s.tick := rfl
@[simp] theorem State.setGrp_free (s : State) (g : Nat) (x : Group) : (s.setGrp g x).free = s.free := rfl
@[simp] theorem State.setGrp_hostMem (s : State) (g : Nat) (x : Group) : (s.setGrp g x).hostMem = s.hostMem := rfl
@[simp] theorem State.setGrp_busOut (s : State) (g : Nat) (x : Group) : (s.setGrp g x).busOut = s.busOut := rfl
@[simp] theorem State.setGrp_devMem (s : State) (g : Nat) (x : Group) : (s.setGrp g x).devMem = s.devMem := rfl
@[simp] theorem State.setGrp_localMem (s : State) (g : Nat) (x : Group) : (s.setGrp g x).localMem = s.localMem := rfl
@[simp] theorem State.setGrp_acc (s : State) (g : Nat) (x : Group) : (s.setGrp g x).acc = s.acc := rfl
@[simp] theorem State.setGrp_accFlags (s : State) (g : Nat) (x : Group) : (s.setGrp g x).accFlags = s.accFlags := rfl
@[simp] theorem State.setGrp_accGen (s : State) (g : Nat) (x : Group) : (s.setGrp g x).accGen = s.accGen := rfl
@[simp] theorem State.setGrp_era (s : State) (g : Nat) (x : Group) : (s.setGrp g x).era = s.era := rfl
@[simp] theorem State.setGrp_cores (s : State) (g : Nat) (x : Group) : (s.setGrp g x).cores = s.cores := rfl
@[simp] theorem State.setGrp_remap (s : State) (g : Nat) (x : Group) : (s.setGrp g x).remap = s.remap := rfl
@[simp] theorem State.setGrp_counters (s : State) (g : Nat) (x : Group) : (s.setGrp g x).counters = s.counters := rfl
@[simp] theorem State.setGrp_cfg (s : State) (g : Nat) (x : Group) : (s.setGrp g x).cfg = s.cfg := rfl
@[simp] theorem State.setGrp_pend (s : State) (g : Nat) (x : Group) : (s.setGrp g x).pend = s.pend := rfl
@[simp] theorem State.setGrp_bseq (s : State) (g : Nat) (x : Group) : (s.setGrp g x).bseq = s.bseq := rfl
@[simp] theorem State.setGrp_wstat (s : State) (g : Nat) (x : Group) : (s.setGrp g x).wstat = s.wstat := rfl
@[simp] theorem State.setGrp_errcnt (s : State) (g : Nat) (x : Group) : (s.setGrp g x).errcnt = s.errcnt := rfl
@[simp] theorem State.setGrp_snap (s : State) (g : Nat) (x : Group) : (s.setGrp g x).snap = s.snap := rfl
@[simp] theorem State.setGrp_mailboxes (s : State) (g : Nat) (x : Group) : (s.setGrp g x).mailboxes = s.mailboxes := rfl
@[simp] theorem State.setGrp_lastMb (s : State) (g : Nat) (x : Group) : (s.setGrp g x).lastMb = s.lastMb := rfl
@[simp] theorem State.setGrp_compat (s : State) (g : Nat) (x : Group) : (s.setGrp g x).compat = s.compat := rfl
@[simp] theorem State.setGrp_bu (s : State) (g : Nat) (x : Group) : (s.setGrp g x).bu = s.bu := rfl
@[simp] theorem State.setGrp_power (s : State) (g : Nat) (x : Group) : (s.setGrp g x).power = s.power := rfl
@[simp] theorem State.setGrp_defects (s : State) (g : Nat) (x : Group) : (s.setGrp g x).defects = s.defects := rfl
@[simp] theorem State.setGrp_sec (s : State) (g : Nat) (x : Group) : (s.setGrp g x).sec = s.sec := rfl
@[simp] theorem State.setGrp_mem (s : State) (g : Nat) (x : Group) : (s.setGrp g x).mem = s.mem := rfl
@[simp] theorem State.setGrp_store (s : State) (g : Nat) (x : Group) : (s.setGrp g x).store = s.store := rfl
@[simp] theorem State.setGrp_link (s : State) (g : Nat) (x : Group) : (s.setGrp g x).link = s.link := rfl
@[simp] theorem State.setGrp_pewter (s : State) (g : Nat) (x : Group) : (s.setGrp g x).pewter = s.pewter := rfl
@[simp] theorem State.setGrp_jobs (s : State) (g : Nat) (x : Group) : (s.setGrp g x).jobs = s.jobs := rfl
@[simp] theorem State.setGrp_svcs (s : State) (g : Nat) (x : Group) : (s.setGrp g x).svcs = s.svcs := rfl
@[simp] theorem State.setGrp_xp (s : State) (g : Nat) (x : Group) : (s.setGrp g x).xp = s.xp := rfl
@[simp] theorem State.setGrp_subs (s : State) (g : Nat) (x : Group) : (s.setGrp g x).subs = s.subs := rfl
@[simp] theorem State.setGrp_ports (s : State) (g : Nat) (x : Group) : (s.setGrp g x).ports = s.ports := rfl
@[simp] theorem State.setGrp_bays (s : State) (g : Nat) (x : Group) : (s.setGrp g x).bays = s.bays := rfl
@[simp] theorem State.setGrp_dies (s : State) (g : Nat) (x : Group) : (s.setGrp g x).dies = s.dies := rfl
@[simp] theorem State.setGrp_con (s : State) (g : Nat) (x : Group) : (s.setGrp g x).con = s.con := rfl
@[simp] theorem State.setGrp_inv (s : State) (g : Nat) (x : Group) : (s.setGrp g x).inv = s.inv := rfl
@[simp] theorem State.setGrp_cvs (s : State) (g : Nat) (x : Group) : (s.setGrp g x).cvs = s.cvs := rfl
@[simp] theorem State.setGrp_mb (s : State) (g : Nat) (x : Group) (o : Nat) : (s.setGrp g x).mb o = s.mb o := rfl
@[simp] theorem State.setGrp_core (s : State) (g : Nat) (x : Group) (o : Nat) : (s.setGrp g x).core o = s.core o := rfl
@[simp] theorem State.setGrp_job (s : State) (g : Nat) (x : Group) (o : Nat) : (s.setGrp g x).job? o = s.job? o := rfl
@[simp] theorem State.setGrp_svc (s : State) (g : Nat) (x : Group) (o : Nat) : (s.setGrp g x).svc? o = s.svc? o := rfl
@[simp] theorem State.setGrp_qp (s : State) (g : Nat) (x : Group) (o : Nat) : (s.setGrp g x).qp? o = s.qp? o := rfl
@[simp] theorem State.setGrp_sub (s : State) (g : Nat) (x : Group) (o : Nat) : (s.setGrp g x).sub o = s.sub o := rfl
@[simp] theorem State.setGrp_port (s : State) (g : Nat) (x : Group) (o : Nat) : (s.setGrp g x).port o = s.port o := rfl
@[simp] theorem State.setGrp_bay (s : State) (g : Nat) (x : Group) (o : Nat) : (s.setGrp g x).bay o = s.bay o := rfl
@[simp] theorem State.setGrp_die (s : State) (g : Nat) (x : Group) (o : Nat) : (s.setGrp g x).die o = s.die o := rfl
@[simp] theorem State.setGrp_chan (s : State) (g : Nat) (x : Group) (o : Nat) : (s.setGrp g x).chan o = s.chan o := rfl
@[simp] theorem State.setGrp_bridge (s : State) (g : Nat) (x : Group) (o : Nat) : (s.setGrp g x).bridge o = s.bridge o := rfl
@[simp] theorem State.setGrp_cv (s : State) (g : Nat) (x : Group) (o : Nat) : (s.setGrp g x).cv o = s.cv o := rfl
@[simp] theorem State.setGrp_part (s : State) (g : Nat) (x : Group) (o : Nat) : (s.setGrp g x).part? o = s.part? o := rfl
@[simp] theorem State.setGrp_ctr (s : State) (g : Nat) (x : Group) (o : Nat) : (s.setGrp g x).ctr o = s.ctr o := rfl
@[simp] theorem State.setGrp_reg (s : State) (g : Nat) (x : Group) (b : Blk) (o : Nat) : (s.setGrp g x).reg b o = s.reg b o := rfl

/-! ### setDie -/

@[simp] theorem State.setDie_die_same (s : State) (d : Nat) (x : DieS) : (s.setDie d x).die d = x := by
  simp [State.setDie, State.die]
theorem State.setDie_die_ne (s : State) (d : Nat) (x : DieS) {o : Nat} (h : o ≠ d) : (s.setDie d x).die o = s.die o := by
  simp [State.setDie, State.die, tabGet_tabSet_ne _ _ _ h]
@[simp] theorem State.setDie_pending (s : State) (d : Nat) (x : DieS) : (s.setDie d x).pending = s.pending := rfl
@[simp] theorem State.setDie_tick (s : State) (d : Nat) (x : DieS) : (s.setDie d x).tick = s.tick := rfl
@[simp] theorem State.setDie_free (s : State) (d : Nat) (x : DieS) : (s.setDie d x).free = s.free := rfl
@[simp] theorem State.setDie_hostMem (s : State) (d : Nat) (x : DieS) : (s.setDie d x).hostMem = s.hostMem := rfl
@[simp] theorem State.setDie_busOut (s : State) (d : Nat) (x : DieS) : (s.setDie d x).busOut = s.busOut := rfl
@[simp] theorem State.setDie_devMem (s : State) (d : Nat) (x : DieS) : (s.setDie d x).devMem = s.devMem := rfl
@[simp] theorem State.setDie_localMem (s : State) (d : Nat) (x : DieS) : (s.setDie d x).localMem = s.localMem := rfl
@[simp] theorem State.setDie_acc (s : State) (d : Nat) (x : DieS) : (s.setDie d x).acc = s.acc := rfl
@[simp] theorem State.setDie_accFlags (s : State) (d : Nat) (x : DieS) : (s.setDie d x).accFlags = s.accFlags := rfl
@[simp] theorem State.setDie_accGen (s : State) (d : Nat) (x : DieS) : (s.setDie d x).accGen = s.accGen := rfl
@[simp] theorem State.setDie_era (s : State) (d : Nat) (x : DieS) : (s.setDie d x).era = s.era := rfl
@[simp] theorem State.setDie_cores (s : State) (d : Nat) (x : DieS) : (s.setDie d x).cores = s.cores := rfl
@[simp] theorem State.setDie_remap (s : State) (d : Nat) (x : DieS) : (s.setDie d x).remap = s.remap := rfl
@[simp] theorem State.setDie_counters (s : State) (d : Nat) (x : DieS) : (s.setDie d x).counters = s.counters := rfl
@[simp] theorem State.setDie_cfg (s : State) (d : Nat) (x : DieS) : (s.setDie d x).cfg = s.cfg := rfl
@[simp] theorem State.setDie_pend (s : State) (d : Nat) (x : DieS) : (s.setDie d x).pend = s.pend := rfl
@[simp] theorem State.setDie_bseq (s : State) (d : Nat) (x : DieS) : (s.setDie d x).bseq = s.bseq := rfl
@[simp] theorem State.setDie_wstat (s : State) (d : Nat) (x : DieS) : (s.setDie d x).wstat = s.wstat := rfl
@[simp] theorem State.setDie_errcnt (s : State) (d : Nat) (x : DieS) : (s.setDie d x).errcnt = s.errcnt := rfl
@[simp] theorem State.setDie_snap (s : State) (d : Nat) (x : DieS) : (s.setDie d x).snap = s.snap := rfl
@[simp] theorem State.setDie_mailboxes (s : State) (d : Nat) (x : DieS) : (s.setDie d x).mailboxes = s.mailboxes := rfl
@[simp] theorem State.setDie_lastMb (s : State) (d : Nat) (x : DieS) : (s.setDie d x).lastMb = s.lastMb := rfl
@[simp] theorem State.setDie_compat (s : State) (d : Nat) (x : DieS) : (s.setDie d x).compat = s.compat := rfl
@[simp] theorem State.setDie_bu (s : State) (d : Nat) (x : DieS) : (s.setDie d x).bu = s.bu := rfl
@[simp] theorem State.setDie_power (s : State) (d : Nat) (x : DieS) : (s.setDie d x).power = s.power := rfl
@[simp] theorem State.setDie_defects (s : State) (d : Nat) (x : DieS) : (s.setDie d x).defects = s.defects := rfl
@[simp] theorem State.setDie_sec (s : State) (d : Nat) (x : DieS) : (s.setDie d x).sec = s.sec := rfl
@[simp] theorem State.setDie_mem (s : State) (d : Nat) (x : DieS) : (s.setDie d x).mem = s.mem := rfl
@[simp] theorem State.setDie_store (s : State) (d : Nat) (x : DieS) : (s.setDie d x).store = s.store := rfl
@[simp] theorem State.setDie_link (s : State) (d : Nat) (x : DieS) : (s.setDie d x).link = s.link := rfl
@[simp] theorem State.setDie_pewter (s : State) (d : Nat) (x : DieS) : (s.setDie d x).pewter = s.pewter := rfl
@[simp] theorem State.setDie_jobs (s : State) (d : Nat) (x : DieS) : (s.setDie d x).jobs = s.jobs := rfl
@[simp] theorem State.setDie_svcs (s : State) (d : Nat) (x : DieS) : (s.setDie d x).svcs = s.svcs := rfl
@[simp] theorem State.setDie_xp (s : State) (d : Nat) (x : DieS) : (s.setDie d x).xp = s.xp := rfl
@[simp] theorem State.setDie_subs (s : State) (d : Nat) (x : DieS) : (s.setDie d x).subs = s.subs := rfl
@[simp] theorem State.setDie_ports (s : State) (d : Nat) (x : DieS) : (s.setDie d x).ports = s.ports := rfl
@[simp] theorem State.setDie_bays (s : State) (d : Nat) (x : DieS) : (s.setDie d x).bays = s.bays := rfl
@[simp] theorem State.setDie_groups (s : State) (d : Nat) (x : DieS) : (s.setDie d x).groups = s.groups := rfl
@[simp] theorem State.setDie_con (s : State) (d : Nat) (x : DieS) : (s.setDie d x).con = s.con := rfl
@[simp] theorem State.setDie_inv (s : State) (d : Nat) (x : DieS) : (s.setDie d x).inv = s.inv := rfl
@[simp] theorem State.setDie_cvs (s : State) (d : Nat) (x : DieS) : (s.setDie d x).cvs = s.cvs := rfl
@[simp] theorem State.setDie_mb (s : State) (d : Nat) (x : DieS) (o : Nat) : (s.setDie d x).mb o = s.mb o := rfl
@[simp] theorem State.setDie_core (s : State) (d : Nat) (x : DieS) (o : Nat) : (s.setDie d x).core o = s.core o := rfl
@[simp] theorem State.setDie_job (s : State) (d : Nat) (x : DieS) (o : Nat) : (s.setDie d x).job? o = s.job? o := rfl
@[simp] theorem State.setDie_svc (s : State) (d : Nat) (x : DieS) (o : Nat) : (s.setDie d x).svc? o = s.svc? o := rfl
@[simp] theorem State.setDie_qp (s : State) (d : Nat) (x : DieS) (o : Nat) : (s.setDie d x).qp? o = s.qp? o := rfl
@[simp] theorem State.setDie_sub (s : State) (d : Nat) (x : DieS) (o : Nat) : (s.setDie d x).sub o = s.sub o := rfl
@[simp] theorem State.setDie_port (s : State) (d : Nat) (x : DieS) (o : Nat) : (s.setDie d x).port o = s.port o := rfl
@[simp] theorem State.setDie_bay (s : State) (d : Nat) (x : DieS) (o : Nat) : (s.setDie d x).bay o = s.bay o := rfl
@[simp] theorem State.setDie_grp (s : State) (d : Nat) (x : DieS) (o : Nat) : (s.setDie d x).grp o = s.grp o := rfl
@[simp] theorem State.setDie_chan (s : State) (d : Nat) (x : DieS) (o : Nat) : (s.setDie d x).chan o = s.chan o := rfl
@[simp] theorem State.setDie_bridge (s : State) (d : Nat) (x : DieS) (o : Nat) : (s.setDie d x).bridge o = s.bridge o := rfl
@[simp] theorem State.setDie_cv (s : State) (d : Nat) (x : DieS) (o : Nat) : (s.setDie d x).cv o = s.cv o := rfl
@[simp] theorem State.setDie_part (s : State) (d : Nat) (x : DieS) (o : Nat) : (s.setDie d x).part? o = s.part? o := rfl
@[simp] theorem State.setDie_ctr (s : State) (d : Nat) (x : DieS) (o : Nat) : (s.setDie d x).ctr o = s.ctr o := rfl
@[simp] theorem State.setDie_reg (s : State) (d : Nat) (x : DieS) (b : Blk) (o : Nat) : (s.setDie d x).reg b o = s.reg b o := rfl

/-! ### setChan -/

@[simp] theorem State.setChan_chan_same (s : State) (c : Nat) (x : Chan) : (s.setChan c x).chan c = x := by
  simp [State.setChan, State.chan]
theorem State.setChan_chan_ne (s : State) (c : Nat) (x : Chan) {o : Nat} (h : o ≠ c) : (s.setChan c x).chan o = s.chan o := by
  simp [State.setChan, State.chan, tabGet_tabSet_ne _ _ _ h]
@[simp] theorem State.setChan_pending (s : State) (c : Nat) (x : Chan) : (s.setChan c x).pending = s.pending := rfl
@[simp] theorem State.setChan_tick (s : State) (c : Nat) (x : Chan) : (s.setChan c x).tick = s.tick := rfl
@[simp] theorem State.setChan_free (s : State) (c : Nat) (x : Chan) : (s.setChan c x).free = s.free := rfl
@[simp] theorem State.setChan_hostMem (s : State) (c : Nat) (x : Chan) : (s.setChan c x).hostMem = s.hostMem := rfl
@[simp] theorem State.setChan_busOut (s : State) (c : Nat) (x : Chan) : (s.setChan c x).busOut = s.busOut := rfl
@[simp] theorem State.setChan_devMem (s : State) (c : Nat) (x : Chan) : (s.setChan c x).devMem = s.devMem := rfl
@[simp] theorem State.setChan_localMem (s : State) (c : Nat) (x : Chan) : (s.setChan c x).localMem = s.localMem := rfl
@[simp] theorem State.setChan_acc (s : State) (c : Nat) (x : Chan) : (s.setChan c x).acc = s.acc := rfl
@[simp] theorem State.setChan_accFlags (s : State) (c : Nat) (x : Chan) : (s.setChan c x).accFlags = s.accFlags := rfl
@[simp] theorem State.setChan_accGen (s : State) (c : Nat) (x : Chan) : (s.setChan c x).accGen = s.accGen := rfl
@[simp] theorem State.setChan_era (s : State) (c : Nat) (x : Chan) : (s.setChan c x).era = s.era := rfl
@[simp] theorem State.setChan_cores (s : State) (c : Nat) (x : Chan) : (s.setChan c x).cores = s.cores := rfl
@[simp] theorem State.setChan_remap (s : State) (c : Nat) (x : Chan) : (s.setChan c x).remap = s.remap := rfl
@[simp] theorem State.setChan_counters (s : State) (c : Nat) (x : Chan) : (s.setChan c x).counters = s.counters := rfl
@[simp] theorem State.setChan_cfg (s : State) (c : Nat) (x : Chan) : (s.setChan c x).cfg = s.cfg := rfl
@[simp] theorem State.setChan_pend (s : State) (c : Nat) (x : Chan) : (s.setChan c x).pend = s.pend := rfl
@[simp] theorem State.setChan_bseq (s : State) (c : Nat) (x : Chan) : (s.setChan c x).bseq = s.bseq := rfl
@[simp] theorem State.setChan_wstat (s : State) (c : Nat) (x : Chan) : (s.setChan c x).wstat = s.wstat := rfl
@[simp] theorem State.setChan_errcnt (s : State) (c : Nat) (x : Chan) : (s.setChan c x).errcnt = s.errcnt := rfl
@[simp] theorem State.setChan_snap (s : State) (c : Nat) (x : Chan) : (s.setChan c x).snap = s.snap := rfl
@[simp] theorem State.setChan_mailboxes (s : State) (c : Nat) (x : Chan) : (s.setChan c x).mailboxes = s.mailboxes := rfl
@[simp] theorem State.setChan_lastMb (s : State) (c : Nat) (x : Chan) : (s.setChan c x).lastMb = s.lastMb := rfl
@[simp] theorem State.setChan_compat (s : State) (c : Nat) (x : Chan) : (s.setChan c x).compat = s.compat := rfl
@[simp] theorem State.setChan_bu (s : State) (c : Nat) (x : Chan) : (s.setChan c x).bu = s.bu := rfl
@[simp] theorem State.setChan_power (s : State) (c : Nat) (x : Chan) : (s.setChan c x).power = s.power := rfl
@[simp] theorem State.setChan_defects (s : State) (c : Nat) (x : Chan) : (s.setChan c x).defects = s.defects := rfl
@[simp] theorem State.setChan_sec (s : State) (c : Nat) (x : Chan) : (s.setChan c x).sec = s.sec := rfl
@[simp] theorem State.setChan_mem (s : State) (c : Nat) (x : Chan) : (s.setChan c x).mem = s.mem := rfl
@[simp] theorem State.setChan_store (s : State) (c : Nat) (x : Chan) : (s.setChan c x).store = s.store := rfl
@[simp] theorem State.setChan_link (s : State) (c : Nat) (x : Chan) : (s.setChan c x).link = s.link := rfl
@[simp] theorem State.setChan_pewter (s : State) (c : Nat) (x : Chan) : (s.setChan c x).pewter = s.pewter := rfl
@[simp] theorem State.setChan_jobs (s : State) (c : Nat) (x : Chan) : (s.setChan c x).jobs = s.jobs := rfl
@[simp] theorem State.setChan_svcs (s : State) (c : Nat) (x : Chan) : (s.setChan c x).svcs = s.svcs := rfl
@[simp] theorem State.setChan_xp (s : State) (c : Nat) (x : Chan) : (s.setChan c x).xp = s.xp := rfl
@[simp] theorem State.setChan_subs (s : State) (c : Nat) (x : Chan) : (s.setChan c x).subs = s.subs := rfl
@[simp] theorem State.setChan_ports (s : State) (c : Nat) (x : Chan) : (s.setChan c x).ports = s.ports := rfl
@[simp] theorem State.setChan_bays (s : State) (c : Nat) (x : Chan) : (s.setChan c x).bays = s.bays := rfl
@[simp] theorem State.setChan_groups (s : State) (c : Nat) (x : Chan) : (s.setChan c x).groups = s.groups := rfl
@[simp] theorem State.setChan_dies (s : State) (c : Nat) (x : Chan) : (s.setChan c x).dies = s.dies := rfl
@[simp] theorem State.setChan_con (s : State) (c : Nat) (x : Chan) : (s.setChan c x).con = s.con := rfl
@[simp] theorem State.setChan_cvs (s : State) (c : Nat) (x : Chan) : (s.setChan c x).cvs = s.cvs := rfl
@[simp] theorem State.setChan_mb (s : State) (c : Nat) (x : Chan) (o : Nat) : (s.setChan c x).mb o = s.mb o := rfl
@[simp] theorem State.setChan_core (s : State) (c : Nat) (x : Chan) (o : Nat) : (s.setChan c x).core o = s.core o := rfl
@[simp] theorem State.setChan_job (s : State) (c : Nat) (x : Chan) (o : Nat) : (s.setChan c x).job? o = s.job? o := rfl
@[simp] theorem State.setChan_svc (s : State) (c : Nat) (x : Chan) (o : Nat) : (s.setChan c x).svc? o = s.svc? o := rfl
@[simp] theorem State.setChan_qp (s : State) (c : Nat) (x : Chan) (o : Nat) : (s.setChan c x).qp? o = s.qp? o := rfl
@[simp] theorem State.setChan_sub (s : State) (c : Nat) (x : Chan) (o : Nat) : (s.setChan c x).sub o = s.sub o := rfl
@[simp] theorem State.setChan_port (s : State) (c : Nat) (x : Chan) (o : Nat) : (s.setChan c x).port o = s.port o := rfl
@[simp] theorem State.setChan_bay (s : State) (c : Nat) (x : Chan) (o : Nat) : (s.setChan c x).bay o = s.bay o := rfl
@[simp] theorem State.setChan_grp (s : State) (c : Nat) (x : Chan) (o : Nat) : (s.setChan c x).grp o = s.grp o := rfl
@[simp] theorem State.setChan_die (s : State) (c : Nat) (x : Chan) (o : Nat) : (s.setChan c x).die o = s.die o := rfl
@[simp] theorem State.setChan_bridge (s : State) (c : Nat) (x : Chan) (o : Nat) : (s.setChan c x).bridge o = s.bridge o := rfl
@[simp] theorem State.setChan_cv (s : State) (c : Nat) (x : Chan) (o : Nat) : (s.setChan c x).cv o = s.cv o := rfl
@[simp] theorem State.setChan_part (s : State) (c : Nat) (x : Chan) (o : Nat) : (s.setChan c x).part? o = s.part? o := rfl
@[simp] theorem State.setChan_ctr (s : State) (c : Nat) (x : Chan) (o : Nat) : (s.setChan c x).ctr o = s.ctr o := rfl
@[simp] theorem State.setChan_reg (s : State) (c : Nat) (x : Chan) (b : Blk) (o : Nat) : (s.setChan c x).reg b o = s.reg b o := rfl

/-! ### setBridge -/

@[simp] theorem State.setBridge_bridge_same (s : State) (i : Nat) (x : Bridge) : (s.setBridge i x).bridge i = x := by
  simp [State.setBridge, State.bridge]
theorem State.setBridge_bridge_ne (s : State) (i : Nat) (x : Bridge) {o : Nat} (h : o ≠ i) : (s.setBridge i x).bridge o = s.bridge o := by
  simp [State.setBridge, State.bridge, tabGet_tabSet_ne _ _ _ h]
@[simp] theorem State.setBridge_pending (s : State) (i : Nat) (x : Bridge) : (s.setBridge i x).pending = s.pending := rfl
@[simp] theorem State.setBridge_tick (s : State) (i : Nat) (x : Bridge) : (s.setBridge i x).tick = s.tick := rfl
@[simp] theorem State.setBridge_free (s : State) (i : Nat) (x : Bridge) : (s.setBridge i x).free = s.free := rfl
@[simp] theorem State.setBridge_hostMem (s : State) (i : Nat) (x : Bridge) : (s.setBridge i x).hostMem = s.hostMem := rfl
@[simp] theorem State.setBridge_busOut (s : State) (i : Nat) (x : Bridge) : (s.setBridge i x).busOut = s.busOut := rfl
@[simp] theorem State.setBridge_devMem (s : State) (i : Nat) (x : Bridge) : (s.setBridge i x).devMem = s.devMem := rfl
@[simp] theorem State.setBridge_localMem (s : State) (i : Nat) (x : Bridge) : (s.setBridge i x).localMem = s.localMem := rfl
@[simp] theorem State.setBridge_acc (s : State) (i : Nat) (x : Bridge) : (s.setBridge i x).acc = s.acc := rfl
@[simp] theorem State.setBridge_accFlags (s : State) (i : Nat) (x : Bridge) : (s.setBridge i x).accFlags = s.accFlags := rfl
@[simp] theorem State.setBridge_accGen (s : State) (i : Nat) (x : Bridge) : (s.setBridge i x).accGen = s.accGen := rfl
@[simp] theorem State.setBridge_era (s : State) (i : Nat) (x : Bridge) : (s.setBridge i x).era = s.era := rfl
@[simp] theorem State.setBridge_cores (s : State) (i : Nat) (x : Bridge) : (s.setBridge i x).cores = s.cores := rfl
@[simp] theorem State.setBridge_remap (s : State) (i : Nat) (x : Bridge) : (s.setBridge i x).remap = s.remap := rfl
@[simp] theorem State.setBridge_counters (s : State) (i : Nat) (x : Bridge) : (s.setBridge i x).counters = s.counters := rfl
@[simp] theorem State.setBridge_cfg (s : State) (i : Nat) (x : Bridge) : (s.setBridge i x).cfg = s.cfg := rfl
@[simp] theorem State.setBridge_pend (s : State) (i : Nat) (x : Bridge) : (s.setBridge i x).pend = s.pend := rfl
@[simp] theorem State.setBridge_bseq (s : State) (i : Nat) (x : Bridge) : (s.setBridge i x).bseq = s.bseq := rfl
@[simp] theorem State.setBridge_wstat (s : State) (i : Nat) (x : Bridge) : (s.setBridge i x).wstat = s.wstat := rfl
@[simp] theorem State.setBridge_errcnt (s : State) (i : Nat) (x : Bridge) : (s.setBridge i x).errcnt = s.errcnt := rfl
@[simp] theorem State.setBridge_snap (s : State) (i : Nat) (x : Bridge) : (s.setBridge i x).snap = s.snap := rfl
@[simp] theorem State.setBridge_mailboxes (s : State) (i : Nat) (x : Bridge) : (s.setBridge i x).mailboxes = s.mailboxes := rfl
@[simp] theorem State.setBridge_lastMb (s : State) (i : Nat) (x : Bridge) : (s.setBridge i x).lastMb = s.lastMb := rfl
@[simp] theorem State.setBridge_compat (s : State) (i : Nat) (x : Bridge) : (s.setBridge i x).compat = s.compat := rfl
@[simp] theorem State.setBridge_bu (s : State) (i : Nat) (x : Bridge) : (s.setBridge i x).bu = s.bu := rfl
@[simp] theorem State.setBridge_power (s : State) (i : Nat) (x : Bridge) : (s.setBridge i x).power = s.power := rfl
@[simp] theorem State.setBridge_defects (s : State) (i : Nat) (x : Bridge) : (s.setBridge i x).defects = s.defects := rfl
@[simp] theorem State.setBridge_sec (s : State) (i : Nat) (x : Bridge) : (s.setBridge i x).sec = s.sec := rfl
@[simp] theorem State.setBridge_mem (s : State) (i : Nat) (x : Bridge) : (s.setBridge i x).mem = s.mem := rfl
@[simp] theorem State.setBridge_store (s : State) (i : Nat) (x : Bridge) : (s.setBridge i x).store = s.store := rfl
@[simp] theorem State.setBridge_link (s : State) (i : Nat) (x : Bridge) : (s.setBridge i x).link = s.link := rfl
@[simp] theorem State.setBridge_pewter (s : State) (i : Nat) (x : Bridge) : (s.setBridge i x).pewter = s.pewter := rfl
@[simp] theorem State.setBridge_jobs (s : State) (i : Nat) (x : Bridge) : (s.setBridge i x).jobs = s.jobs := rfl
@[simp] theorem State.setBridge_svcs (s : State) (i : Nat) (x : Bridge) : (s.setBridge i x).svcs = s.svcs := rfl
@[simp] theorem State.setBridge_xp (s : State) (i : Nat) (x : Bridge) : (s.setBridge i x).xp = s.xp := rfl
@[simp] theorem State.setBridge_subs (s : State) (i : Nat) (x : Bridge) : (s.setBridge i x).subs = s.subs := rfl
@[simp] theorem State.setBridge_ports (s : State) (i : Nat) (x : Bridge) : (s.setBridge i x).ports = s.ports := rfl
@[simp] theorem State.setBridge_bays (s : State) (i : Nat) (x : Bridge) : (s.setBridge i x).bays = s.bays := rfl
@[simp] theorem State.setBridge_groups (s : State) (i : Nat) (x : Bridge) : (s.setBridge i x).groups = s.groups := rfl
@[simp] theorem State.setBridge_dies (s : State) (i : Nat) (x : Bridge) : (s.setBridge i x).dies = s.dies := rfl
@[simp] theorem State.setBridge_con (s : State) (i : Nat) (x : Bridge) : (s.setBridge i x).con = s.con := rfl
@[simp] theorem State.setBridge_cvs (s : State) (i : Nat) (x : Bridge) : (s.setBridge i x).cvs = s.cvs := rfl
@[simp] theorem State.setBridge_mb (s : State) (i : Nat) (x : Bridge) (o : Nat) : (s.setBridge i x).mb o = s.mb o := rfl
@[simp] theorem State.setBridge_core (s : State) (i : Nat) (x : Bridge) (o : Nat) : (s.setBridge i x).core o = s.core o := rfl
@[simp] theorem State.setBridge_job (s : State) (i : Nat) (x : Bridge) (o : Nat) : (s.setBridge i x).job? o = s.job? o := rfl
@[simp] theorem State.setBridge_svc (s : State) (i : Nat) (x : Bridge) (o : Nat) : (s.setBridge i x).svc? o = s.svc? o := rfl
@[simp] theorem State.setBridge_qp (s : State) (i : Nat) (x : Bridge) (o : Nat) : (s.setBridge i x).qp? o = s.qp? o := rfl
@[simp] theorem State.setBridge_sub (s : State) (i : Nat) (x : Bridge) (o : Nat) : (s.setBridge i x).sub o = s.sub o := rfl
@[simp] theorem State.setBridge_port (s : State) (i : Nat) (x : Bridge) (o : Nat) : (s.setBridge i x).port o = s.port o := rfl
@[simp] theorem State.setBridge_bay (s : State) (i : Nat) (x : Bridge) (o : Nat) : (s.setBridge i x).bay o = s.bay o := rfl
@[simp] theorem State.setBridge_grp (s : State) (i : Nat) (x : Bridge) (o : Nat) : (s.setBridge i x).grp o = s.grp o := rfl
@[simp] theorem State.setBridge_die (s : State) (i : Nat) (x : Bridge) (o : Nat) : (s.setBridge i x).die o = s.die o := rfl
@[simp] theorem State.setBridge_chan (s : State) (i : Nat) (x : Bridge) (o : Nat) : (s.setBridge i x).chan o = s.chan o := rfl
@[simp] theorem State.setBridge_cv (s : State) (i : Nat) (x : Bridge) (o : Nat) : (s.setBridge i x).cv o = s.cv o := rfl
@[simp] theorem State.setBridge_part (s : State) (i : Nat) (x : Bridge) (o : Nat) : (s.setBridge i x).part? o = s.part? o := rfl
@[simp] theorem State.setBridge_ctr (s : State) (i : Nat) (x : Bridge) (o : Nat) : (s.setBridge i x).ctr o = s.ctr o := rfl
@[simp] theorem State.setBridge_reg (s : State) (i : Nat) (x : Bridge) (b : Blk) (o : Nat) : (s.setBridge i x).reg b o = s.reg b o := rfl

/-! ### setCv -/

@[simp] theorem State.setCv_cv_same (s : State) (c : Nat) (x : Cv) : (s.setCv c x).cv c = x := by
  simp [State.setCv, State.cv]
theorem State.setCv_cv_ne (s : State) (c : Nat) (x : Cv) {o : Nat} (h : o ≠ c) : (s.setCv c x).cv o = s.cv o := by
  simp [State.setCv, State.cv, tabGet_tabSet_ne _ _ _ h]
@[simp] theorem State.setCv_pending (s : State) (c : Nat) (x : Cv) : (s.setCv c x).pending = s.pending := rfl
@[simp] theorem State.setCv_tick (s : State) (c : Nat) (x : Cv) : (s.setCv c x).tick = s.tick := rfl
@[simp] theorem State.setCv_free (s : State) (c : Nat) (x : Cv) : (s.setCv c x).free = s.free := rfl
@[simp] theorem State.setCv_hostMem (s : State) (c : Nat) (x : Cv) : (s.setCv c x).hostMem = s.hostMem := rfl
@[simp] theorem State.setCv_busOut (s : State) (c : Nat) (x : Cv) : (s.setCv c x).busOut = s.busOut := rfl
@[simp] theorem State.setCv_devMem (s : State) (c : Nat) (x : Cv) : (s.setCv c x).devMem = s.devMem := rfl
@[simp] theorem State.setCv_localMem (s : State) (c : Nat) (x : Cv) : (s.setCv c x).localMem = s.localMem := rfl
@[simp] theorem State.setCv_acc (s : State) (c : Nat) (x : Cv) : (s.setCv c x).acc = s.acc := rfl
@[simp] theorem State.setCv_accFlags (s : State) (c : Nat) (x : Cv) : (s.setCv c x).accFlags = s.accFlags := rfl
@[simp] theorem State.setCv_accGen (s : State) (c : Nat) (x : Cv) : (s.setCv c x).accGen = s.accGen := rfl
@[simp] theorem State.setCv_era (s : State) (c : Nat) (x : Cv) : (s.setCv c x).era = s.era := rfl
@[simp] theorem State.setCv_cores (s : State) (c : Nat) (x : Cv) : (s.setCv c x).cores = s.cores := rfl
@[simp] theorem State.setCv_remap (s : State) (c : Nat) (x : Cv) : (s.setCv c x).remap = s.remap := rfl
@[simp] theorem State.setCv_counters (s : State) (c : Nat) (x : Cv) : (s.setCv c x).counters = s.counters := rfl
@[simp] theorem State.setCv_cfg (s : State) (c : Nat) (x : Cv) : (s.setCv c x).cfg = s.cfg := rfl
@[simp] theorem State.setCv_pend (s : State) (c : Nat) (x : Cv) : (s.setCv c x).pend = s.pend := rfl
@[simp] theorem State.setCv_bseq (s : State) (c : Nat) (x : Cv) : (s.setCv c x).bseq = s.bseq := rfl
@[simp] theorem State.setCv_wstat (s : State) (c : Nat) (x : Cv) : (s.setCv c x).wstat = s.wstat := rfl
@[simp] theorem State.setCv_errcnt (s : State) (c : Nat) (x : Cv) : (s.setCv c x).errcnt = s.errcnt := rfl
@[simp] theorem State.setCv_snap (s : State) (c : Nat) (x : Cv) : (s.setCv c x).snap = s.snap := rfl
@[simp] theorem State.setCv_mailboxes (s : State) (c : Nat) (x : Cv) : (s.setCv c x).mailboxes = s.mailboxes := rfl
@[simp] theorem State.setCv_lastMb (s : State) (c : Nat) (x : Cv) : (s.setCv c x).lastMb = s.lastMb := rfl
@[simp] theorem State.setCv_compat (s : State) (c : Nat) (x : Cv) : (s.setCv c x).compat = s.compat := rfl
@[simp] theorem State.setCv_bu (s : State) (c : Nat) (x : Cv) : (s.setCv c x).bu = s.bu := rfl
@[simp] theorem State.setCv_power (s : State) (c : Nat) (x : Cv) : (s.setCv c x).power = s.power := rfl
@[simp] theorem State.setCv_defects (s : State) (c : Nat) (x : Cv) : (s.setCv c x).defects = s.defects := rfl
@[simp] theorem State.setCv_sec (s : State) (c : Nat) (x : Cv) : (s.setCv c x).sec = s.sec := rfl
@[simp] theorem State.setCv_mem (s : State) (c : Nat) (x : Cv) : (s.setCv c x).mem = s.mem := rfl
@[simp] theorem State.setCv_store (s : State) (c : Nat) (x : Cv) : (s.setCv c x).store = s.store := rfl
@[simp] theorem State.setCv_link (s : State) (c : Nat) (x : Cv) : (s.setCv c x).link = s.link := rfl
@[simp] theorem State.setCv_pewter (s : State) (c : Nat) (x : Cv) : (s.setCv c x).pewter = s.pewter := rfl
@[simp] theorem State.setCv_jobs (s : State) (c : Nat) (x : Cv) : (s.setCv c x).jobs = s.jobs := rfl
@[simp] theorem State.setCv_svcs (s : State) (c : Nat) (x : Cv) : (s.setCv c x).svcs = s.svcs := rfl
@[simp] theorem State.setCv_xp (s : State) (c : Nat) (x : Cv) : (s.setCv c x).xp = s.xp := rfl
@[simp] theorem State.setCv_subs (s : State) (c : Nat) (x : Cv) : (s.setCv c x).subs = s.subs := rfl
@[simp] theorem State.setCv_ports (s : State) (c : Nat) (x : Cv) : (s.setCv c x).ports = s.ports := rfl
@[simp] theorem State.setCv_bays (s : State) (c : Nat) (x : Cv) : (s.setCv c x).bays = s.bays := rfl
@[simp] theorem State.setCv_groups (s : State) (c : Nat) (x : Cv) : (s.setCv c x).groups = s.groups := rfl
@[simp] theorem State.setCv_dies (s : State) (c : Nat) (x : Cv) : (s.setCv c x).dies = s.dies := rfl
@[simp] theorem State.setCv_con (s : State) (c : Nat) (x : Cv) : (s.setCv c x).con = s.con := rfl
@[simp] theorem State.setCv_inv (s : State) (c : Nat) (x : Cv) : (s.setCv c x).inv = s.inv := rfl
@[simp] theorem State.setCv_mb (s : State) (c : Nat) (x : Cv) (o : Nat) : (s.setCv c x).mb o = s.mb o := rfl
@[simp] theorem State.setCv_core (s : State) (c : Nat) (x : Cv) (o : Nat) : (s.setCv c x).core o = s.core o := rfl
@[simp] theorem State.setCv_job (s : State) (c : Nat) (x : Cv) (o : Nat) : (s.setCv c x).job? o = s.job? o := rfl
@[simp] theorem State.setCv_svc (s : State) (c : Nat) (x : Cv) (o : Nat) : (s.setCv c x).svc? o = s.svc? o := rfl
@[simp] theorem State.setCv_qp (s : State) (c : Nat) (x : Cv) (o : Nat) : (s.setCv c x).qp? o = s.qp? o := rfl
@[simp] theorem State.setCv_sub (s : State) (c : Nat) (x : Cv) (o : Nat) : (s.setCv c x).sub o = s.sub o := rfl
@[simp] theorem State.setCv_port (s : State) (c : Nat) (x : Cv) (o : Nat) : (s.setCv c x).port o = s.port o := rfl
@[simp] theorem State.setCv_bay (s : State) (c : Nat) (x : Cv) (o : Nat) : (s.setCv c x).bay o = s.bay o := rfl
@[simp] theorem State.setCv_grp (s : State) (c : Nat) (x : Cv) (o : Nat) : (s.setCv c x).grp o = s.grp o := rfl
@[simp] theorem State.setCv_die (s : State) (c : Nat) (x : Cv) (o : Nat) : (s.setCv c x).die o = s.die o := rfl
@[simp] theorem State.setCv_chan (s : State) (c : Nat) (x : Cv) (o : Nat) : (s.setCv c x).chan o = s.chan o := rfl
@[simp] theorem State.setCv_bridge (s : State) (c : Nat) (x : Cv) (o : Nat) : (s.setCv c x).bridge o = s.bridge o := rfl
@[simp] theorem State.setCv_part (s : State) (c : Nat) (x : Cv) (o : Nat) : (s.setCv c x).part? o = s.part? o := rfl
@[simp] theorem State.setCv_ctr (s : State) (c : Nat) (x : Cv) (o : Nat) : (s.setCv c x).ctr o = s.ctr o := rfl
@[simp] theorem State.setCv_reg (s : State) (c : Nat) (x : Cv) (b : Blk) (o : Nat) : (s.setCv c x).reg b o = s.reg b o := rfl

/-! ### setPart -/

@[simp] theorem State.setPart_part_same (s : State) (p : Nat) (x : Partn) : (s.setPart p x).part? p = some x := by
  simp [State.setPart, State.part?]
theorem State.setPart_part_ne (s : State) (p : Nat) (x : Partn) {o : Nat} (h : o ≠ p) : (s.setPart p x).part? o = s.part? o := by
  simp [State.setPart, State.part?, tabFind_tabSet_ne _ _ h]
@[simp] theorem State.setPart_pending (s : State) (p : Nat) (x : Partn) : (s.setPart p x).pending = s.pending := rfl
@[simp] theorem State.setPart_tick (s : State) (p : Nat) (x : Partn) : (s.setPart p x).tick = s.tick := rfl
@[simp] theorem State.setPart_free (s : State) (p : Nat) (x : Partn) : (s.setPart p x).free = s.free := rfl
@[simp] theorem State.setPart_hostMem (s : State) (p : Nat) (x : Partn) : (s.setPart p x).hostMem = s.hostMem := rfl
@[simp] theorem State.setPart_busOut (s : State) (p : Nat) (x : Partn) : (s.setPart p x).busOut = s.busOut := rfl
@[simp] theorem State.setPart_devMem (s : State) (p : Nat) (x : Partn) : (s.setPart p x).devMem = s.devMem := rfl
@[simp] theorem State.setPart_localMem (s : State) (p : Nat) (x : Partn) : (s.setPart p x).localMem = s.localMem := rfl
@[simp] theorem State.setPart_acc (s : State) (p : Nat) (x : Partn) : (s.setPart p x).acc = s.acc := rfl
@[simp] theorem State.setPart_accFlags (s : State) (p : Nat) (x : Partn) : (s.setPart p x).accFlags = s.accFlags := rfl
@[simp] theorem State.setPart_accGen (s : State) (p : Nat) (x : Partn) : (s.setPart p x).accGen = s.accGen := rfl
@[simp] theorem State.setPart_era (s : State) (p : Nat) (x : Partn) : (s.setPart p x).era = s.era := rfl
@[simp] theorem State.setPart_cores (s : State) (p : Nat) (x : Partn) : (s.setPart p x).cores = s.cores := rfl
@[simp] theorem State.setPart_remap (s : State) (p : Nat) (x : Partn) : (s.setPart p x).remap = s.remap := rfl
@[simp] theorem State.setPart_counters (s : State) (p : Nat) (x : Partn) : (s.setPart p x).counters = s.counters := rfl
@[simp] theorem State.setPart_cfg (s : State) (p : Nat) (x : Partn) : (s.setPart p x).cfg = s.cfg := rfl
@[simp] theorem State.setPart_pend (s : State) (p : Nat) (x : Partn) : (s.setPart p x).pend = s.pend := rfl
@[simp] theorem State.setPart_bseq (s : State) (p : Nat) (x : Partn) : (s.setPart p x).bseq = s.bseq := rfl
@[simp] theorem State.setPart_wstat (s : State) (p : Nat) (x : Partn) : (s.setPart p x).wstat = s.wstat := rfl
@[simp] theorem State.setPart_errcnt (s : State) (p : Nat) (x : Partn) : (s.setPart p x).errcnt = s.errcnt := rfl
@[simp] theorem State.setPart_snap (s : State) (p : Nat) (x : Partn) : (s.setPart p x).snap = s.snap := rfl
@[simp] theorem State.setPart_mailboxes (s : State) (p : Nat) (x : Partn) : (s.setPart p x).mailboxes = s.mailboxes := rfl
@[simp] theorem State.setPart_lastMb (s : State) (p : Nat) (x : Partn) : (s.setPart p x).lastMb = s.lastMb := rfl
@[simp] theorem State.setPart_compat (s : State) (p : Nat) (x : Partn) : (s.setPart p x).compat = s.compat := rfl
@[simp] theorem State.setPart_bu (s : State) (p : Nat) (x : Partn) : (s.setPart p x).bu = s.bu := rfl
@[simp] theorem State.setPart_power (s : State) (p : Nat) (x : Partn) : (s.setPart p x).power = s.power := rfl
@[simp] theorem State.setPart_defects (s : State) (p : Nat) (x : Partn) : (s.setPart p x).defects = s.defects := rfl
@[simp] theorem State.setPart_mem (s : State) (p : Nat) (x : Partn) : (s.setPart p x).mem = s.mem := rfl
@[simp] theorem State.setPart_store (s : State) (p : Nat) (x : Partn) : (s.setPart p x).store = s.store := rfl
@[simp] theorem State.setPart_link (s : State) (p : Nat) (x : Partn) : (s.setPart p x).link = s.link := rfl
@[simp] theorem State.setPart_pewter (s : State) (p : Nat) (x : Partn) : (s.setPart p x).pewter = s.pewter := rfl
@[simp] theorem State.setPart_jobs (s : State) (p : Nat) (x : Partn) : (s.setPart p x).jobs = s.jobs := rfl
@[simp] theorem State.setPart_svcs (s : State) (p : Nat) (x : Partn) : (s.setPart p x).svcs = s.svcs := rfl
@[simp] theorem State.setPart_xp (s : State) (p : Nat) (x : Partn) : (s.setPart p x).xp = s.xp := rfl
@[simp] theorem State.setPart_subs (s : State) (p : Nat) (x : Partn) : (s.setPart p x).subs = s.subs := rfl
@[simp] theorem State.setPart_ports (s : State) (p : Nat) (x : Partn) : (s.setPart p x).ports = s.ports := rfl
@[simp] theorem State.setPart_bays (s : State) (p : Nat) (x : Partn) : (s.setPart p x).bays = s.bays := rfl
@[simp] theorem State.setPart_groups (s : State) (p : Nat) (x : Partn) : (s.setPart p x).groups = s.groups := rfl
@[simp] theorem State.setPart_dies (s : State) (p : Nat) (x : Partn) : (s.setPart p x).dies = s.dies := rfl
@[simp] theorem State.setPart_con (s : State) (p : Nat) (x : Partn) : (s.setPart p x).con = s.con := rfl
@[simp] theorem State.setPart_inv (s : State) (p : Nat) (x : Partn) : (s.setPart p x).inv = s.inv := rfl
@[simp] theorem State.setPart_cvs (s : State) (p : Nat) (x : Partn) : (s.setPart p x).cvs = s.cvs := rfl
@[simp] theorem State.setPart_mb (s : State) (p : Nat) (x : Partn) (o : Nat) : (s.setPart p x).mb o = s.mb o := rfl
@[simp] theorem State.setPart_core (s : State) (p : Nat) (x : Partn) (o : Nat) : (s.setPart p x).core o = s.core o := rfl
@[simp] theorem State.setPart_job (s : State) (p : Nat) (x : Partn) (o : Nat) : (s.setPart p x).job? o = s.job? o := rfl
@[simp] theorem State.setPart_svc (s : State) (p : Nat) (x : Partn) (o : Nat) : (s.setPart p x).svc? o = s.svc? o := rfl
@[simp] theorem State.setPart_qp (s : State) (p : Nat) (x : Partn) (o : Nat) : (s.setPart p x).qp? o = s.qp? o := rfl
@[simp] theorem State.setPart_sub (s : State) (p : Nat) (x : Partn) (o : Nat) : (s.setPart p x).sub o = s.sub o := rfl
@[simp] theorem State.setPart_port (s : State) (p : Nat) (x : Partn) (o : Nat) : (s.setPart p x).port o = s.port o := rfl
@[simp] theorem State.setPart_bay (s : State) (p : Nat) (x : Partn) (o : Nat) : (s.setPart p x).bay o = s.bay o := rfl
@[simp] theorem State.setPart_grp (s : State) (p : Nat) (x : Partn) (o : Nat) : (s.setPart p x).grp o = s.grp o := rfl
@[simp] theorem State.setPart_die (s : State) (p : Nat) (x : Partn) (o : Nat) : (s.setPart p x).die o = s.die o := rfl
@[simp] theorem State.setPart_chan (s : State) (p : Nat) (x : Partn) (o : Nat) : (s.setPart p x).chan o = s.chan o := rfl
@[simp] theorem State.setPart_bridge (s : State) (p : Nat) (x : Partn) (o : Nat) : (s.setPart p x).bridge o = s.bridge o := rfl
@[simp] theorem State.setPart_cv (s : State) (p : Nat) (x : Partn) (o : Nat) : (s.setPart p x).cv o = s.cv o := rfl
@[simp] theorem State.setPart_ctr (s : State) (p : Nat) (x : Partn) (o : Nat) : (s.setPart p x).ctr o = s.ctr o := rfl
@[simp] theorem State.setPart_reg (s : State) (p : Nat) (x : Partn) (b : Blk) (o : Nat) : (s.setPart p x).reg b o = s.reg b o := rfl

/-! ### setCtr -/

@[simp] theorem State.setCtr_ctr_same (s : State) (c : Nat) (v : BitVec 64) : (s.setCtr c v).ctr c = v := by
  simp [State.setCtr, State.ctr]
theorem State.setCtr_ctr_ne (s : State) (c : Nat) (v : BitVec 64) {o : Nat} (h : o ≠ c) : (s.setCtr c v).ctr o = s.ctr o := by
  simp [State.setCtr, State.ctr, tabGet_tabSet_ne _ _ _ h]
@[simp] theorem State.setCtr_pending (s : State) (c : Nat) (v : BitVec 64) : (s.setCtr c v).pending = s.pending := rfl
@[simp] theorem State.setCtr_tick (s : State) (c : Nat) (v : BitVec 64) : (s.setCtr c v).tick = s.tick := rfl
@[simp] theorem State.setCtr_free (s : State) (c : Nat) (v : BitVec 64) : (s.setCtr c v).free = s.free := rfl
@[simp] theorem State.setCtr_hostMem (s : State) (c : Nat) (v : BitVec 64) : (s.setCtr c v).hostMem = s.hostMem := rfl
@[simp] theorem State.setCtr_busOut (s : State) (c : Nat) (v : BitVec 64) : (s.setCtr c v).busOut = s.busOut := rfl
@[simp] theorem State.setCtr_devMem (s : State) (c : Nat) (v : BitVec 64) : (s.setCtr c v).devMem = s.devMem := rfl
@[simp] theorem State.setCtr_localMem (s : State) (c : Nat) (v : BitVec 64) : (s.setCtr c v).localMem = s.localMem := rfl
@[simp] theorem State.setCtr_acc (s : State) (c : Nat) (v : BitVec 64) : (s.setCtr c v).acc = s.acc := rfl
@[simp] theorem State.setCtr_accFlags (s : State) (c : Nat) (v : BitVec 64) : (s.setCtr c v).accFlags = s.accFlags := rfl
@[simp] theorem State.setCtr_accGen (s : State) (c : Nat) (v : BitVec 64) : (s.setCtr c v).accGen = s.accGen := rfl
@[simp] theorem State.setCtr_era (s : State) (c : Nat) (v : BitVec 64) : (s.setCtr c v).era = s.era := rfl
@[simp] theorem State.setCtr_cores (s : State) (c : Nat) (v : BitVec 64) : (s.setCtr c v).cores = s.cores := rfl
@[simp] theorem State.setCtr_remap (s : State) (c : Nat) (v : BitVec 64) : (s.setCtr c v).remap = s.remap := rfl
@[simp] theorem State.setCtr_cfg (s : State) (c : Nat) (v : BitVec 64) : (s.setCtr c v).cfg = s.cfg := rfl
@[simp] theorem State.setCtr_pend (s : State) (c : Nat) (v : BitVec 64) : (s.setCtr c v).pend = s.pend := rfl
@[simp] theorem State.setCtr_bseq (s : State) (c : Nat) (v : BitVec 64) : (s.setCtr c v).bseq = s.bseq := rfl
@[simp] theorem State.setCtr_wstat (s : State) (c : Nat) (v : BitVec 64) : (s.setCtr c v).wstat = s.wstat := rfl
@[simp] theorem State.setCtr_errcnt (s : State) (c : Nat) (v : BitVec 64) : (s.setCtr c v).errcnt = s.errcnt := rfl
@[simp] theorem State.setCtr_snap (s : State) (c : Nat) (v : BitVec 64) : (s.setCtr c v).snap = s.snap := rfl
@[simp] theorem State.setCtr_mailboxes (s : State) (c : Nat) (v : BitVec 64) : (s.setCtr c v).mailboxes = s.mailboxes := rfl
@[simp] theorem State.setCtr_lastMb (s : State) (c : Nat) (v : BitVec 64) : (s.setCtr c v).lastMb = s.lastMb := rfl
@[simp] theorem State.setCtr_compat (s : State) (c : Nat) (v : BitVec 64) : (s.setCtr c v).compat = s.compat := rfl
@[simp] theorem State.setCtr_bu (s : State) (c : Nat) (v : BitVec 64) : (s.setCtr c v).bu = s.bu := rfl
@[simp] theorem State.setCtr_power (s : State) (c : Nat) (v : BitVec 64) : (s.setCtr c v).power = s.power := rfl
@[simp] theorem State.setCtr_defects (s : State) (c : Nat) (v : BitVec 64) : (s.setCtr c v).defects = s.defects := rfl
@[simp] theorem State.setCtr_sec (s : State) (c : Nat) (v : BitVec 64) : (s.setCtr c v).sec = s.sec := rfl
@[simp] theorem State.setCtr_mem (s : State) (c : Nat) (v : BitVec 64) : (s.setCtr c v).mem = s.mem := rfl
@[simp] theorem State.setCtr_store (s : State) (c : Nat) (v : BitVec 64) : (s.setCtr c v).store = s.store := rfl
@[simp] theorem State.setCtr_link (s : State) (c : Nat) (v : BitVec 64) : (s.setCtr c v).link = s.link := rfl
@[simp] theorem State.setCtr_pewter (s : State) (c : Nat) (v : BitVec 64) : (s.setCtr c v).pewter = s.pewter := rfl
@[simp] theorem State.setCtr_jobs (s : State) (c : Nat) (v : BitVec 64) : (s.setCtr c v).jobs = s.jobs := rfl
@[simp] theorem State.setCtr_svcs (s : State) (c : Nat) (v : BitVec 64) : (s.setCtr c v).svcs = s.svcs := rfl
@[simp] theorem State.setCtr_xp (s : State) (c : Nat) (v : BitVec 64) : (s.setCtr c v).xp = s.xp := rfl
@[simp] theorem State.setCtr_subs (s : State) (c : Nat) (v : BitVec 64) : (s.setCtr c v).subs = s.subs := rfl
@[simp] theorem State.setCtr_ports (s : State) (c : Nat) (v : BitVec 64) : (s.setCtr c v).ports = s.ports := rfl
@[simp] theorem State.setCtr_bays (s : State) (c : Nat) (v : BitVec 64) : (s.setCtr c v).bays = s.bays := rfl
@[simp] theorem State.setCtr_groups (s : State) (c : Nat) (v : BitVec 64) : (s.setCtr c v).groups = s.groups := rfl
@[simp] theorem State.setCtr_dies (s : State) (c : Nat) (v : BitVec 64) : (s.setCtr c v).dies = s.dies := rfl
@[simp] theorem State.setCtr_con (s : State) (c : Nat) (v : BitVec 64) : (s.setCtr c v).con = s.con := rfl
@[simp] theorem State.setCtr_inv (s : State) (c : Nat) (v : BitVec 64) : (s.setCtr c v).inv = s.inv := rfl
@[simp] theorem State.setCtr_cvs (s : State) (c : Nat) (v : BitVec 64) : (s.setCtr c v).cvs = s.cvs := rfl
@[simp] theorem State.setCtr_mb (s : State) (c : Nat) (v : BitVec 64) (o : Nat) : (s.setCtr c v).mb o = s.mb o := rfl
@[simp] theorem State.setCtr_core (s : State) (c : Nat) (v : BitVec 64) (o : Nat) : (s.setCtr c v).core o = s.core o := rfl
@[simp] theorem State.setCtr_job (s : State) (c : Nat) (v : BitVec 64) (o : Nat) : (s.setCtr c v).job? o = s.job? o := rfl
@[simp] theorem State.setCtr_svc (s : State) (c : Nat) (v : BitVec 64) (o : Nat) : (s.setCtr c v).svc? o = s.svc? o := rfl
@[simp] theorem State.setCtr_qp (s : State) (c : Nat) (v : BitVec 64) (o : Nat) : (s.setCtr c v).qp? o = s.qp? o := rfl
@[simp] theorem State.setCtr_sub (s : State) (c : Nat) (v : BitVec 64) (o : Nat) : (s.setCtr c v).sub o = s.sub o := rfl
@[simp] theorem State.setCtr_port (s : State) (c : Nat) (v : BitVec 64) (o : Nat) : (s.setCtr c v).port o = s.port o := rfl
@[simp] theorem State.setCtr_bay (s : State) (c : Nat) (v : BitVec 64) (o : Nat) : (s.setCtr c v).bay o = s.bay o := rfl
@[simp] theorem State.setCtr_grp (s : State) (c : Nat) (v : BitVec 64) (o : Nat) : (s.setCtr c v).grp o = s.grp o := rfl
@[simp] theorem State.setCtr_die (s : State) (c : Nat) (v : BitVec 64) (o : Nat) : (s.setCtr c v).die o = s.die o := rfl
@[simp] theorem State.setCtr_chan (s : State) (c : Nat) (v : BitVec 64) (o : Nat) : (s.setCtr c v).chan o = s.chan o := rfl
@[simp] theorem State.setCtr_bridge (s : State) (c : Nat) (v : BitVec 64) (o : Nat) : (s.setCtr c v).bridge o = s.bridge o := rfl
@[simp] theorem State.setCtr_cv (s : State) (c : Nat) (v : BitVec 64) (o : Nat) : (s.setCtr c v).cv o = s.cv o := rfl
@[simp] theorem State.setCtr_part (s : State) (c : Nat) (v : BitVec 64) (o : Nat) : (s.setCtr c v).part? o = s.part? o := rfl
@[simp] theorem State.setCtr_reg (s : State) (c : Nat) (v : BitVec 64) (b : Blk) (o : Nat) : (s.setCtr c v).reg b o = s.reg b o := rfl

/-! ### setReg -/

@[simp] theorem State.setReg_reg_same (s : State) (b : Blk) (off : Nat) (v : Word) : (s.setReg b off v).reg b off = v := by
  simp [State.setReg, State.reg]
@[simp] theorem State.setReg_pending (s : State) (b : Blk) (off : Nat) (v : Word) : (s.setReg b off v).pending = s.pending := rfl
@[simp] theorem State.setReg_tick (s : State) (b : Blk) (off : Nat) (v : Word) : (s.setReg b off v).tick = s.tick := rfl
@[simp] theorem State.setReg_free (s : State) (b : Blk) (off : Nat) (v : Word) : (s.setReg b off v).free = s.free := rfl
@[simp] theorem State.setReg_hostMem (s : State) (b : Blk) (off : Nat) (v : Word) : (s.setReg b off v).hostMem = s.hostMem := rfl
@[simp] theorem State.setReg_busOut (s : State) (b : Blk) (off : Nat) (v : Word) : (s.setReg b off v).busOut = s.busOut := rfl
@[simp] theorem State.setReg_devMem (s : State) (b : Blk) (off : Nat) (v : Word) : (s.setReg b off v).devMem = s.devMem := rfl
@[simp] theorem State.setReg_localMem (s : State) (b : Blk) (off : Nat) (v : Word) : (s.setReg b off v).localMem = s.localMem := rfl
@[simp] theorem State.setReg_acc (s : State) (b : Blk) (off : Nat) (v : Word) : (s.setReg b off v).acc = s.acc := rfl
@[simp] theorem State.setReg_accFlags (s : State) (b : Blk) (off : Nat) (v : Word) : (s.setReg b off v).accFlags = s.accFlags := rfl
@[simp] theorem State.setReg_accGen (s : State) (b : Blk) (off : Nat) (v : Word) : (s.setReg b off v).accGen = s.accGen := rfl
@[simp] theorem State.setReg_era (s : State) (b : Blk) (off : Nat) (v : Word) : (s.setReg b off v).era = s.era := rfl
@[simp] theorem State.setReg_cores (s : State) (b : Blk) (off : Nat) (v : Word) : (s.setReg b off v).cores = s.cores := rfl
@[simp] theorem State.setReg_remap (s : State) (b : Blk) (off : Nat) (v : Word) : (s.setReg b off v).remap = s.remap := rfl
@[simp] theorem State.setReg_counters (s : State) (b : Blk) (off : Nat) (v : Word) : (s.setReg b off v).counters = s.counters := rfl
@[simp] theorem State.setReg_pend (s : State) (b : Blk) (off : Nat) (v : Word) : (s.setReg b off v).pend = s.pend := rfl
@[simp] theorem State.setReg_bseq (s : State) (b : Blk) (off : Nat) (v : Word) : (s.setReg b off v).bseq = s.bseq := rfl
@[simp] theorem State.setReg_wstat (s : State) (b : Blk) (off : Nat) (v : Word) : (s.setReg b off v).wstat = s.wstat := rfl
@[simp] theorem State.setReg_errcnt (s : State) (b : Blk) (off : Nat) (v : Word) : (s.setReg b off v).errcnt = s.errcnt := rfl
@[simp] theorem State.setReg_snap (s : State) (b : Blk) (off : Nat) (v : Word) : (s.setReg b off v).snap = s.snap := rfl
@[simp] theorem State.setReg_mailboxes (s : State) (b : Blk) (off : Nat) (v : Word) : (s.setReg b off v).mailboxes = s.mailboxes := rfl
@[simp] theorem State.setReg_lastMb (s : State) (b : Blk) (off : Nat) (v : Word) : (s.setReg b off v).lastMb = s.lastMb := rfl
@[simp] theorem State.setReg_compat (s : State) (b : Blk) (off : Nat) (v : Word) : (s.setReg b off v).compat = s.compat := rfl
@[simp] theorem State.setReg_bu (s : State) (b : Blk) (off : Nat) (v : Word) : (s.setReg b off v).bu = s.bu := rfl
@[simp] theorem State.setReg_power (s : State) (b : Blk) (off : Nat) (v : Word) : (s.setReg b off v).power = s.power := rfl
@[simp] theorem State.setReg_defects (s : State) (b : Blk) (off : Nat) (v : Word) : (s.setReg b off v).defects = s.defects := rfl
@[simp] theorem State.setReg_sec (s : State) (b : Blk) (off : Nat) (v : Word) : (s.setReg b off v).sec = s.sec := rfl
@[simp] theorem State.setReg_mem (s : State) (b : Blk) (off : Nat) (v : Word) : (s.setReg b off v).mem = s.mem := rfl
@[simp] theorem State.setReg_store (s : State) (b : Blk) (off : Nat) (v : Word) : (s.setReg b off v).store = s.store := rfl
@[simp] theorem State.setReg_link (s : State) (b : Blk) (off : Nat) (v : Word) : (s.setReg b off v).link = s.link := rfl
@[simp] theorem State.setReg_pewter (s : State) (b : Blk) (off : Nat) (v : Word) : (s.setReg b off v).pewter = s.pewter := rfl
@[simp] theorem State.setReg_jobs (s : State) (b : Blk) (off : Nat) (v : Word) : (s.setReg b off v).jobs = s.jobs := rfl
@[simp] theorem State.setReg_svcs (s : State) (b : Blk) (off : Nat) (v : Word) : (s.setReg b off v).svcs = s.svcs := rfl
@[simp] theorem State.setReg_xp (s : State) (b : Blk) (off : Nat) (v : Word) : (s.setReg b off v).xp = s.xp := rfl
@[simp] theorem State.setReg_subs (s : State) (b : Blk) (off : Nat) (v : Word) : (s.setReg b off v).subs = s.subs := rfl
@[simp] theorem State.setReg_ports (s : State) (b : Blk) (off : Nat) (v : Word) : (s.setReg b off v).ports = s.ports := rfl
@[simp] theorem State.setReg_bays (s : State) (b : Blk) (off : Nat) (v : Word) : (s.setReg b off v).bays = s.bays := rfl
@[simp] theorem State.setReg_groups (s : State) (b : Blk) (off : Nat) (v : Word) : (s.setReg b off v).groups = s.groups := rfl
@[simp] theorem State.setReg_dies (s : State) (b : Blk) (off : Nat) (v : Word) : (s.setReg b off v).dies = s.dies := rfl
@[simp] theorem State.setReg_con (s : State) (b : Blk) (off : Nat) (v : Word) : (s.setReg b off v).con = s.con := rfl
@[simp] theorem State.setReg_inv (s : State) (b : Blk) (off : Nat) (v : Word) : (s.setReg b off v).inv = s.inv := rfl
@[simp] theorem State.setReg_cvs (s : State) (b : Blk) (off : Nat) (v : Word) : (s.setReg b off v).cvs = s.cvs := rfl
@[simp] theorem State.setReg_mb (s : State) (b : Blk) (off : Nat) (v : Word) (o : Nat) : (s.setReg b off v).mb o = s.mb o := rfl
@[simp] theorem State.setReg_core (s : State) (b : Blk) (off : Nat) (v : Word) (o : Nat) : (s.setReg b off v).core o = s.core o := rfl
@[simp] theorem State.setReg_job (s : State) (b : Blk) (off : Nat) (v : Word) (o : Nat) : (s.setReg b off v).job? o = s.job? o := rfl
@[simp] theorem State.setReg_svc (s : State) (b : Blk) (off : Nat) (v : Word) (o : Nat) : (s.setReg b off v).svc? o = s.svc? o := rfl
@[simp] theorem State.setReg_qp (s : State) (b : Blk) (off : Nat) (v : Word) (o : Nat) : (s.setReg b off v).qp? o = s.qp? o := rfl
@[simp] theorem State.setReg_sub (s : State) (b : Blk) (off : Nat) (v : Word) (o : Nat) : (s.setReg b off v).sub o = s.sub o := rfl
@[simp] theorem State.setReg_port (s : State) (b : Blk) (off : Nat) (v : Word) (o : Nat) : (s.setReg b off v).port o = s.port o := rfl
@[simp] theorem State.setReg_bay (s : State) (b : Blk) (off : Nat) (v : Word) (o : Nat) : (s.setReg b off v).bay o = s.bay o := rfl
@[simp] theorem State.setReg_grp (s : State) (b : Blk) (off : Nat) (v : Word) (o : Nat) : (s.setReg b off v).grp o = s.grp o := rfl
@[simp] theorem State.setReg_die (s : State) (b : Blk) (off : Nat) (v : Word) (o : Nat) : (s.setReg b off v).die o = s.die o := rfl
@[simp] theorem State.setReg_chan (s : State) (b : Blk) (off : Nat) (v : Word) (o : Nat) : (s.setReg b off v).chan o = s.chan o := rfl
@[simp] theorem State.setReg_bridge (s : State) (b : Blk) (off : Nat) (v : Word) (o : Nat) : (s.setReg b off v).bridge o = s.bridge o := rfl
@[simp] theorem State.setReg_cv (s : State) (b : Blk) (off : Nat) (v : Word) (o : Nat) : (s.setReg b off v).cv o = s.cv o := rfl
@[simp] theorem State.setReg_part (s : State) (b : Blk) (off : Nat) (v : Word) (o : Nat) : (s.setReg b off v).part? o = s.part? o := rfl
@[simp] theorem State.setReg_ctr (s : State) (b : Blk) (off : Nat) (v : Word) (o : Nat) : (s.setReg b off v).ctr o = s.ctr o := rfl

/-- What every round of a fold keeps, the fold keeps. -/
theorem foldl_keeps {σ α β : Type} (g : σ → β) (f : σ → α → σ) (s : σ) (l : List α)
    (h : ∀ t a, g (f t a) = g t) : g (l.foldl f s) = g s := by
  induction l generalizing s with
  | nil => rfl
  | cons a l ih => rw [List.foldl_cons, ih, h]

end Sys2Proof.Machine
end

