-- ==== Sys2Proof/Laws/Mailbox.lean ====
section
/-! SUPPORT. What the shared operations of the mailboxes leave unchanged, and what a request at the front of a
mailbox leads to. -/

namespace Sys2Proof.Machine
set_option Elab.async false

/-! ### msi -/

@[simp] theorem State.msi_pending (s : State) (v : Nat) : (s.msi v).pending = s.pending := by
  unfold State.msi; (repeat' split) <;> rfl
@[simp] theorem State.msi_tick (s : State) (v : Nat) : (s.msi v).tick = s.tick := by
  unfold State.msi; (repeat' split) <;> rfl
@[simp] theorem State.msi_free (s : State) (v : Nat) : (s.msi v).free = s.free := by
  unfold State.msi; (repeat' split) <;> rfl
@[simp] theorem State.msi_hostMem (s : State) (v : Nat) : (s.msi v).hostMem = s.hostMem := by
  unfold State.msi; (repeat' split) <;> rfl
@[simp] theorem State.msi_busOut (s : State) (v : Nat) : (s.msi v).busOut = s.busOut := by
  unfold State.msi; (repeat' split) <;> rfl
@[simp] theorem State.msi_devMem (s : State) (v : Nat) : (s.msi v).devMem = s.devMem := by
  unfold State.msi; (repeat' split) <;> rfl
@[simp] theorem State.msi_localMem (s : State) (v : Nat) : (s.msi v).localMem = s.localMem := by
  unfold State.msi; (repeat' split) <;> rfl
@[simp] theorem State.msi_acc (s : State) (v : Nat) : (s.msi v).acc = s.acc := by
  unfold State.msi; (repeat' split) <;> rfl
@[simp] theorem State.msi_accFlags (s : State) (v : Nat) : (s.msi v).accFlags = s.accFlags := by
  unfold State.msi; (repeat' split) <;> rfl
@[simp] theorem State.msi_accGen (s : State) (v : Nat) : (s.msi v).accGen = s.accGen := by
  unfold State.msi; (repeat' split) <;> rfl
@[simp] theorem State.msi_era (s : State) (v : Nat) : (s.msi v).era = s.era := by
  unfold State.msi; (repeat' split) <;> rfl
@[simp] theorem State.msi_cores (s : State) (v : Nat) : (s.msi v).cores = s.cores := by
  unfold State.msi; (repeat' split) <;> rfl
@[simp] theorem State.msi_remap (s : State) (v : Nat) : (s.msi v).remap = s.remap := by
  unfold State.msi; (repeat' split) <;> rfl
@[simp] theorem State.msi_counters (s : State) (v : Nat) : (s.msi v).counters = s.counters := by
  unfold State.msi; (repeat' split) <;> rfl
@[simp] theorem State.msi_cfg (s : State) (v : Nat) : (s.msi v).cfg = s.cfg := by
  unfold State.msi; (repeat' split) <;> rfl
@[simp] theorem State.msi_pend (s : State) (v : Nat) : (s.msi v).pend = s.pend := by
  unfold State.msi; (repeat' split) <;> rfl
@[simp] theorem State.msi_bseq (s : State) (v : Nat) : (s.msi v).bseq = s.bseq := by
  unfold State.msi; (repeat' split) <;> rfl
@[simp] theorem State.msi_wstat (s : State) (v : Nat) : (s.msi v).wstat = s.wstat := by
  unfold State.msi; (repeat' split) <;> rfl
@[simp] theorem State.msi_errcnt (s : State) (v : Nat) : (s.msi v).errcnt = s.errcnt := by
  unfold State.msi; (repeat' split) <;> rfl
@[simp] theorem State.msi_snap (s : State) (v : Nat) : (s.msi v).snap = s.snap := by
  unfold State.msi; (repeat' split) <;> rfl
@[simp] theorem State.msi_mailboxes (s : State) (v : Nat) : (s.msi v).mailboxes = s.mailboxes := by
  unfold State.msi; (repeat' split) <;> rfl
@[simp] theorem State.msi_lastMb (s : State) (v : Nat) : (s.msi v).lastMb = s.lastMb := by
  unfold State.msi; (repeat' split) <;> rfl
@[simp] theorem State.msi_compat (s : State) (v : Nat) : (s.msi v).compat = s.compat := by
  unfold State.msi; (repeat' split) <;> rfl
@[simp] theorem State.msi_bu (s : State) (v : Nat) : (s.msi v).bu = s.bu := by
  unfold State.msi; (repeat' split) <;> rfl
@[simp] theorem State.msi_power (s : State) (v : Nat) : (s.msi v).power = s.power := by
  unfold State.msi; (repeat' split) <;> rfl
@[simp] theorem State.msi_defects (s : State) (v : Nat) : (s.msi v).defects = s.defects := by
  unfold State.msi; (repeat' split) <;> rfl
@[simp] theorem State.msi_sec (s : State) (v : Nat) : (s.msi v).sec = s.sec := by
  unfold State.msi; (repeat' split) <;> rfl
@[simp] theorem State.msi_mem (s : State) (v : Nat) : (s.msi v).mem = s.mem := by
  unfold State.msi; (repeat' split) <;> rfl
@[simp] theorem State.msi_store (s : State) (v : Nat) : (s.msi v).store = s.store := by
  unfold State.msi; (repeat' split) <;> rfl
@[simp] theorem State.msi_pewter (s : State) (v : Nat) : (s.msi v).pewter = s.pewter := by
  unfold State.msi; (repeat' split) <;> rfl
@[simp] theorem State.msi_jobs (s : State) (v : Nat) : (s.msi v).jobs = s.jobs := by
  unfold State.msi; (repeat' split) <;> rfl
@[simp] theorem State.msi_svcs (s : State) (v : Nat) : (s.msi v).svcs = s.svcs := by
  unfold State.msi; (repeat' split) <;> rfl
@[simp] theorem State.msi_xp (s : State) (v : Nat) : (s.msi v).xp = s.xp := by
  unfold State.msi; (repeat' split) <;> rfl
@[simp] theorem State.msi_subs (s : State) (v : Nat) : (s.msi v).subs = s.subs := by
  unfold State.msi; (repeat' split) <;> rfl
@[simp] theorem State.msi_ports (s : State) (v : Nat) : (s.msi v).ports = s.ports := by
  unfold State.msi; (repeat' split) <;> rfl
@[simp] theorem State.msi_bays (s : State) (v : Nat) : (s.msi v).bays = s.bays := by
  unfold State.msi; (repeat' split) <;> rfl
@[simp] theorem State.msi_groups (s : State) (v : Nat) : (s.msi v).groups = s.groups := by
  unfold State.msi; (repeat' split) <;> rfl
@[simp] theorem State.msi_dies (s : State) (v : Nat) : (s.msi v).dies = s.dies := by
  unfold State.msi; (repeat' split) <;> rfl
@[simp] theorem State.msi_con (s : State) (v : Nat) : (s.msi v).con = s.con := by
  unfold State.msi; (repeat' split) <;> rfl
@[simp] theorem State.msi_inv (s : State) (v : Nat) : (s.msi v).inv = s.inv := by
  unfold State.msi; (repeat' split) <;> rfl
@[simp] theorem State.msi_cvs (s : State) (v : Nat) : (s.msi v).cvs = s.cvs := by
  unfold State.msi; (repeat' split) <;> rfl
@[simp] theorem State.msi_core (s : State) (v : Nat) (o : Nat) : (s.msi v).core o = s.core o := by
  simp [State.core]
@[simp] theorem State.msi_job (s : State) (v : Nat) (o : Nat) : (s.msi v).job? o = s.job? o := by
  simp [State.job?]
@[simp] theorem State.msi_svc (s : State) (v : Nat) (o : Nat) : (s.msi v).svc? o = s.svc? o := by
  simp [State.svc?]
@[simp] theorem State.msi_qp (s : State) (v : Nat) (o : Nat) : (s.msi v).qp? o = s.qp? o := by
  simp [State.qp?]
@[simp] theorem State.msi_sub (s : State) (v : Nat) (o : Nat) : (s.msi v).sub o = s.sub o := by
  simp [State.sub]
@[simp] theorem State.msi_port (s : State) (v : Nat) (o : Nat) : (s.msi v).port o = s.port o := by
  simp [State.port]
@[simp] theorem State.msi_bay (s : State) (v : Nat) (o : Nat) : (s.msi v).bay o = s.bay o := by
  simp [State.bay]
@[simp] theorem State.msi_grp (s : State) (v : Nat) (o : Nat) : (s.msi v).grp o = s.grp o := by
  simp [State.grp]
@[simp] theorem State.msi_die (s : State) (v : Nat) (o : Nat) : (s.msi v).die o = s.die o := by
  simp [State.die]
@[simp] theorem State.msi_chan (s : State) (v : Nat) (o : Nat) : (s.msi v).chan o = s.chan o := by
  simp [State.chan]
@[simp] theorem State.msi_bridge (s : State) (v : Nat) (o : Nat) : (s.msi v).bridge o = s.bridge o := by
  simp [State.bridge]
@[simp] theorem State.msi_cv (s : State) (v : Nat) (o : Nat) : (s.msi v).cv o = s.cv o := by
  simp [State.cv]
@[simp] theorem State.msi_part (s : State) (v : Nat) (o : Nat) : (s.msi v).part? o = s.part? o := by
  simp [State.part?]
@[simp] theorem State.msi_ctr (s : State) (v : Nat) (o : Nat) : (s.msi v).ctr o = s.ctr o := by
  simp [State.ctr]
@[simp] theorem State.msi_reg (s : State) (v : Nat) (b : Blk) (o : Nat) : (s.msi v).reg b o = s.reg b o := by
  simp [State.reg]

/-! ### hostWrite -/

@[simp] theorem State.hostWrite_pending (s : State) (a : Nat) (bs : List Byte) : (s.hostWrite a bs).pending = s.pending := by
  unfold State.hostWrite; (repeat' split) <;> rfl
@[simp] theorem State.hostWrite_tick (s : State) (a : Nat) (bs : List Byte) : (s.hostWrite a bs).tick = s.tick := by
  unfold State.hostWrite; (repeat' split) <;> rfl
@[simp] theorem State.hostWrite_free (s : State) (a : Nat) (bs : List Byte) : (s.hostWrite a bs).free = s.free := by
  unfold State.hostWrite; (repeat' split) <;> rfl
@[simp] theorem State.hostWrite_busOut (s : State) (a : Nat) (bs : List Byte) : (s.hostWrite a bs).busOut = s.busOut := by
  unfold State.hostWrite; (repeat' split) <;> rfl
@[simp] theorem State.hostWrite_devMem (s : State) (a : Nat) (bs : List Byte) : (s.hostWrite a bs).devMem = s.devMem := by
  unfold State.hostWrite; (repeat' split) <;> rfl
@[simp] theorem State.hostWrite_localMem (s : State) (a : Nat) (bs : List Byte) : (s.hostWrite a bs).localMem = s.localMem := by
  unfold State.hostWrite; (repeat' split) <;> rfl
@[simp] theorem State.hostWrite_acc (s : State) (a : Nat) (bs : List Byte) : (s.hostWrite a bs).acc = s.acc := by
  unfold State.hostWrite; (repeat' split) <;> rfl
@[simp] theorem State.hostWrite_accFlags (s : State) (a : Nat) (bs : List Byte) : (s.hostWrite a bs).accFlags = s.accFlags := by
  unfold State.hostWrite; (repeat' split) <;> rfl
@[simp] theorem State.hostWrite_accGen (s : State) (a : Nat) (bs : List Byte) : (s.hostWrite a bs).accGen = s.accGen := by
  unfold State.hostWrite; (repeat' split) <;> rfl
@[simp] theorem State.hostWrite_era (s : State) (a : Nat) (bs : List Byte) : (s.hostWrite a bs).era = s.era := by
  unfold State.hostWrite; (repeat' split) <;> rfl
@[simp] theorem State.hostWrite_cores (s : State) (a : Nat) (bs : List Byte) : (s.hostWrite a bs).cores = s.cores := by
  unfold State.hostWrite; (repeat' split) <;> rfl
@[simp] theorem State.hostWrite_remap (s : State) (a : Nat) (bs : List Byte) : (s.hostWrite a bs).remap = s.remap := by
  unfold State.hostWrite; (repeat' split) <;> rfl
@[simp] theorem State.hostWrite_counters (s : State) (a : Nat) (bs : List Byte) : (s.hostWrite a bs).counters = s.counters := by
  unfold State.hostWrite; (repeat' split) <;> rfl
@[simp] theorem State.hostWrite_cfg (s : State) (a : Nat) (bs : List Byte) : (s.hostWrite a bs).cfg = s.cfg := by
  unfold State.hostWrite; (repeat' split) <;> rfl
@[simp] theorem State.hostWrite_pend (s : State) (a : Nat) (bs : List Byte) : (s.hostWrite a bs).pend = s.pend := by
  unfold State.hostWrite; (repeat' split) <;> rfl
@[simp] theorem State.hostWrite_bseq (s : State) (a : Nat) (bs : List Byte) : (s.hostWrite a bs).bseq = s.bseq := by
  unfold State.hostWrite; (repeat' split) <;> rfl
@[simp] theorem State.hostWrite_wstat (s : State) (a : Nat) (bs : List Byte) : (s.hostWrite a bs).wstat = s.wstat := by
  unfold State.hostWrite; (repeat' split) <;> rfl
@[simp] theorem State.hostWrite_errcnt (s : State) (a : Nat) (bs : List Byte) : (s.hostWrite a bs).errcnt = s.errcnt := by
  unfold State.hostWrite; (repeat' split) <;> rfl
@[simp] theorem State.hostWrite_snap (s : State) (a : Nat) (bs : List Byte) : (s.hostWrite a bs).snap = s.snap := by
  unfold State.hostWrite; (repeat' split) <;> rfl
@[simp] theorem State.hostWrite_mailboxes (s : State) (a : Nat) (bs : List Byte) : (s.hostWrite a bs).mailboxes = s.mailboxes := by
  unfold State.hostWrite; (repeat' split) <;> rfl
@[simp] theorem State.hostWrite_lastMb (s : State) (a : Nat) (bs : List Byte) : (s.hostWrite a bs).lastMb = s.lastMb := by
  unfold State.hostWrite; (repeat' split) <;> rfl
@[simp] theorem State.hostWrite_compat (s : State) (a : Nat) (bs : List Byte) : (s.hostWrite a bs).compat = s.compat := by
  unfold State.hostWrite; (repeat' split) <;> rfl
@[simp] theorem State.hostWrite_bu (s : State) (a : Nat) (bs : List Byte) : (s.hostWrite a bs).bu = s.bu := by
  unfold State.hostWrite; (repeat' split) <;> rfl
@[simp] theorem State.hostWrite_power (s : State) (a : Nat) (bs : List Byte) : (s.hostWrite a bs).power = s.power := by
  unfold State.hostWrite; (repeat' split) <;> rfl
@[simp] theorem State.hostWrite_defects (s : State) (a : Nat) (bs : List Byte) : (s.hostWrite a bs).defects = s.defects := by
  unfold State.hostWrite; (repeat' split) <;> rfl
@[simp] theorem State.hostWrite_sec (s : State) (a : Nat) (bs : List Byte) : (s.hostWrite a bs).sec = s.sec := by
  unfold State.hostWrite; (repeat' split) <;> rfl
@[simp] theorem State.hostWrite_mem (s : State) (a : Nat) (bs : List Byte) : (s.hostWrite a bs).mem = s.mem := by
  unfold State.hostWrite; (repeat' split) <;> rfl
@[simp] theorem State.hostWrite_store (s : State) (a : Nat) (bs : List Byte) : (s.hostWrite a bs).store = s.store := by
  unfold State.hostWrite; (repeat' split) <;> rfl
@[simp] theorem State.hostWrite_pewter (s : State) (a : Nat) (bs : List Byte) : (s.hostWrite a bs).pewter = s.pewter := by
  unfold State.hostWrite; (repeat' split) <;> rfl
@[simp] theorem State.hostWrite_jobs (s : State) (a : Nat) (bs : List Byte) : (s.hostWrite a bs).jobs = s.jobs := by
  unfold State.hostWrite; (repeat' split) <;> rfl
@[simp] theorem State.hostWrite_svcs (s : State) (a : Nat) (bs : List Byte) : (s.hostWrite a bs).svcs = s.svcs := by
  unfold State.hostWrite; (repeat' split) <;> rfl
@[simp] theorem State.hostWrite_xp (s : State) (a : Nat) (bs : List Byte) : (s.hostWrite a bs).xp = s.xp := by
  unfold State.hostWrite; (repeat' split) <;> rfl
@[simp] theorem State.hostWrite_subs (s : State) (a : Nat) (bs : List Byte) : (s.hostWrite a bs).subs = s.subs := by
  unfold State.hostWrite; (repeat' split) <;> rfl
@[simp] theorem State.hostWrite_ports (s : State) (a : Nat) (bs : List Byte) : (s.hostWrite a bs).ports = s.ports := by
  unfold State.hostWrite; (repeat' split) <;> rfl
@[simp] theorem State.hostWrite_bays (s : State) (a : Nat) (bs : List Byte) : (s.hostWrite a bs).bays = s.bays := by
  unfold State.hostWrite; (repeat' split) <;> rfl
@[simp] theorem State.hostWrite_groups (s : State) (a : Nat) (bs : List Byte) : (s.hostWrite a bs).groups = s.groups := by
  unfold State.hostWrite; (repeat' split) <;> rfl
@[simp] theorem State.hostWrite_dies (s : State) (a : Nat) (bs : List Byte) : (s.hostWrite a bs).dies = s.dies := by
  unfold State.hostWrite; (repeat' split) <;> rfl
@[simp] theorem State.hostWrite_con (s : State) (a : Nat) (bs : List Byte) : (s.hostWrite a bs).con = s.con := by
  unfold State.hostWrite; (repeat' split) <;> rfl
@[simp] theorem State.hostWrite_inv (s : State) (a : Nat) (bs : List Byte) : (s.hostWrite a bs).inv = s.inv := by
  unfold State.hostWrite; (repeat' split) <;> rfl
@[simp] theorem State.hostWrite_cvs (s : State) (a : Nat) (bs : List Byte) : (s.hostWrite a bs).cvs = s.cvs := by
  unfold State.hostWrite; (repeat' split) <;> rfl
@[simp] theorem State.hostWrite_core (s : State) (a : Nat) (bs : List Byte) (o : Nat) : (s.hostWrite a bs).core o = s.core o := by
  simp [State.core]
@[simp] theorem State.hostWrite_job (s : State) (a : Nat) (bs : List Byte) (o : Nat) : (s.hostWrite a bs).job? o = s.job? o := by
  simp [State.job?]
@[simp] theorem State.hostWrite_svc (s : State) (a : Nat) (bs : List Byte) (o : Nat) : (s.hostWrite a bs).svc? o = s.svc? o := by
  simp [State.svc?]
@[simp] theorem State.hostWrite_qp (s : State) (a : Nat) (bs : List Byte) (o : Nat) : (s.hostWrite a bs).qp? o = s.qp? o := by
  simp [State.qp?]
@[simp] theorem State.hostWrite_sub (s : State) (a : Nat) (bs : List Byte) (o : Nat) : (s.hostWrite a bs).sub o = s.sub o := by
  simp [State.sub]
@[simp] theorem State.hostWrite_port (s : State) (a : Nat) (bs : List Byte) (o : Nat) : (s.hostWrite a bs).port o = s.port o := by
  simp [State.port]
@[simp] theorem State.hostWrite_bay (s : State) (a : Nat) (bs : List Byte) (o : Nat) : (s.hostWrite a bs).bay o = s.bay o := by
  simp [State.bay]
@[simp] theorem State.hostWrite_grp (s : State) (a : Nat) (bs : List Byte) (o : Nat) : (s.hostWrite a bs).grp o = s.grp o := by
  simp [State.grp]
@[simp] theorem State.hostWrite_die (s : State) (a : Nat) (bs : List Byte) (o : Nat) : (s.hostWrite a bs).die o = s.die o := by
  simp [State.die]
@[simp] theorem State.hostWrite_chan (s : State) (a : Nat) (bs : List Byte) (o : Nat) : (s.hostWrite a bs).chan o = s.chan o := by
  simp [State.chan]
@[simp] theorem State.hostWrite_bridge (s : State) (a : Nat) (bs : List Byte) (o : Nat) : (s.hostWrite a bs).bridge o = s.bridge o := by
  simp [State.bridge]
@[simp] theorem State.hostWrite_cv (s : State) (a : Nat) (bs : List Byte) (o : Nat) : (s.hostWrite a bs).cv o = s.cv o := by
  simp [State.cv]
@[simp] theorem State.hostWrite_part (s : State) (a : Nat) (bs : List Byte) (o : Nat) : (s.hostWrite a bs).part? o = s.part? o := by
  simp [State.part?]
@[simp] theorem State.hostWrite_ctr (s : State) (a : Nat) (bs : List Byte) (o : Nat) : (s.hostWrite a bs).ctr o = s.ctr o := by
  simp [State.ctr]
@[simp] theorem State.hostWrite_reg (s : State) (a : Nat) (bs : List Byte) (b : Blk) (o : Nat) : (s.hostWrite a bs).reg b o = s.reg b o := by
  simp [State.reg]

/-! ### devWrite -/

@[simp] theorem State.devWrite_pending (s : State) (a : Nat) (bs : List Byte) : (s.devWrite a bs).pending = s.pending := by
  unfold State.devWrite; (repeat' split) <;> rfl
@[simp] theorem State.devWrite_tick (s : State) (a : Nat) (bs : List Byte) : (s.devWrite a bs).tick = s.tick := by
  unfold State.devWrite; (repeat' split) <;> rfl
@[simp] theorem State.devWrite_free (s : State) (a : Nat) (bs : List Byte) : (s.devWrite a bs).free = s.free := by
  unfold State.devWrite; (repeat' split) <;> rfl
@[simp] theorem State.devWrite_hostMem (s : State) (a : Nat) (bs : List Byte) : (s.devWrite a bs).hostMem = s.hostMem := by
  unfold State.devWrite; (repeat' split) <;> rfl
@[simp] theorem State.devWrite_busOut (s : State) (a : Nat) (bs : List Byte) : (s.devWrite a bs).busOut = s.busOut := by
  unfold State.devWrite; (repeat' split) <;> rfl
@[simp] theorem State.devWrite_localMem (s : State) (a : Nat) (bs : List Byte) : (s.devWrite a bs).localMem = s.localMem := by
  unfold State.devWrite; (repeat' split) <;> rfl
@[simp] theorem State.devWrite_acc (s : State) (a : Nat) (bs : List Byte) : (s.devWrite a bs).acc = s.acc := by
  unfold State.devWrite; (repeat' split) <;> rfl
@[simp] theorem State.devWrite_accFlags (s : State) (a : Nat) (bs : List Byte) : (s.devWrite a bs).accFlags = s.accFlags := by
  unfold State.devWrite; (repeat' split) <;> rfl
@[simp] theorem State.devWrite_accGen (s : State) (a : Nat) (bs : List Byte) : (s.devWrite a bs).accGen = s.accGen := by
  unfold State.devWrite; (repeat' split) <;> rfl
@[simp] theorem State.devWrite_era (s : State) (a : Nat) (bs : List Byte) : (s.devWrite a bs).era = s.era := by
  unfold State.devWrite; (repeat' split) <;> rfl
@[simp] theorem State.devWrite_cores (s : State) (a : Nat) (bs : List Byte) : (s.devWrite a bs).cores = s.cores := by
  unfold State.devWrite; (repeat' split) <;> rfl
@[simp] theorem State.devWrite_remap (s : State) (a : Nat) (bs : List Byte) : (s.devWrite a bs).remap = s.remap := by
  unfold State.devWrite; (repeat' split) <;> rfl
@[simp] theorem State.devWrite_counters (s : State) (a : Nat) (bs : List Byte) : (s.devWrite a bs).counters = s.counters := by
  unfold State.devWrite; (repeat' split) <;> rfl
@[simp] theorem State.devWrite_cfg (s : State) (a : Nat) (bs : List Byte) : (s.devWrite a bs).cfg = s.cfg := by
  unfold State.devWrite; (repeat' split) <;> rfl
@[simp] theorem State.devWrite_pend (s : State) (a : Nat) (bs : List Byte) : (s.devWrite a bs).pend = s.pend := by
  unfold State.devWrite; (repeat' split) <;> rfl
@[simp] theorem State.devWrite_bseq (s : State) (a : Nat) (bs : List Byte) : (s.devWrite a bs).bseq = s.bseq := by
  unfold State.devWrite; (repeat' split) <;> rfl
@[simp] theorem State.devWrite_wstat (s : State) (a : Nat) (bs : List Byte) : (s.devWrite a bs).wstat = s.wstat := by
  unfold State.devWrite; (repeat' split) <;> rfl
@[simp] theorem State.devWrite_errcnt (s : State) (a : Nat) (bs : List Byte) : (s.devWrite a bs).errcnt = s.errcnt := by
  unfold State.devWrite; (repeat' split) <;> rfl
@[simp] theorem State.devWrite_snap (s : State) (a : Nat) (bs : List Byte) : (s.devWrite a bs).snap = s.snap := by
  unfold State.devWrite; (repeat' split) <;> rfl
@[simp] theorem State.devWrite_mailboxes (s : State) (a : Nat) (bs : List Byte) : (s.devWrite a bs).mailboxes = s.mailboxes := by
  unfold State.devWrite; (repeat' split) <;> rfl
@[simp] theorem State.devWrite_lastMb (s : State) (a : Nat) (bs : List Byte) : (s.devWrite a bs).lastMb = s.lastMb := by
  unfold State.devWrite; (repeat' split) <;> rfl
@[simp] theorem State.devWrite_compat (s : State) (a : Nat) (bs : List Byte) : (s.devWrite a bs).compat = s.compat := by
  unfold State.devWrite; (repeat' split) <;> rfl
@[simp] theorem State.devWrite_bu (s : State) (a : Nat) (bs : List Byte) : (s.devWrite a bs).bu = s.bu := by
  unfold State.devWrite; (repeat' split) <;> rfl
@[simp] theorem State.devWrite_power (s : State) (a : Nat) (bs : List Byte) : (s.devWrite a bs).power = s.power := by
  unfold State.devWrite; (repeat' split) <;> rfl
@[simp] theorem State.devWrite_defects (s : State) (a : Nat) (bs : List Byte) : (s.devWrite a bs).defects = s.defects := by
  unfold State.devWrite; (repeat' split) <;> rfl
@[simp] theorem State.devWrite_sec (s : State) (a : Nat) (bs : List Byte) : (s.devWrite a bs).sec = s.sec := by
  unfold State.devWrite; (repeat' split) <;> rfl
@[simp] theorem State.devWrite_store (s : State) (a : Nat) (bs : List Byte) : (s.devWrite a bs).store = s.store := by
  unfold State.devWrite; (repeat' split) <;> rfl
@[simp] theorem State.devWrite_link (s : State) (a : Nat) (bs : List Byte) : (s.devWrite a bs).link = s.link := by
  unfold State.devWrite; (repeat' split) <;> rfl
@[simp] theorem State.devWrite_pewter (s : State) (a : Nat) (bs : List Byte) : (s.devWrite a bs).pewter = s.pewter := by
  unfold State.devWrite; (repeat' split) <;> rfl
@[simp] theorem State.devWrite_jobs (s : State) (a : Nat) (bs : List Byte) : (s.devWrite a bs).jobs = s.jobs := by
  unfold State.devWrite; (repeat' split) <;> rfl
@[simp] theorem State.devWrite_svcs (s : State) (a : Nat) (bs : List Byte) : (s.devWrite a bs).svcs = s.svcs := by
  unfold State.devWrite; (repeat' split) <;> rfl
@[simp] theorem State.devWrite_xp (s : State) (a : Nat) (bs : List Byte) : (s.devWrite a bs).xp = s.xp := by
  unfold State.devWrite; (repeat' split) <;> rfl
@[simp] theorem State.devWrite_subs (s : State) (a : Nat) (bs : List Byte) : (s.devWrite a bs).subs = s.subs := by
  unfold State.devWrite; (repeat' split) <;> rfl
@[simp] theorem State.devWrite_ports (s : State) (a : Nat) (bs : List Byte) : (s.devWrite a bs).ports = s.ports := by
  unfold State.devWrite; (repeat' split) <;> rfl
@[simp] theorem State.devWrite_bays (s : State) (a : Nat) (bs : List Byte) : (s.devWrite a bs).bays = s.bays := by
  unfold State.devWrite; (repeat' split) <;> rfl
@[simp] theorem State.devWrite_groups (s : State) (a : Nat) (bs : List Byte) : (s.devWrite a bs).groups = s.groups := by
  unfold State.devWrite; (repeat' split) <;> rfl
@[simp] theorem State.devWrite_dies (s : State) (a : Nat) (bs : List Byte) : (s.devWrite a bs).dies = s.dies := by
  unfold State.devWrite; (repeat' split) <;> rfl
@[simp] theorem State.devWrite_con (s : State) (a : Nat) (bs : List Byte) : (s.devWrite a bs).con = s.con := by
  unfold State.devWrite; (repeat' split) <;> rfl
@[simp] theorem State.devWrite_inv (s : State) (a : Nat) (bs : List Byte) : (s.devWrite a bs).inv = s.inv := by
  unfold State.devWrite; (repeat' split) <;> rfl
@[simp] theorem State.devWrite_cvs (s : State) (a : Nat) (bs : List Byte) : (s.devWrite a bs).cvs = s.cvs := by
  unfold State.devWrite; (repeat' split) <;> rfl
@[simp] theorem State.devWrite_core (s : State) (a : Nat) (bs : List Byte) (o : Nat) : (s.devWrite a bs).core o = s.core o := by
  simp [State.core]
@[simp] theorem State.devWrite_job (s : State) (a : Nat) (bs : List Byte) (o : Nat) : (s.devWrite a bs).job? o = s.job? o := by
  simp [State.job?]
@[simp] theorem State.devWrite_svc (s : State) (a : Nat) (bs : List Byte) (o : Nat) : (s.devWrite a bs).svc? o = s.svc? o := by
  simp [State.svc?]
@[simp] theorem State.devWrite_qp (s : State) (a : Nat) (bs : List Byte) (o : Nat) : (s.devWrite a bs).qp? o = s.qp? o := by
  simp [State.qp?]
@[simp] theorem State.devWrite_sub (s : State) (a : Nat) (bs : List Byte) (o : Nat) : (s.devWrite a bs).sub o = s.sub o := by
  simp [State.sub]
@[simp] theorem State.devWrite_port (s : State) (a : Nat) (bs : List Byte) (o : Nat) : (s.devWrite a bs).port o = s.port o := by
  simp [State.port]
@[simp] theorem State.devWrite_bay (s : State) (a : Nat) (bs : List Byte) (o : Nat) : (s.devWrite a bs).bay o = s.bay o := by
  simp [State.bay]
@[simp] theorem State.devWrite_grp (s : State) (a : Nat) (bs : List Byte) (o : Nat) : (s.devWrite a bs).grp o = s.grp o := by
  simp [State.grp]
@[simp] theorem State.devWrite_die (s : State) (a : Nat) (bs : List Byte) (o : Nat) : (s.devWrite a bs).die o = s.die o := by
  simp [State.die]
@[simp] theorem State.devWrite_chan (s : State) (a : Nat) (bs : List Byte) (o : Nat) : (s.devWrite a bs).chan o = s.chan o := by
  simp [State.chan]
@[simp] theorem State.devWrite_bridge (s : State) (a : Nat) (bs : List Byte) (o : Nat) : (s.devWrite a bs).bridge o = s.bridge o := by
  simp [State.bridge]
@[simp] theorem State.devWrite_cv (s : State) (a : Nat) (bs : List Byte) (o : Nat) : (s.devWrite a bs).cv o = s.cv o := by
  simp [State.cv]
@[simp] theorem State.devWrite_part (s : State) (a : Nat) (bs : List Byte) (o : Nat) : (s.devWrite a bs).part? o = s.part? o := by
  simp [State.part?]
@[simp] theorem State.devWrite_ctr (s : State) (a : Nat) (bs : List Byte) (o : Nat) : (s.devWrite a bs).ctr o = s.ctr o := by
  simp [State.ctr]
@[simp] theorem State.devWrite_reg (s : State) (a : Nat) (bs : List Byte) (b : Blk) (o : Nat) : (s.devWrite a bs).reg b o = s.reg b o := by
  simp [State.reg]

/-! ### r40Write -/

@[simp] theorem State.r40Write_pending (s : State) (w : Nat) (bs : List Byte) : (s.r40Write w bs).pending = s.pending := by
  unfold State.r40Write; try dsimp only
  (repeat' split) <;> simp
@[simp] theorem State.r40Write_tick (s : State) (w : Nat) (bs : List Byte) : (s.r40Write w bs).tick = s.tick := by
  unfold State.r40Write; try dsimp only
  (repeat' split) <;> simp
@[simp] theorem State.r40Write_free (s : State) (w : Nat) (bs : List Byte) : (s.r40Write w bs).free = s.free := by
  unfold State.r40Write; try dsimp only
  (repeat' split) <;> simp
@[simp] theorem State.r40Write_busOut (s : State) (w : Nat) (bs : List Byte) : (s.r40Write w bs).busOut = s.busOut := by
  unfold State.r40Write; try dsimp only
  (repeat' split) <;> simp
@[simp] theorem State.r40Write_localMem (s : State) (w : Nat) (bs : List Byte) : (s.r40Write w bs).localMem = s.localMem := by
  unfold State.r40Write; try dsimp only
  (repeat' split) <;> simp
@[simp] theorem State.r40Write_acc (s : State) (w : Nat) (bs : List Byte) : (s.r40Write w bs).acc = s.acc := by
  unfold State.r40Write; try dsimp only
  (repeat' split) <;> simp
@[simp] theorem State.r40Write_accFlags (s : State) (w : Nat) (bs : List Byte) : (s.r40Write w bs).accFlags = s.accFlags := by
  unfold State.r40Write; try dsimp only
  (repeat' split) <;> simp
@[simp] theorem State.r40Write_accGen (s : State) (w : Nat) (bs : List Byte) : (s.r40Write w bs).accGen = s.accGen := by
  unfold State.r40Write; try dsimp only
  (repeat' split) <;> simp
@[simp] theorem State.r40Write_era (s : State) (w : Nat) (bs : List Byte) : (s.r40Write w bs).era = s.era := by
  unfold State.r40Write; try dsimp only
  (repeat' split) <;> simp
@[simp] theorem State.r40Write_cores (s : State) (w : Nat) (bs : List Byte) : (s.r40Write w bs).cores = s.cores := by
  unfold State.r40Write; try dsimp only
  (repeat' split) <;> simp
@[simp] theorem State.r40Write_remap (s : State) (w : Nat) (bs : List Byte) : (s.r40Write w bs).remap = s.remap := by
  unfold State.r40Write; try dsimp only
  (repeat' split) <;> simp
@[simp] theorem State.r40Write_counters (s : State) (w : Nat) (bs : List Byte) : (s.r40Write w bs).counters = s.counters := by
  unfold State.r40Write; try dsimp only
  (repeat' split) <;> simp
@[simp] theorem State.r40Write_cfg (s : State) (w : Nat) (bs : List Byte) : (s.r40Write w bs).cfg = s.cfg := by
  unfold State.r40Write; try dsimp only
  (repeat' split) <;> simp
@[simp] theorem State.r40Write_pend (s : State) (w : Nat) (bs : List Byte) : (s.r40Write w bs).pend = s.pend := by
  unfold State.r40Write; try dsimp only
  (repeat' split) <;> simp
@[simp] theorem State.r40Write_bseq (s : State) (w : Nat) (bs : List Byte) : (s.r40Write w bs).bseq = s.bseq := by
  unfold State.r40Write; try dsimp only
  (repeat' split) <;> simp
@[simp] theorem State.r40Write_wstat (s : State) (w : Nat) (bs : List Byte) : (s.r40Write w bs).wstat = s.wstat := by
  unfold State.r40Write; try dsimp only
  (repeat' split) <;> simp
@[simp] theorem State.r40Write_errcnt (s : State) (w : Nat) (bs : List Byte) : (s.r40Write w bs).errcnt = s.errcnt := by
  unfold State.r40Write; try dsimp only
  (repeat' split) <;> simp
@[simp] theorem State.r40Write_snap (s : State) (w : Nat) (bs : List Byte) : (s.r40Write w bs).snap = s.snap := by
  unfold State.r40Write; try dsimp only
  (repeat' split) <;> simp
@[simp] theorem State.r40Write_mailboxes (s : State) (w : Nat) (bs : List Byte) : (s.r40Write w bs).mailboxes = s.mailboxes := by
  unfold State.r40Write; try dsimp only
  (repeat' split) <;> simp
@[simp] theorem State.r40Write_lastMb (s : State) (w : Nat) (bs : List Byte) : (s.r40Write w bs).lastMb = s.lastMb := by
  unfold State.r40Write; try dsimp only
  (repeat' split) <;> simp
@[simp] theorem State.r40Write_compat (s : State) (w : Nat) (bs : List Byte) : (s.r40Write w bs).compat = s.compat := by
  unfold State.r40Write; try dsimp only
  (repeat' split) <;> simp
@[simp] theorem State.r40Write_bu (s : State) (w : Nat) (bs : List Byte) : (s.r40Write w bs).bu = s.bu := by
  unfold State.r40Write; try dsimp only
  (repeat' split) <;> simp
@[simp] theorem State.r40Write_power (s : State) (w : Nat) (bs : List Byte) : (s.r40Write w bs).power = s.power := by
  unfold State.r40Write; try dsimp only
  (repeat' split) <;> simp
@[simp] theorem State.r40Write_defects (s : State) (w : Nat) (bs : List Byte) : (s.r40Write w bs).defects = s.defects := by
  unfold State.r40Write; try dsimp only
  (repeat' split) <;> simp
@[simp] theorem State.r40Write_sec (s : State) (w : Nat) (bs : List Byte) : (s.r40Write w bs).sec = s.sec := by
  unfold State.r40Write; try dsimp only
  (repeat' split) <;> simp
@[simp] theorem State.r40Write_store (s : State) (w : Nat) (bs : List Byte) : (s.r40Write w bs).store = s.store := by
  unfold State.r40Write; try dsimp only
  (repeat' split) <;> simp
@[simp] theorem State.r40Write_pewter (s : State) (w : Nat) (bs : List Byte) : (s.r40Write w bs).pewter = s.pewter := by
  unfold State.r40Write; try dsimp only
  (repeat' split) <;> simp
@[simp] theorem State.r40Write_jobs (s : State) (w : Nat) (bs : List Byte) : (s.r40Write w bs).jobs = s.jobs := by
  unfold State.r40Write; try dsimp only
  (repeat' split) <;> simp
@[simp] theorem State.r40Write_svcs (s : State) (w : Nat) (bs : List Byte) : (s.r40Write w bs).svcs = s.svcs := by
  unfold State.r40Write; try dsimp only
  (repeat' split) <;> simp
@[simp] theorem State.r40Write_xp (s : State) (w : Nat) (bs : List Byte) : (s.r40Write w bs).xp = s.xp := by
  unfold State.r40Write; try dsimp only
  (repeat' split) <;> simp
@[simp] theorem State.r40Write_subs (s : State) (w : Nat) (bs : List Byte) : (s.r40Write w bs).subs = s.subs := by
  unfold State.r40Write; try dsimp only
  (repeat' split) <;> simp
@[simp] theorem State.r40Write_ports (s : State) (w : Nat) (bs : List Byte) : (s.r40Write w bs).ports = s.ports := by
  unfold State.r40Write; try dsimp only
  (repeat' split) <;> simp
@[simp] theorem State.r40Write_bays (s : State) (w : Nat) (bs : List Byte) : (s.r40Write w bs).bays = s.bays := by
  unfold State.r40Write; try dsimp only
  (repeat' split) <;> simp
@[simp] theorem State.r40Write_groups (s : State) (w : Nat) (bs : List Byte) : (s.r40Write w bs).groups = s.groups := by
  unfold State.r40Write; try dsimp only
  (repeat' split) <;> simp
@[simp] theorem State.r40Write_dies (s : State) (w : Nat) (bs : List Byte) : (s.r40Write w bs).dies = s.dies := by
  unfold State.r40Write; try dsimp only
  (repeat' split) <;> simp
@[simp] theorem State.r40Write_con (s : State) (w : Nat) (bs : List Byte) : (s.r40Write w bs).con = s.con := by
  unfold State.r40Write; try dsimp only
  (repeat' split) <;> simp
@[simp] theorem State.r40Write_inv (s : State) (w : Nat) (bs : List Byte) : (s.r40Write w bs).inv = s.inv := by
  unfold State.r40Write; try dsimp only
  (repeat' split) <;> simp
@[simp] theorem State.r40Write_cvs (s : State) (w : Nat) (bs : List Byte) : (s.r40Write w bs).cvs = s.cvs := by
  unfold State.r40Write; try dsimp only
  (repeat' split) <;> simp
@[simp] theorem State.r40Write_core (s : State) (w : Nat) (bs : List Byte) (o : Nat) : (s.r40Write w bs).core o = s.core o := by
  simp [State.core]
@[simp] theorem State.r40Write_job (s : State) (w : Nat) (bs : List Byte) (o : Nat) : (s.r40Write w bs).job? o = s.job? o := by
  simp [State.job?]
@[simp] theorem State.r40Write_svc (s : State) (w : Nat) (bs : List Byte) (o : Nat) : (s.r40Write w bs).svc? o = s.svc? o := by
  simp [State.svc?]
@[simp] theorem State.r40Write_qp (s : State) (w : Nat) (bs : List Byte) (o : Nat) : (s.r40Write w bs).qp? o = s.qp? o := by
  simp [State.qp?]
@[simp] theorem State.r40Write_sub (s : State) (w : Nat) (bs : List Byte) (o : Nat) : (s.r40Write w bs).sub o = s.sub o := by
  simp [State.sub]
@[simp] theorem State.r40Write_port (s : State) (w : Nat) (bs : List Byte) (o : Nat) : (s.r40Write w bs).port o = s.port o := by
  simp [State.port]
@[simp] theorem State.r40Write_bay (s : State) (w : Nat) (bs : List Byte) (o : Nat) : (s.r40Write w bs).bay o = s.bay o := by
  simp [State.bay]
@[simp] theorem State.r40Write_grp (s : State) (w : Nat) (bs : List Byte) (o : Nat) : (s.r40Write w bs).grp o = s.grp o := by
  simp [State.grp]
@[simp] theorem State.r40Write_die (s : State) (w : Nat) (bs : List Byte) (o : Nat) : (s.r40Write w bs).die o = s.die o := by
  simp [State.die]
@[simp] theorem State.r40Write_chan (s : State) (w : Nat) (bs : List Byte) (o : Nat) : (s.r40Write w bs).chan o = s.chan o := by
  simp [State.chan]
@[simp] theorem State.r40Write_bridge (s : State) (w : Nat) (bs : List Byte) (o : Nat) : (s.r40Write w bs).bridge o = s.bridge o := by
  simp [State.bridge]
@[simp] theorem State.r40Write_cv (s : State) (w : Nat) (bs : List Byte) (o : Nat) : (s.r40Write w bs).cv o = s.cv o := by
  simp [State.cv]
@[simp] theorem State.r40Write_part (s : State) (w : Nat) (bs : List Byte) (o : Nat) : (s.r40Write w bs).part? o = s.part? o := by
  simp [State.part?]
@[simp] theorem State.r40Write_ctr (s : State) (w : Nat) (bs : List Byte) (o : Nat) : (s.r40Write w bs).ctr o = s.ctr o := by
  simp [State.ctr]
@[simp] theorem State.r40Write_reg (s : State) (w : Nat) (bs : List Byte) (b : Blk) (o : Nat) : (s.r40Write w bs).reg b o = s.reg b o := by
  simp [State.reg]

/-! ### devReadBad -/

@[simp] theorem State.devReadBad_pending (s : State) (a n : Nat) : (s.devReadBad a n).pending = s.pending := by
  unfold State.devReadBad State.noteUe; (repeat' split) <;> rfl
@[simp] theorem State.devReadBad_tick (s : State) (a n : Nat) : (s.devReadBad a n).tick = s.tick := by
  unfold State.devReadBad State.noteUe; (repeat' split) <;> rfl
@[simp] theorem State.devReadBad_free (s : State) (a n : Nat) : (s.devReadBad a n).free = s.free := by
  unfold State.devReadBad State.noteUe; (repeat' split) <;> rfl
@[simp] theorem State.devReadBad_hostMem (s : State) (a n : Nat) : (s.devReadBad a n).hostMem = s.hostMem := by
  unfold State.devReadBad State.noteUe; (repeat' split) <;> rfl
@[simp] theorem State.devReadBad_busOut (s : State) (a n : Nat) : (s.devReadBad a n).busOut = s.busOut := by
  unfold State.devReadBad State.noteUe; (repeat' split) <;> rfl
@[simp] theorem State.devReadBad_devMem (s : State) (a n : Nat) : (s.devReadBad a n).devMem = s.devMem := by
  unfold State.devReadBad State.noteUe; (repeat' split) <;> rfl
@[simp] theorem State.devReadBad_localMem (s : State) (a n : Nat) : (s.devReadBad a n).localMem = s.localMem := by
  unfold State.devReadBad State.noteUe; (repeat' split) <;> rfl
@[simp] theorem State.devReadBad_acc (s : State) (a n : Nat) : (s.devReadBad a n).acc = s.acc := by
  unfold State.devReadBad State.noteUe; (repeat' split) <;> rfl
@[simp] theorem State.devReadBad_accFlags (s : State) (a n : Nat) : (s.devReadBad a n).accFlags = s.accFlags := by
  unfold State.devReadBad State.noteUe; (repeat' split) <;> rfl
@[simp] theorem State.devReadBad_accGen (s : State) (a n : Nat) : (s.devReadBad a n).accGen = s.accGen := by
  unfold State.devReadBad State.noteUe; (repeat' split) <;> rfl
@[simp] theorem State.devReadBad_era (s : State) (a n : Nat) : (s.devReadBad a n).era = s.era := by
  unfold State.devReadBad State.noteUe; (repeat' split) <;> rfl
@[simp] theorem State.devReadBad_cores (s : State) (a n : Nat) : (s.devReadBad a n).cores = s.cores := by
  unfold State.devReadBad State.noteUe; (repeat' split) <;> rfl
@[simp] theorem State.devReadBad_remap (s : State) (a n : Nat) : (s.devReadBad a n).remap = s.remap := by
  unfold State.devReadBad State.noteUe; (repeat' split) <;> rfl
@[simp] theorem State.devReadBad_counters (s : State) (a n : Nat) : (s.devReadBad a n).counters = s.counters := by
  unfold State.devReadBad State.noteUe; (repeat' split) <;> rfl
@[simp] theorem State.devReadBad_cfg (s : State) (a n : Nat) : (s.devReadBad a n).cfg = s.cfg := by
  unfold State.devReadBad State.noteUe; (repeat' split) <;> rfl
@[simp] theorem State.devReadBad_pend (s : State) (a n : Nat) : (s.devReadBad a n).pend = s.pend := by
  unfold State.devReadBad State.noteUe; (repeat' split) <;> rfl
@[simp] theorem State.devReadBad_bseq (s : State) (a n : Nat) : (s.devReadBad a n).bseq = s.bseq := by
  unfold State.devReadBad State.noteUe; (repeat' split) <;> rfl
@[simp] theorem State.devReadBad_wstat (s : State) (a n : Nat) : (s.devReadBad a n).wstat = s.wstat := by
  unfold State.devReadBad State.noteUe; (repeat' split) <;> rfl
@[simp] theorem State.devReadBad_errcnt (s : State) (a n : Nat) : (s.devReadBad a n).errcnt = s.errcnt := by
  unfold State.devReadBad State.noteUe; (repeat' split) <;> rfl
@[simp] theorem State.devReadBad_snap (s : State) (a n : Nat) : (s.devReadBad a n).snap = s.snap := by
  unfold State.devReadBad State.noteUe; (repeat' split) <;> rfl
@[simp] theorem State.devReadBad_mailboxes (s : State) (a n : Nat) : (s.devReadBad a n).mailboxes = s.mailboxes := by
  unfold State.devReadBad State.noteUe; (repeat' split) <;> rfl
@[simp] theorem State.devReadBad_lastMb (s : State) (a n : Nat) : (s.devReadBad a n).lastMb = s.lastMb := by
  unfold State.devReadBad State.noteUe; (repeat' split) <;> rfl
@[simp] theorem State.devReadBad_compat (s : State) (a n : Nat) : (s.devReadBad a n).compat = s.compat := by
  unfold State.devReadBad State.noteUe; (repeat' split) <;> rfl
@[simp] theorem State.devReadBad_bu (s : State) (a n : Nat) : (s.devReadBad a n).bu = s.bu := by
  unfold State.devReadBad State.noteUe; (repeat' split) <;> rfl
@[simp] theorem State.devReadBad_power (s : State) (a n : Nat) : (s.devReadBad a n).power = s.power := by
  unfold State.devReadBad State.noteUe; (repeat' split) <;> rfl
@[simp] theorem State.devReadBad_defects (s : State) (a n : Nat) : (s.devReadBad a n).defects = s.defects := by
  unfold State.devReadBad State.noteUe; (repeat' split) <;> rfl
@[simp] theorem State.devReadBad_sec (s : State) (a n : Nat) : (s.devReadBad a n).sec = s.sec := by
  unfold State.devReadBad State.noteUe; (repeat' split) <;> rfl
@[simp] theorem State.devReadBad_link (s : State) (a n : Nat) : (s.devReadBad a n).link = s.link := by
  unfold State.devReadBad State.noteUe; (repeat' split) <;> rfl
@[simp] theorem State.devReadBad_pewter (s : State) (a n : Nat) : (s.devReadBad a n).pewter = s.pewter := by
  unfold State.devReadBad State.noteUe; (repeat' split) <;> rfl
@[simp] theorem State.devReadBad_jobs (s : State) (a n : Nat) : (s.devReadBad a n).jobs = s.jobs := by
  unfold State.devReadBad State.noteUe; (repeat' split) <;> rfl
@[simp] theorem State.devReadBad_svcs (s : State) (a n : Nat) : (s.devReadBad a n).svcs = s.svcs := by
  unfold State.devReadBad State.noteUe; (repeat' split) <;> rfl
@[simp] theorem State.devReadBad_xp (s : State) (a n : Nat) : (s.devReadBad a n).xp = s.xp := by
  unfold State.devReadBad State.noteUe; (repeat' split) <;> rfl
@[simp] theorem State.devReadBad_subs (s : State) (a n : Nat) : (s.devReadBad a n).subs = s.subs := by
  unfold State.devReadBad State.noteUe; (repeat' split) <;> rfl
@[simp] theorem State.devReadBad_ports (s : State) (a n : Nat) : (s.devReadBad a n).ports = s.ports := by
  unfold State.devReadBad State.noteUe; (repeat' split) <;> rfl
@[simp] theorem State.devReadBad_bays (s : State) (a n : Nat) : (s.devReadBad a n).bays = s.bays := by
  unfold State.devReadBad State.noteUe; (repeat' split) <;> rfl
@[simp] theorem State.devReadBad_groups (s : State) (a n : Nat) : (s.devReadBad a n).groups = s.groups := by
  unfold State.devReadBad State.noteUe; (repeat' split) <;> rfl
@[simp] theorem State.devReadBad_dies (s : State) (a n : Nat) : (s.devReadBad a n).dies = s.dies := by
  unfold State.devReadBad State.noteUe; (repeat' split) <;> rfl
@[simp] theorem State.devReadBad_con (s : State) (a n : Nat) : (s.devReadBad a n).con = s.con := by
  unfold State.devReadBad State.noteUe; (repeat' split) <;> rfl
@[simp] theorem State.devReadBad_inv (s : State) (a n : Nat) : (s.devReadBad a n).inv = s.inv := by
  unfold State.devReadBad State.noteUe; (repeat' split) <;> rfl
@[simp] theorem State.devReadBad_cvs (s : State) (a n : Nat) : (s.devReadBad a n).cvs = s.cvs := by
  unfold State.devReadBad State.noteUe; (repeat' split) <;> rfl
@[simp] theorem State.devReadBad_core (s : State) (a n : Nat) (o : Nat) : (s.devReadBad a n).core o = s.core o := by
  simp [State.core]
@[simp] theorem State.devReadBad_job (s : State) (a n : Nat) (o : Nat) : (s.devReadBad a n).job? o = s.job? o := by
  simp [State.job?]
@[simp] theorem State.devReadBad_svc (s : State) (a n : Nat) (o : Nat) : (s.devReadBad a n).svc? o = s.svc? o := by
  simp [State.svc?]
@[simp] theorem State.devReadBad_qp (s : State) (a n : Nat) (o : Nat) : (s.devReadBad a n).qp? o = s.qp? o := by
  simp [State.qp?]
@[simp] theorem State.devReadBad_sub (s : State) (a n : Nat) (o : Nat) : (s.devReadBad a n).sub o = s.sub o := by
  simp [State.sub]
@[simp] theorem State.devReadBad_port (s : State) (a n : Nat) (o : Nat) : (s.devReadBad a n).port o = s.port o := by
  simp [State.port]
@[simp] theorem State.devReadBad_bay (s : State) (a n : Nat) (o : Nat) : (s.devReadBad a n).bay o = s.bay o := by
  simp [State.bay]
@[simp] theorem State.devReadBad_grp (s : State) (a n : Nat) (o : Nat) : (s.devReadBad a n).grp o = s.grp o := by
  simp [State.grp]
@[simp] theorem State.devReadBad_die (s : State) (a n : Nat) (o : Nat) : (s.devReadBad a n).die o = s.die o := by
  simp [State.die]
@[simp] theorem State.devReadBad_chan (s : State) (a n : Nat) (o : Nat) : (s.devReadBad a n).chan o = s.chan o := by
  simp [State.chan]
@[simp] theorem State.devReadBad_bridge (s : State) (a n : Nat) (o : Nat) : (s.devReadBad a n).bridge o = s.bridge o := by
  simp [State.bridge]
@[simp] theorem State.devReadBad_cv (s : State) (a n : Nat) (o : Nat) : (s.devReadBad a n).cv o = s.cv o := by
  simp [State.cv]
@[simp] theorem State.devReadBad_part (s : State) (a n : Nat) (o : Nat) : (s.devReadBad a n).part? o = s.part? o := by
  simp [State.part?]
@[simp] theorem State.devReadBad_ctr (s : State) (a n : Nat) (o : Nat) : (s.devReadBad a n).ctr o = s.ctr o := by
  simp [State.ctr]
@[simp] theorem State.devReadBad_reg (s : State) (a n : Nat) (b : Blk) (o : Nat) : (s.devReadBad a n).reg b o = s.reg b o := by
  simp [State.reg]

/-! ### noteFail -/

@[simp] theorem State.noteFail_pending (s : State) (st : Nat) : (s.noteFail st).pending = s.pending := by
  unfold State.noteFail; try dsimp only
  (repeat' split) <;> simp
@[simp] theorem State.noteFail_tick (s : State) (st : Nat) : (s.noteFail st).tick = s.tick := by
  unfold State.noteFail; try dsimp only
  (repeat' split) <;> simp
@[simp] theorem State.noteFail_free (s : State) (st : Nat) : (s.noteFail st).free = s.free := by
  unfold State.noteFail; try dsimp only
  (repeat' split) <;> simp
@[simp] theorem State.noteFail_hostMem (s : State) (st : Nat) : (s.noteFail st).hostMem = s.hostMem := by
  unfold State.noteFail; try dsimp only
  (repeat' split) <;> simp
@[simp] theorem State.noteFail_busOut (s : State) (st : Nat) : (s.noteFail st).busOut = s.busOut := by
  unfold State.noteFail; try dsimp only
  (repeat' split) <;> simp
@[simp] theorem State.noteFail_devMem (s : State) (st : Nat) : (s.noteFail st).devMem = s.devMem := by
  unfold State.noteFail; try dsimp only
  (repeat' split) <;> simp
@[simp] theorem State.noteFail_localMem (s : State) (st : Nat) : (s.noteFail st).localMem = s.localMem := by
  unfold State.noteFail; try dsimp only
  (repeat' split) <;> simp
@[simp] theorem State.noteFail_acc (s : State) (st : Nat) : (s.noteFail st).acc = s.acc := by
  unfold State.noteFail; try dsimp only
  (repeat' split) <;> simp
@[simp] theorem State.noteFail_accFlags (s : State) (st : Nat) : (s.noteFail st).accFlags = s.accFlags := by
  unfold State.noteFail; try dsimp only
  (repeat' split) <;> simp
@[simp] theorem State.noteFail_accGen (s : State) (st : Nat) : (s.noteFail st).accGen = s.accGen := by
  unfold State.noteFail; try dsimp only
  (repeat' split) <;> simp
@[simp] theorem State.noteFail_era (s : State) (st : Nat) : (s.noteFail st).era = s.era := by
  unfold State.noteFail; try dsimp only
  (repeat' split) <;> simp
@[simp] theorem State.noteFail_cores (s : State) (st : Nat) : (s.noteFail st).cores = s.cores := by
  unfold State.noteFail; try dsimp only
  (repeat' split) <;> simp
@[simp] theorem State.noteFail_remap (s : State) (st : Nat) : (s.noteFail st).remap = s.remap := by
  unfold State.noteFail; try dsimp only
  (repeat' split) <;> simp
@[simp] theorem State.noteFail_counters (s : State) (st : Nat) : (s.noteFail st).counters = s.counters := by
  unfold State.noteFail; try dsimp only
  (repeat' split) <;> simp
@[simp] theorem State.noteFail_cfg (s : State) (st : Nat) : (s.noteFail st).cfg = s.cfg := by
  unfold State.noteFail; try dsimp only
  (repeat' split) <;> simp
@[simp] theorem State.noteFail_pend (s : State) (st : Nat) : (s.noteFail st).pend = s.pend := by
  unfold State.noteFail; try dsimp only
  (repeat' split) <;> simp
@[simp] theorem State.noteFail_bseq (s : State) (st : Nat) : (s.noteFail st).bseq = s.bseq := by
  unfold State.noteFail; try dsimp only
  (repeat' split) <;> simp
@[simp] theorem State.noteFail_wstat (s : State) (st : Nat) : (s.noteFail st).wstat = s.wstat := by
  unfold State.noteFail; try dsimp only
  (repeat' split) <;> simp
@[simp] theorem State.noteFail_errcnt (s : State) (st : Nat) : (s.noteFail st).errcnt = s.errcnt := by
  unfold State.noteFail; try dsimp only
  (repeat' split) <;> simp
@[simp] theorem State.noteFail_snap (s : State) (st : Nat) : (s.noteFail st).snap = s.snap := by
  unfold State.noteFail; try dsimp only
  (repeat' split) <;> simp
@[simp] theorem State.noteFail_mailboxes (s : State) (st : Nat) : (s.noteFail st).mailboxes = s.mailboxes := by
  unfold State.noteFail; try dsimp only
  (repeat' split) <;> simp
@[simp] theorem State.noteFail_lastMb (s : State) (st : Nat) : (s.noteFail st).lastMb = s.lastMb := by
  unfold State.noteFail; try dsimp only
  (repeat' split) <;> simp
@[simp] theorem State.noteFail_compat (s : State) (st : Nat) : (s.noteFail st).compat = s.compat := by
  unfold State.noteFail; try dsimp only
  (repeat' split) <;> simp
@[simp] theorem State.noteFail_bu (s : State) (st : Nat) : (s.noteFail st).bu = s.bu := by
  unfold State.noteFail; try dsimp only
  (repeat' split) <;> simp
@[simp] theorem State.noteFail_power (s : State) (st : Nat) : (s.noteFail st).power = s.power := by
  unfold State.noteFail; try dsimp only
  (repeat' split) <;> simp
@[simp] theorem State.noteFail_defects (s : State) (st : Nat) : (s.noteFail st).defects = s.defects := by
  unfold State.noteFail; try dsimp only
  (repeat' split) <;> simp
@[simp] theorem State.noteFail_sec (s : State) (st : Nat) : (s.noteFail st).sec = s.sec := by
  unfold State.noteFail; try dsimp only
  (repeat' split) <;> simp
@[simp] theorem State.noteFail_link (s : State) (st : Nat) : (s.noteFail st).link = s.link := by
  unfold State.noteFail; try dsimp only
  (repeat' split) <;> simp
@[simp] theorem State.noteFail_pewter (s : State) (st : Nat) : (s.noteFail st).pewter = s.pewter := by
  unfold State.noteFail; try dsimp only
  (repeat' split) <;> simp
@[simp] theorem State.noteFail_jobs (s : State) (st : Nat) : (s.noteFail st).jobs = s.jobs := by
  unfold State.noteFail; try dsimp only
  (repeat' split) <;> simp
@[simp] theorem State.noteFail_svcs (s : State) (st : Nat) : (s.noteFail st).svcs = s.svcs := by
  unfold State.noteFail; try dsimp only
  (repeat' split) <;> simp
@[simp] theorem State.noteFail_xp (s : State) (st : Nat) : (s.noteFail st).xp = s.xp := by
  unfold State.noteFail; try dsimp only
  (repeat' split) <;> simp
@[simp] theorem State.noteFail_subs (s : State) (st : Nat) : (s.noteFail st).subs = s.subs := by
  unfold State.noteFail; try dsimp only
  (repeat' split) <;> simp
@[simp] theorem State.noteFail_ports (s : State) (st : Nat) : (s.noteFail st).ports = s.ports := by
  unfold State.noteFail; try dsimp only
  (repeat' split) <;> simp
@[simp] theorem State.noteFail_bays (s : State) (st : Nat) : (s.noteFail st).bays = s.bays := by
  unfold State.noteFail; try dsimp only
  (repeat' split) <;> simp
@[simp] theorem State.noteFail_groups (s : State) (st : Nat) : (s.noteFail st).groups = s.groups := by
  unfold State.noteFail; try dsimp only
  (repeat' split) <;> simp
@[simp] theorem State.noteFail_dies (s : State) (st : Nat) : (s.noteFail st).dies = s.dies := by
  unfold State.noteFail; try dsimp only
  (repeat' split) <;> simp
@[simp] theorem State.noteFail_con (s : State) (st : Nat) : (s.noteFail st).con = s.con := by
  unfold State.noteFail; try dsimp only
  (repeat' split) <;> simp
@[simp] theorem State.noteFail_inv (s : State) (st : Nat) : (s.noteFail st).inv = s.inv := by
  unfold State.noteFail; try dsimp only
  (repeat' split) <;> simp
@[simp] theorem State.noteFail_cvs (s : State) (st : Nat) : (s.noteFail st).cvs = s.cvs := by
  unfold State.noteFail; try dsimp only
  (repeat' split) <;> simp
@[simp] theorem State.noteFail_core (s : State) (st : Nat) (o : Nat) : (s.noteFail st).core o = s.core o := by
  simp [State.core]
@[simp] theorem State.noteFail_job (s : State) (st : Nat) (o : Nat) : (s.noteFail st).job? o = s.job? o := by
  simp [State.job?]
@[simp] theorem State.noteFail_svc (s : State) (st : Nat) (o : Nat) : (s.noteFail st).svc? o = s.svc? o := by
  simp [State.svc?]
@[simp] theorem State.noteFail_qp (s : State) (st : Nat) (o : Nat) : (s.noteFail st).qp? o = s.qp? o := by
  simp [State.qp?]
@[simp] theorem State.noteFail_sub (s : State) (st : Nat) (o : Nat) : (s.noteFail st).sub o = s.sub o := by
  simp [State.sub]
@[simp] theorem State.noteFail_port (s : State) (st : Nat) (o : Nat) : (s.noteFail st).port o = s.port o := by
  simp [State.port]
@[simp] theorem State.noteFail_bay (s : State) (st : Nat) (o : Nat) : (s.noteFail st).bay o = s.bay o := by
  simp [State.bay]
@[simp] theorem State.noteFail_grp (s : State) (st : Nat) (o : Nat) : (s.noteFail st).grp o = s.grp o := by
  simp [State.grp]
@[simp] theorem State.noteFail_die (s : State) (st : Nat) (o : Nat) : (s.noteFail st).die o = s.die o := by
  simp [State.die]
@[simp] theorem State.noteFail_chan (s : State) (st : Nat) (o : Nat) : (s.noteFail st).chan o = s.chan o := by
  simp [State.chan]
@[simp] theorem State.noteFail_bridge (s : State) (st : Nat) (o : Nat) : (s.noteFail st).bridge o = s.bridge o := by
  simp [State.bridge]
@[simp] theorem State.noteFail_cv (s : State) (st : Nat) (o : Nat) : (s.noteFail st).cv o = s.cv o := by
  simp [State.cv]
@[simp] theorem State.noteFail_part (s : State) (st : Nat) (o : Nat) : (s.noteFail st).part? o = s.part? o := by
  simp [State.part?]
@[simp] theorem State.noteFail_ctr (s : State) (st : Nat) (o : Nat) : (s.noteFail st).ctr o = s.ctr o := by
  simp [State.ctr]
@[simp] theorem State.noteFail_reg (s : State) (st : Nat) (b : Blk) (o : Nat) : (s.noteFail st).reg b o = s.reg b o := by
  simp [State.reg]

/-! ### slotFail -/

@[simp] theorem State.slotFail_pending (s : State) (mb : Nat) : (s.slotFail mb).pending = s.pending := by
  unfold State.slotFail State.noteUe; try dsimp only
  (repeat' split) <;> simp
@[simp] theorem State.slotFail_tick (s : State) (mb : Nat) : (s.slotFail mb).tick = s.tick := by
  unfold State.slotFail State.noteUe; try dsimp only
  (repeat' split) <;> simp
@[simp] theorem State.slotFail_free (s : State) (mb : Nat) : (s.slotFail mb).free = s.free := by
  unfold State.slotFail State.noteUe; try dsimp only
  (repeat' split) <;> simp
@[simp] theorem State.slotFail_hostMem (s : State) (mb : Nat) : (s.slotFail mb).hostMem = s.hostMem := by
  unfold State.slotFail State.noteUe; try dsimp only
  (repeat' split) <;> simp
@[simp] theorem State.slotFail_busOut (s : State) (mb : Nat) : (s.slotFail mb).busOut = s.busOut := by
  unfold State.slotFail State.noteUe; try dsimp only
  (repeat' split) <;> simp
@[simp] theorem State.slotFail_devMem (s : State) (mb : Nat) : (s.slotFail mb).devMem = s.devMem := by
  unfold State.slotFail State.noteUe; try dsimp only
  (repeat' split) <;> simp
@[simp] theorem State.slotFail_localMem (s : State) (mb : Nat) : (s.slotFail mb).localMem = s.localMem := by
  unfold State.slotFail State.noteUe; try dsimp only
  (repeat' split) <;> simp
@[simp] theorem State.slotFail_acc (s : State) (mb : Nat) : (s.slotFail mb).acc = s.acc := by
  unfold State.slotFail State.noteUe; try dsimp only
  (repeat' split) <;> simp
@[simp] theorem State.slotFail_accFlags (s : State) (mb : Nat) : (s.slotFail mb).accFlags = s.accFlags := by
  unfold State.slotFail State.noteUe; try dsimp only
  (repeat' split) <;> simp
@[simp] theorem State.slotFail_accGen (s : State) (mb : Nat) : (s.slotFail mb).accGen = s.accGen := by
  unfold State.slotFail State.noteUe; try dsimp only
  (repeat' split) <;> simp
@[simp] theorem State.slotFail_era (s : State) (mb : Nat) : (s.slotFail mb).era = s.era := by
  unfold State.slotFail State.noteUe; try dsimp only
  (repeat' split) <;> simp
@[simp] theorem State.slotFail_cores (s : State) (mb : Nat) : (s.slotFail mb).cores = s.cores := by
  unfold State.slotFail State.noteUe; try dsimp only
  (repeat' split) <;> simp
@[simp] theorem State.slotFail_remap (s : State) (mb : Nat) : (s.slotFail mb).remap = s.remap := by
  unfold State.slotFail State.noteUe; try dsimp only
  (repeat' split) <;> simp
@[simp] theorem State.slotFail_counters (s : State) (mb : Nat) : (s.slotFail mb).counters = s.counters := by
  unfold State.slotFail State.noteUe; try dsimp only
  (repeat' split) <;> simp
@[simp] theorem State.slotFail_cfg (s : State) (mb : Nat) : (s.slotFail mb).cfg = s.cfg := by
  unfold State.slotFail State.noteUe; try dsimp only
  (repeat' split) <;> simp
@[simp] theorem State.slotFail_pend (s : State) (mb : Nat) : (s.slotFail mb).pend = s.pend := by
  unfold State.slotFail State.noteUe; try dsimp only
  (repeat' split) <;> simp
@[simp] theorem State.slotFail_bseq (s : State) (mb : Nat) : (s.slotFail mb).bseq = s.bseq := by
  unfold State.slotFail State.noteUe; try dsimp only
  (repeat' split) <;> simp
@[simp] theorem State.slotFail_wstat (s : State) (mb : Nat) : (s.slotFail mb).wstat = s.wstat := by
  unfold State.slotFail State.noteUe; try dsimp only
  (repeat' split) <;> simp
@[simp] theorem State.slotFail_errcnt (s : State) (mb : Nat) : (s.slotFail mb).errcnt = s.errcnt := by
  unfold State.slotFail State.noteUe; try dsimp only
  (repeat' split) <;> simp
@[simp] theorem State.slotFail_snap (s : State) (mb : Nat) : (s.slotFail mb).snap = s.snap := by
  unfold State.slotFail State.noteUe; try dsimp only
  (repeat' split) <;> simp
@[simp] theorem State.slotFail_mailboxes (s : State) (mb : Nat) : (s.slotFail mb).mailboxes = s.mailboxes := by
  unfold State.slotFail State.noteUe; try dsimp only
  (repeat' split) <;> simp
@[simp] theorem State.slotFail_lastMb (s : State) (mb : Nat) : (s.slotFail mb).lastMb = s.lastMb := by
  unfold State.slotFail State.noteUe; try dsimp only
  (repeat' split) <;> simp
@[simp] theorem State.slotFail_compat (s : State) (mb : Nat) : (s.slotFail mb).compat = s.compat := by
  unfold State.slotFail State.noteUe; try dsimp only
  (repeat' split) <;> simp
@[simp] theorem State.slotFail_bu (s : State) (mb : Nat) : (s.slotFail mb).bu = s.bu := by
  unfold State.slotFail State.noteUe; try dsimp only
  (repeat' split) <;> simp
@[simp] theorem State.slotFail_power (s : State) (mb : Nat) : (s.slotFail mb).power = s.power := by
  unfold State.slotFail State.noteUe; try dsimp only
  (repeat' split) <;> simp
@[simp] theorem State.slotFail_defects (s : State) (mb : Nat) : (s.slotFail mb).defects = s.defects := by
  unfold State.slotFail State.noteUe; try dsimp only
  (repeat' split) <;> simp
@[simp] theorem State.slotFail_sec (s : State) (mb : Nat) : (s.slotFail mb).sec = s.sec := by
  unfold State.slotFail State.noteUe; try dsimp only
  (repeat' split) <;> simp
@[simp] theorem State.slotFail_link (s : State) (mb : Nat) : (s.slotFail mb).link = s.link := by
  unfold State.slotFail State.noteUe; try dsimp only
  (repeat' split) <;> simp
@[simp] theorem State.slotFail_pewter (s : State) (mb : Nat) : (s.slotFail mb).pewter = s.pewter := by
  unfold State.slotFail State.noteUe; try dsimp only
  (repeat' split) <;> simp
@[simp] theorem State.slotFail_jobs (s : State) (mb : Nat) : (s.slotFail mb).jobs = s.jobs := by
  unfold State.slotFail State.noteUe; try dsimp only
  (repeat' split) <;> simp
@[simp] theorem State.slotFail_svcs (s : State) (mb : Nat) : (s.slotFail mb).svcs = s.svcs := by
  unfold State.slotFail State.noteUe; try dsimp only
  (repeat' split) <;> simp
@[simp] theorem State.slotFail_xp (s : State) (mb : Nat) : (s.slotFail mb).xp = s.xp := by
  unfold State.slotFail State.noteUe; try dsimp only
  (repeat' split) <;> simp
@[simp] theorem State.slotFail_subs (s : State) (mb : Nat) : (s.slotFail mb).subs = s.subs := by
  unfold State.slotFail State.noteUe; try dsimp only
  (repeat' split) <;> simp
@[simp] theorem State.slotFail_ports (s : State) (mb : Nat) : (s.slotFail mb).ports = s.ports := by
  unfold State.slotFail State.noteUe; try dsimp only
  (repeat' split) <;> simp
@[simp] theorem State.slotFail_bays (s : State) (mb : Nat) : (s.slotFail mb).bays = s.bays := by
  unfold State.slotFail State.noteUe; try dsimp only
  (repeat' split) <;> simp
@[simp] theorem State.slotFail_groups (s : State) (mb : Nat) : (s.slotFail mb).groups = s.groups := by
  unfold State.slotFail State.noteUe; try dsimp only
  (repeat' split) <;> simp
@[simp] theorem State.slotFail_dies (s : State) (mb : Nat) : (s.slotFail mb).dies = s.dies := by
  unfold State.slotFail State.noteUe; try dsimp only
  (repeat' split) <;> simp
@[simp] theorem State.slotFail_con (s : State) (mb : Nat) : (s.slotFail mb).con = s.con := by
  unfold State.slotFail State.noteUe; try dsimp only
  (repeat' split) <;> simp
@[simp] theorem State.slotFail_inv (s : State) (mb : Nat) : (s.slotFail mb).inv = s.inv := by
  unfold State.slotFail State.noteUe; try dsimp only
  (repeat' split) <;> simp
@[simp] theorem State.slotFail_cvs (s : State) (mb : Nat) : (s.slotFail mb).cvs = s.cvs := by
  unfold State.slotFail State.noteUe; try dsimp only
  (repeat' split) <;> simp
@[simp] theorem State.slotFail_core (s : State) (mb : Nat) (o : Nat) : (s.slotFail mb).core o = s.core o := by
  simp [State.core]
@[simp] theorem State.slotFail_job (s : State) (mb : Nat) (o : Nat) : (s.slotFail mb).job? o = s.job? o := by
  simp [State.job?]
@[simp] theorem State.slotFail_svc (s : State) (mb : Nat) (o : Nat) : (s.slotFail mb).svc? o = s.svc? o := by
  simp [State.svc?]
@[simp] theorem State.slotFail_qp (s : State) (mb : Nat) (o : Nat) : (s.slotFail mb).qp? o = s.qp? o := by
  simp [State.qp?]
@[simp] theorem State.slotFail_sub (s : State) (mb : Nat) (o : Nat) : (s.slotFail mb).sub o = s.sub o := by
  simp [State.sub]
@[simp] theorem State.slotFail_port (s : State) (mb : Nat) (o : Nat) : (s.slotFail mb).port o = s.port o := by
  simp [State.port]
@[simp] theorem State.slotFail_bay (s : State) (mb : Nat) (o : Nat) : (s.slotFail mb).bay o = s.bay o := by
  simp [State.bay]
@[simp] theorem State.slotFail_grp (s : State) (mb : Nat) (o : Nat) : (s.slotFail mb).grp o = s.grp o := by
  simp [State.grp]
@[simp] theorem State.slotFail_die (s : State) (mb : Nat) (o : Nat) : (s.slotFail mb).die o = s.die o := by
  simp [State.die]
@[simp] theorem State.slotFail_chan (s : State) (mb : Nat) (o : Nat) : (s.slotFail mb).chan o = s.chan o := by
  simp [State.chan]
@[simp] theorem State.slotFail_bridge (s : State) (mb : Nat) (o : Nat) : (s.slotFail mb).bridge o = s.bridge o := by
  simp [State.bridge]
@[simp] theorem State.slotFail_cv (s : State) (mb : Nat) (o : Nat) : (s.slotFail mb).cv o = s.cv o := by
  simp [State.cv]
@[simp] theorem State.slotFail_part (s : State) (mb : Nat) (o : Nat) : (s.slotFail mb).part? o = s.part? o := by
  simp [State.part?]
@[simp] theorem State.slotFail_ctr (s : State) (mb : Nat) (o : Nat) : (s.slotFail mb).ctr o = s.ctr o := by
  simp [State.ctr]
@[simp] theorem State.slotFail_reg (s : State) (mb : Nat) (b : Blk) (o : Nat) : (s.slotFail mb).reg b o = s.reg b o := by
  simp [State.reg]
@[simp] theorem State.slotFail_store (s : State) (mb : Nat) : (s.slotFail mb).store = s.store := by
  unfold State.slotFail State.noteUe; try dsimp only
  (repeat' split) <;> simp

/-! ### mbError -/

@[simp] theorem State.mbError_pending (s : State) (mb c : Nat) : (s.mbError mb c).pending = s.pending := by
  rfl
@[simp] theorem State.mbError_tick (s : State) (mb c : Nat) : (s.mbError mb c).tick = s.tick := by
  rfl
@[simp] theorem State.mbError_free (s : State) (mb c : Nat) : (s.mbError mb c).free = s.free := by
  rfl
@[simp] theorem State.mbError_hostMem (s : State) (mb c : Nat) : (s.mbError mb c).hostMem = s.hostMem := by
  rfl
@[simp] theorem State.mbError_busOut (s : State) (mb c : Nat) : (s.mbError mb c).busOut = s.busOut := by
  rfl
@[simp] theorem State.mbError_devMem (s : State) (mb c : Nat) : (s.mbError mb c).devMem = s.devMem := by
  rfl
@[simp] theorem State.mbError_localMem (s : State) (mb c : Nat) : (s.mbError mb c).localMem = s.localMem := by
  rfl
@[simp] theorem State.mbError_acc (s : State) (mb c : Nat) : (s.mbError mb c).acc = s.acc := by
  rfl
@[simp] theorem State.mbError_accFlags (s : State) (mb c : Nat) : (s.mbError mb c).accFlags = s.accFlags := by
  rfl
@[simp] theorem State.mbError_accGen (s : State) (mb c : Nat) : (s.mbError mb c).accGen = s.accGen := by
  rfl
@[simp] theorem State.mbError_era (s : State) (mb c : Nat) : (s.mbError mb c).era = s.era := by
  rfl
@[simp] theorem State.mbError_cores (s : State) (mb c : Nat) : (s.mbError mb c).cores = s.cores := by
  rfl
@[simp] theorem State.mbError_remap (s : State) (mb c : Nat) : (s.mbError mb c).remap = s.remap := by
  rfl
@[simp] theorem State.mbError_counters (s : State) (mb c : Nat) : (s.mbError mb c).counters = s.counters := by
  rfl
@[simp] theorem State.mbError_cfg (s : State) (mb c : Nat) : (s.mbError mb c).cfg = s.cfg := by
  rfl
@[simp] theorem State.mbError_pend (s : State) (mb c : Nat) : (s.mbError mb c).pend = s.pend := by
  rfl
@[simp] theorem State.mbError_bseq (s : State) (mb c : Nat) : (s.mbError mb c).bseq = s.bseq := by
  rfl
@[simp] theorem State.mbError_wstat (s : State) (mb c : Nat) : (s.mbError mb c).wstat = s.wstat := by
  rfl
@[simp] theorem State.mbError_errcnt (s : State) (mb c : Nat) : (s.mbError mb c).errcnt = s.errcnt := by
  rfl
@[simp] theorem State.mbError_snap (s : State) (mb c : Nat) : (s.mbError mb c).snap = s.snap := by
  rfl
@[simp] theorem State.mbError_lastMb (s : State) (mb c : Nat) : (s.mbError mb c).lastMb = s.lastMb := by
  rfl
@[simp] theorem State.mbError_compat (s : State) (mb c : Nat) : (s.mbError mb c).compat = s.compat := by
  rfl
@[simp] theorem State.mbError_bu (s : State) (mb c : Nat) : (s.mbError mb c).bu = s.bu := by
  rfl
@[simp] theorem State.mbError_power (s : State) (mb c : Nat) : (s.mbError mb c).power = s.power := by
  rfl
@[simp] theorem State.mbError_defects (s : State) (mb c : Nat) : (s.mbError mb c).defects = s.defects := by
  rfl
@[simp] theorem State.mbError_sec (s : State) (mb c : Nat) : (s.mbError mb c).sec = s.sec := by
  rfl
@[simp] theorem State.mbError_mem (s : State) (mb c : Nat) : (s.mbError mb c).mem = s.mem := by
  rfl
@[simp] theorem State.mbError_store (s : State) (mb c : Nat) : (s.mbError mb c).store = s.store := by
  rfl
@[simp] theorem State.mbError_link (s : State) (mb c : Nat) : (s.mbError mb c).link = s.link := by
  rfl
@[simp] theorem State.mbError_pewter (s : State) (mb c : Nat) : (s.mbError mb c).pewter = s.pewter := by
  rfl
@[simp] theorem State.mbError_jobs (s : State) (mb c : Nat) : (s.mbError mb c).jobs = s.jobs := by
  rfl
@[simp] theorem State.mbError_svcs (s : State) (mb c : Nat) : (s.mbError mb c).svcs = s.svcs := by
  rfl
@[simp] theorem State.mbError_xp (s : State) (mb c : Nat) : (s.mbError mb c).xp = s.xp := by
  rfl
@[simp] theorem State.mbError_subs (s : State) (mb c : Nat) : (s.mbError mb c).subs = s.subs := by
  rfl
@[simp] theorem State.mbError_ports (s : State) (mb c : Nat) : (s.mbError mb c).ports = s.ports := by
  rfl
@[simp] theorem State.mbError_bays (s : State) (mb c : Nat) : (s.mbError mb c).bays = s.bays := by
  rfl
@[simp] theorem State.mbError_groups (s : State) (mb c : Nat) : (s.mbError mb c).groups = s.groups := by
  rfl
@[simp] theorem State.mbError_dies (s : State) (mb c : Nat) : (s.mbError mb c).dies = s.dies := by
  rfl
@[simp] theorem State.mbError_con (s : State) (mb c : Nat) : (s.mbError mb c).con = s.con := by
  rfl
@[simp] theorem State.mbError_inv (s : State) (mb c : Nat) : (s.mbError mb c).inv = s.inv := by
  rfl
@[simp] theorem State.mbError_cvs (s : State) (mb c : Nat) : (s.mbError mb c).cvs = s.cvs := by
  rfl
@[simp] theorem State.mbError_core (s : State) (mb c : Nat) (o : Nat) : (s.mbError mb c).core o = s.core o := by
  simp [State.core]
@[simp] theorem State.mbError_job (s : State) (mb c : Nat) (o : Nat) : (s.mbError mb c).job? o = s.job? o := by
  simp [State.job?]
@[simp] theorem State.mbError_svc (s : State) (mb c : Nat) (o : Nat) : (s.mbError mb c).svc? o = s.svc? o := by
  simp [State.svc?]
@[simp] theorem State.mbError_qp (s : State) (mb c : Nat) (o : Nat) : (s.mbError mb c).qp? o = s.qp? o := by
  simp [State.qp?]
@[simp] theorem State.mbError_sub (s : State) (mb c : Nat) (o : Nat) : (s.mbError mb c).sub o = s.sub o := by
  simp [State.sub]
@[simp] theorem State.mbError_port (s : State) (mb c : Nat) (o : Nat) : (s.mbError mb c).port o = s.port o := by
  simp [State.port]
@[simp] theorem State.mbError_bay (s : State) (mb c : Nat) (o : Nat) : (s.mbError mb c).bay o = s.bay o := by
  simp [State.bay]
@[simp] theorem State.mbError_grp (s : State) (mb c : Nat) (o : Nat) : (s.mbError mb c).grp o = s.grp o := by
  simp [State.grp]
@[simp] theorem State.mbError_die (s : State) (mb c : Nat) (o : Nat) : (s.mbError mb c).die o = s.die o := by
  simp [State.die]
@[simp] theorem State.mbError_chan (s : State) (mb c : Nat) (o : Nat) : (s.mbError mb c).chan o = s.chan o := by
  simp [State.chan]
@[simp] theorem State.mbError_bridge (s : State) (mb c : Nat) (o : Nat) : (s.mbError mb c).bridge o = s.bridge o := by
  simp [State.bridge]
@[simp] theorem State.mbError_cv (s : State) (mb c : Nat) (o : Nat) : (s.mbError mb c).cv o = s.cv o := by
  simp [State.cv]
@[simp] theorem State.mbError_part (s : State) (mb c : Nat) (o : Nat) : (s.mbError mb c).part? o = s.part? o := by
  simp [State.part?]
@[simp] theorem State.mbError_ctr (s : State) (mb c : Nat) (o : Nat) : (s.mbError mb c).ctr o = s.ctr o := by
  simp [State.ctr]
@[simp] theorem State.mbError_reg (s : State) (mb c : Nat) (b : Blk) (o : Nat) : (s.mbError mb c).reg b o = s.reg b o := by
  simp [State.reg]

/-! ### putResponse -/

@[simp] theorem State.putResponse_pending (s : State) (mb : Nat) (bs : List Byte) (ni : Bool) : (s.putResponse mb bs ni).pending = s.pending := by
  unfold State.putResponse; try dsimp only
  (repeat' split) <;> simp
@[simp] theorem State.putResponse_tick (s : State) (mb : Nat) (bs : List Byte) (ni : Bool) : (s.putResponse mb bs ni).tick = s.tick := by
  unfold State.putResponse; try dsimp only
  (repeat' split) <;> simp
@[simp] theorem State.putResponse_free (s : State) (mb : Nat) (bs : List Byte) (ni : Bool) : (s.putResponse mb bs ni).free = s.free := by
  unfold State.putResponse; try dsimp only
  (repeat' split) <;> simp
@[simp] theorem State.putResponse_busOut (s : State) (mb : Nat) (bs : List Byte) (ni : Bool) : (s.putResponse mb bs ni).busOut = s.busOut := by
  unfold State.putResponse; try dsimp only
  (repeat' split) <;> simp
@[simp] theorem State.putResponse_localMem (s : State) (mb : Nat) (bs : List Byte) (ni : Bool) : (s.putResponse mb bs ni).localMem = s.localMem := by
  unfold State.putResponse; try dsimp only
  (repeat' split) <;> simp
@[simp] theorem State.putResponse_acc (s : State) (mb : Nat) (bs : List Byte) (ni : Bool) : (s.putResponse mb bs ni).acc = s.acc := by
  unfold State.putResponse; try dsimp only
  (repeat' split) <;> simp
@[simp] theorem State.putResponse_accFlags (s : State) (mb : Nat) (bs : List Byte) (ni : Bool) : (s.putResponse mb bs ni).accFlags = s.accFlags := by
  unfold State.putResponse; try dsimp only
  (repeat' split) <;> simp
@[simp] theorem State.putResponse_accGen (s : State) (mb : Nat) (bs : List Byte) (ni : Bool) : (s.putResponse mb bs ni).accGen = s.accGen := by
  unfold State.putResponse; try dsimp only
  (repeat' split) <;> simp
@[simp] theorem State.putResponse_era (s : State) (mb : Nat) (bs : List Byte) (ni : Bool) : (s.putResponse mb bs ni).era = s.era := by
  unfold State.putResponse; try dsimp only
  (repeat' split) <;> simp
@[simp] theorem State.putResponse_cores (s : State) (mb : Nat) (bs : List Byte) (ni : Bool) : (s.putResponse mb bs ni).cores = s.cores := by
  unfold State.putResponse; try dsimp only
  (repeat' split) <;> simp
@[simp] theorem State.putResponse_remap (s : State) (mb : Nat) (bs : List Byte) (ni : Bool) : (s.putResponse mb bs ni).remap = s.remap := by
  unfold State.putResponse; try dsimp only
  (repeat' split) <;> simp
@[simp] theorem State.putResponse_counters (s : State) (mb : Nat) (bs : List Byte) (ni : Bool) : (s.putResponse mb bs ni).counters = s.counters := by
  unfold State.putResponse; try dsimp only
  (repeat' split) <;> simp
@[simp] theorem State.putResponse_cfg (s : State) (mb : Nat) (bs : List Byte) (ni : Bool) : (s.putResponse mb bs ni).cfg = s.cfg := by
  unfold State.putResponse; try dsimp only
  (repeat' split) <;> simp
@[simp] theorem State.putResponse_pend (s : State) (mb : Nat) (bs : List Byte) (ni : Bool) : (s.putResponse mb bs ni).pend = s.pend := by
  unfold State.putResponse; try dsimp only
  (repeat' split) <;> simp
@[simp] theorem State.putResponse_bseq (s : State) (mb : Nat) (bs : List Byte) (ni : Bool) : (s.putResponse mb bs ni).bseq = s.bseq := by
  unfold State.putResponse; try dsimp only
  (repeat' split) <;> simp
@[simp] theorem State.putResponse_wstat (s : State) (mb : Nat) (bs : List Byte) (ni : Bool) : (s.putResponse mb bs ni).wstat = s.wstat := by
  unfold State.putResponse; try dsimp only
  (repeat' split) <;> simp
@[simp] theorem State.putResponse_errcnt (s : State) (mb : Nat) (bs : List Byte) (ni : Bool) : (s.putResponse mb bs ni).errcnt = s.errcnt := by
  unfold State.putResponse; try dsimp only
  (repeat' split) <;> simp
@[simp] theorem State.putResponse_snap (s : State) (mb : Nat) (bs : List Byte) (ni : Bool) : (s.putResponse mb bs ni).snap = s.snap := by
  unfold State.putResponse; try dsimp only
  (repeat' split) <;> simp
@[simp] theorem State.putResponse_lastMb (s : State) (mb : Nat) (bs : List Byte) (ni : Bool) : (s.putResponse mb bs ni).lastMb = s.lastMb := by
  unfold State.putResponse; try dsimp only
  (repeat' split) <;> simp
@[simp] theorem State.putResponse_compat (s : State) (mb : Nat) (bs : List Byte) (ni : Bool) : (s.putResponse mb bs ni).compat = s.compat := by
  unfold State.putResponse; try dsimp only
  (repeat' split) <;> simp
@[simp] theorem State.putResponse_bu (s : State) (mb : Nat) (bs : List Byte) (ni : Bool) : (s.putResponse mb bs ni).bu = s.bu := by
  unfold State.putResponse; try dsimp only
  (repeat' split) <;> simp
@[simp] theorem State.putResponse_power (s : State) (mb : Nat) (bs : List Byte) (ni : Bool) : (s.putResponse mb bs ni).power = s.power := by
  unfold State.putResponse; try dsimp only
  (repeat' split) <;> simp
@[simp] theorem State.putResponse_defects (s : State) (mb : Nat) (bs : List Byte) (ni : Bool) : (s.putResponse mb bs ni).defects = s.defects := by
  unfold State.putResponse; try dsimp only
  (repeat' split) <;> simp
@[simp] theorem State.putResponse_sec (s : State) (mb : Nat) (bs : List Byte) (ni : Bool) : (s.putResponse mb bs ni).sec = s.sec := by
  unfold State.putResponse; try dsimp only
  (repeat' split) <;> simp
@[simp] theorem State.putResponse_store (s : State) (mb : Nat) (bs : List Byte) (ni : Bool) : (s.putResponse mb bs ni).store = s.store := by
  unfold State.putResponse; try dsimp only
  (repeat' split) <;> simp
@[simp] theorem State.putResponse_pewter (s : State) (mb : Nat) (bs : List Byte) (ni : Bool) : (s.putResponse mb bs ni).pewter = s.pewter := by
  unfold State.putResponse; try dsimp only
  (repeat' split) <;> simp
@[simp] theorem State.putResponse_jobs (s : State) (mb : Nat) (bs : List Byte) (ni : Bool) : (s.putResponse mb bs ni).jobs = s.jobs := by
  unfold State.putResponse; try dsimp only
  (repeat' split) <;> simp
@[simp] theorem State.putResponse_svcs (s : State) (mb : Nat) (bs : List Byte) (ni : Bool) : (s.putResponse mb bs ni).svcs = s.svcs := by
  unfold State.putResponse; try dsimp only
  (repeat' split) <;> simp
@[simp] theorem State.putResponse_xp (s : State) (mb : Nat) (bs : List Byte) (ni : Bool) : (s.putResponse mb bs ni).xp = s.xp := by
  unfold State.putResponse; try dsimp only
  (repeat' split) <;> simp
@[simp] theorem State.putResponse_subs (s : State) (mb : Nat) (bs : List Byte) (ni : Bool) : (s.putResponse mb bs ni).subs = s.subs := by
  unfold State.putResponse; try dsimp only
  (repeat' split) <;> simp
@[simp] theorem State.putResponse_ports (s : State) (mb : Nat) (bs : List Byte) (ni : Bool) : (s.putResponse mb bs ni).ports = s.ports := by
  unfold State.putResponse; try dsimp only
  (repeat' split) <;> simp
@[simp] theorem State.putResponse_bays (s : State) (mb : Nat) (bs : List Byte) (ni : Bool) : (s.putResponse mb bs ni).bays = s.bays := by
  unfold State.putResponse; try dsimp only
  (repeat' split) <;> simp
@[simp] theorem State.putResponse_groups (s : State) (mb : Nat) (bs : List Byte) (ni : Bool) : (s.putResponse mb bs ni).groups = s.groups := by
  unfold State.putResponse; try dsimp only
  (repeat' split) <;> simp
@[simp] theorem State.putResponse_dies (s : State) (mb : Nat) (bs : List Byte) (ni : Bool) : (s.putResponse mb bs ni).dies = s.dies := by
  unfold State.putResponse; try dsimp only
  (repeat' split) <;> simp
@[simp] theorem State.putResponse_con (s : State) (mb : Nat) (bs : List Byte) (ni : Bool) : (s.putResponse mb bs ni).con = s.con := by
  unfold State.putResponse; try dsimp only
  (repeat' split) <;> simp
@[simp] theorem State.putResponse_inv (s : State) (mb : Nat) (bs : List Byte) (ni : Bool) : (s.putResponse mb bs ni).inv = s.inv := by
  unfold State.putResponse; try dsimp only
  (repeat' split) <;> simp
@[simp] theorem State.putResponse_cvs (s : State) (mb : Nat) (bs : List Byte) (ni : Bool) : (s.putResponse mb bs ni).cvs = s.cvs := by
  unfold State.putResponse; try dsimp only
  (repeat' split) <;> simp
@[simp] theorem State.putResponse_core (s : State) (mb : Nat) (bs : List Byte) (ni : Bool) (o : Nat) : (s.putResponse mb bs ni).core o = s.core o := by
  simp [State.core]
@[simp] theorem State.putResponse_job (s : State) (mb : Nat) (bs : List Byte) (ni : Bool) (o : Nat) : (s.putResponse mb bs ni).job? o = s.job? o := by
  simp [State.job?]
@[simp] theorem State.putResponse_svc (s : State) (mb : Nat) (bs : List Byte) (ni : Bool) (o : Nat) : (s.putResponse mb bs ni).svc? o = s.svc? o := by
  simp [State.svc?]
@[simp] theorem State.putResponse_qp (s : State) (mb : Nat) (bs : List Byte) (ni : Bool) (o : Nat) : (s.putResponse mb bs ni).qp? o = s.qp? o := by
  simp [State.qp?]
@[simp] theorem State.putResponse_sub (s : State) (mb : Nat) (bs : List Byte) (ni : Bool) (o : Nat) : (s.putResponse mb bs ni).sub o = s.sub o := by
  simp [State.sub]
@[simp] theorem State.putResponse_port (s : State) (mb : Nat) (bs : List Byte) (ni : Bool) (o : Nat) : (s.putResponse mb bs ni).port o = s.port o := by
  simp [State.port]
@[simp] theorem State.putResponse_bay (s : State) (mb : Nat) (bs : List Byte) (ni : Bool) (o : Nat) : (s.putResponse mb bs ni).bay o = s.bay o := by
  simp [State.bay]
@[simp] theorem State.putResponse_grp (s : State) (mb : Nat) (bs : List Byte) (ni : Bool) (o : Nat) : (s.putResponse mb bs ni).grp o = s.grp o := by
  simp [State.grp]
@[simp] theorem State.putResponse_die (s : State) (mb : Nat) (bs : List Byte) (ni : Bool) (o : Nat) : (s.putResponse mb bs ni).die o = s.die o := by
  simp [State.die]
@[simp] theorem State.putResponse_chan (s : State) (mb : Nat) (bs : List Byte) (ni : Bool) (o : Nat) : (s.putResponse mb bs ni).chan o = s.chan o := by
  simp [State.chan]
@[simp] theorem State.putResponse_bridge (s : State) (mb : Nat) (bs : List Byte) (ni : Bool) (o : Nat) : (s.putResponse mb bs ni).bridge o = s.bridge o := by
  simp [State.bridge]
@[simp] theorem State.putResponse_cv (s : State) (mb : Nat) (bs : List Byte) (ni : Bool) (o : Nat) : (s.putResponse mb bs ni).cv o = s.cv o := by
  simp [State.cv]
@[simp] theorem State.putResponse_part (s : State) (mb : Nat) (bs : List Byte) (ni : Bool) (o : Nat) : (s.putResponse mb bs ni).part? o = s.part? o := by
  simp [State.part?]
@[simp] theorem State.putResponse_ctr (s : State) (mb : Nat) (bs : List Byte) (ni : Bool) (o : Nat) : (s.putResponse mb bs ni).ctr o = s.ctr o := by
  simp [State.ctr]
@[simp] theorem State.putResponse_reg (s : State) (mb : Nat) (bs : List Byte) (ni : Bool) (b : Blk) (o : Nat) : (s.putResponse mb bs ni).reg b o = s.reg b o := by
  simp [State.reg]

/-! ### respond -/

@[simp] theorem State.respond_pending (s : State) (mb tag : Nat) (ni : Bool) (st : Nat) (res : List Byte) : (s.respond mb tag ni st res).pending = s.pending := by
  unfold State.respond; try dsimp only
  (repeat' split) <;> simp
@[simp] theorem State.respond_tick (s : State) (mb tag : Nat) (ni : Bool) (st : Nat) (res : List Byte) : (s.respond mb tag ni st res).tick = s.tick := by
  unfold State.respond; try dsimp only
  (repeat' split) <;> simp
@[simp] theorem State.respond_free (s : State) (mb tag : Nat) (ni : Bool) (st : Nat) (res : List Byte) : (s.respond mb tag ni st res).free = s.free := by
  unfold State.respond; try dsimp only
  (repeat' split) <;> simp
@[simp] theorem State.respond_busOut (s : State) (mb tag : Nat) (ni : Bool) (st : Nat) (res : List Byte) : (s.respond mb tag ni st res).busOut = s.busOut := by
  unfold State.respond; try dsimp only
  (repeat' split) <;> simp
@[simp] theorem State.respond_localMem (s : State) (mb tag : Nat) (ni : Bool) (st : Nat) (res : List Byte) : (s.respond mb tag ni st res).localMem = s.localMem := by
  unfold State.respond; try dsimp only
  (repeat' split) <;> simp
@[simp] theorem State.respond_acc (s : State) (mb tag : Nat) (ni : Bool) (st : Nat) (res : List Byte) : (s.respond mb tag ni st res).acc = s.acc := by
  unfold State.respond; try dsimp only
  (repeat' split) <;> simp
@[simp] theorem State.respond_accFlags (s : State) (mb tag : Nat) (ni : Bool) (st : Nat) (res : List Byte) : (s.respond mb tag ni st res).accFlags = s.accFlags := by
  unfold State.respond; try dsimp only
  (repeat' split) <;> simp
@[simp] theorem State.respond_accGen (s : State) (mb tag : Nat) (ni : Bool) (st : Nat) (res : List Byte) : (s.respond mb tag ni st res).accGen = s.accGen := by
  unfold State.respond; try dsimp only
  (repeat' split) <;> simp
@[simp] theorem State.respond_era (s : State) (mb tag : Nat) (ni : Bool) (st : Nat) (res : List Byte) : (s.respond mb tag ni st res).era = s.era := by
  unfold State.respond; try dsimp only
  (repeat' split) <;> simp
@[simp] theorem State.respond_cores (s : State) (mb tag : Nat) (ni : Bool) (st : Nat) (res : List Byte) : (s.respond mb tag ni st res).cores = s.cores := by
  unfold State.respond; try dsimp only
  (repeat' split) <;> simp
@[simp] theorem State.respond_remap (s : State) (mb tag : Nat) (ni : Bool) (st : Nat) (res : List Byte) : (s.respond mb tag ni st res).remap = s.remap := by
  unfold State.respond; try dsimp only
  (repeat' split) <;> simp
@[simp] theorem State.respond_counters (s : State) (mb tag : Nat) (ni : Bool) (st : Nat) (res : List Byte) : (s.respond mb tag ni st res).counters = s.counters := by
  unfold State.respond; try dsimp only
  (repeat' split) <;> simp
@[simp] theorem State.respond_cfg (s : State) (mb tag : Nat) (ni : Bool) (st : Nat) (res : List Byte) : (s.respond mb tag ni st res).cfg = s.cfg := by
  unfold State.respond; try dsimp only
  (repeat' split) <;> simp
@[simp] theorem State.respond_pend (s : State) (mb tag : Nat) (ni : Bool) (st : Nat) (res : List Byte) : (s.respond mb tag ni st res).pend = s.pend := by
  unfold State.respond; try dsimp only
  (repeat' split) <;> simp
@[simp] theorem State.respond_bseq (s : State) (mb tag : Nat) (ni : Bool) (st : Nat) (res : List Byte) : (s.respond mb tag ni st res).bseq = s.bseq := by
  unfold State.respond; try dsimp only
  (repeat' split) <;> simp
@[simp] theorem State.respond_wstat (s : State) (mb tag : Nat) (ni : Bool) (st : Nat) (res : List Byte) : (s.respond mb tag ni st res).wstat = s.wstat := by
  unfold State.respond; try dsimp only
  (repeat' split) <;> simp
@[simp] theorem State.respond_errcnt (s : State) (mb tag : Nat) (ni : Bool) (st : Nat) (res : List Byte) : (s.respond mb tag ni st res).errcnt = s.errcnt := by
  unfold State.respond; try dsimp only
  (repeat' split) <;> simp
@[simp] theorem State.respond_snap (s : State) (mb tag : Nat) (ni : Bool) (st : Nat) (res : List Byte) : (s.respond mb tag ni st res).snap = s.snap := by
  unfold State.respond; try dsimp only
  (repeat' split) <;> simp
@[simp] theorem State.respond_lastMb (s : State) (mb tag : Nat) (ni : Bool) (st : Nat) (res : List Byte) : (s.respond mb tag ni st res).lastMb = s.lastMb := by
  unfold State.respond; try dsimp only
  (repeat' split) <;> simp
@[simp] theorem State.respond_compat (s : State) (mb tag : Nat) (ni : Bool) (st : Nat) (res : List Byte) : (s.respond mb tag ni st res).compat = s.compat := by
  unfold State.respond; try dsimp only
  (repeat' split) <;> simp
@[simp] theorem State.respond_bu (s : State) (mb tag : Nat) (ni : Bool) (st : Nat) (res : List Byte) : (s.respond mb tag ni st res).bu = s.bu := by
  unfold State.respond; try dsimp only
  (repeat' split) <;> simp
@[simp] theorem State.respond_power (s : State) (mb tag : Nat) (ni : Bool) (st : Nat) (res : List Byte) : (s.respond mb tag ni st res).power = s.power := by
  unfold State.respond; try dsimp only
  (repeat' split) <;> simp
@[simp] theorem State.respond_defects (s : State) (mb tag : Nat) (ni : Bool) (st : Nat) (res : List Byte) : (s.respond mb tag ni st res).defects = s.defects := by
  unfold State.respond; try dsimp only
  (repeat' split) <;> simp
@[simp] theorem State.respond_sec (s : State) (mb tag : Nat) (ni : Bool) (st : Nat) (res : List Byte) : (s.respond mb tag ni st res).sec = s.sec := by
  unfold State.respond; try dsimp only
  (repeat' split) <;> simp
@[simp] theorem State.respond_store (s : State) (mb tag : Nat) (ni : Bool) (st : Nat) (res : List Byte) : (s.respond mb tag ni st res).store = s.store := by
  unfold State.respond; try dsimp only
  (repeat' split) <;> simp
@[simp] theorem State.respond_pewter (s : State) (mb tag : Nat) (ni : Bool) (st : Nat) (res : List Byte) : (s.respond mb tag ni st res).pewter = s.pewter := by
  unfold State.respond; try dsimp only
  (repeat' split) <;> simp
@[simp] theorem State.respond_jobs (s : State) (mb tag : Nat) (ni : Bool) (st : Nat) (res : List Byte) : (s.respond mb tag ni st res).jobs = s.jobs := by
  unfold State.respond; try dsimp only
  (repeat' split) <;> simp
@[simp] theorem State.respond_svcs (s : State) (mb tag : Nat) (ni : Bool) (st : Nat) (res : List Byte) : (s.respond mb tag ni st res).svcs = s.svcs := by
  unfold State.respond; try dsimp only
  (repeat' split) <;> simp
@[simp] theorem State.respond_xp (s : State) (mb tag : Nat) (ni : Bool) (st : Nat) (res : List Byte) : (s.respond mb tag ni st res).xp = s.xp := by
  unfold State.respond; try dsimp only
  (repeat' split) <;> simp
@[simp] theorem State.respond_subs (s : State) (mb tag : Nat) (ni : Bool) (st : Nat) (res : List Byte) : (s.respond mb tag ni st res).subs = s.subs := by
  unfold State.respond; try dsimp only
  (repeat' split) <;> simp
@[simp] theorem State.respond_ports (s : State) (mb tag : Nat) (ni : Bool) (st : Nat) (res : List Byte) : (s.respond mb tag ni st res).ports = s.ports := by
  unfold State.respond; try dsimp only
  (repeat' split) <;> simp
@[simp] theorem State.respond_bays (s : State) (mb tag : Nat) (ni : Bool) (st : Nat) (res : List Byte) : (s.respond mb tag ni st res).bays = s.bays := by
  unfold State.respond; try dsimp only
  (repeat' split) <;> simp
@[simp] theorem State.respond_groups (s : State) (mb tag : Nat) (ni : Bool) (st : Nat) (res : List Byte) : (s.respond mb tag ni st res).groups = s.groups := by
  unfold State.respond; try dsimp only
  (repeat' split) <;> simp
@[simp] theorem State.respond_dies (s : State) (mb tag : Nat) (ni : Bool) (st : Nat) (res : List Byte) : (s.respond mb tag ni st res).dies = s.dies := by
  unfold State.respond; try dsimp only
  (repeat' split) <;> simp
@[simp] theorem State.respond_con (s : State) (mb tag : Nat) (ni : Bool) (st : Nat) (res : List Byte) : (s.respond mb tag ni st res).con = s.con := by
  unfold State.respond; try dsimp only
  (repeat' split) <;> simp
@[simp] theorem State.respond_inv (s : State) (mb tag : Nat) (ni : Bool) (st : Nat) (res : List Byte) : (s.respond mb tag ni st res).inv = s.inv := by
  unfold State.respond; try dsimp only
  (repeat' split) <;> simp
@[simp] theorem State.respond_cvs (s : State) (mb tag : Nat) (ni : Bool) (st : Nat) (res : List Byte) : (s.respond mb tag ni st res).cvs = s.cvs := by
  unfold State.respond; try dsimp only
  (repeat' split) <;> simp
@[simp] theorem State.respond_core (s : State) (mb tag : Nat) (ni : Bool) (st : Nat) (res : List Byte) (o : Nat) : (s.respond mb tag ni st res).core o = s.core o := by
  simp [State.core]
@[simp] theorem State.respond_job (s : State) (mb tag : Nat) (ni : Bool) (st : Nat) (res : List Byte) (o : Nat) : (s.respond mb tag ni st res).job? o = s.job? o := by
  simp [State.job?]
@[simp] theorem State.respond_svc (s : State) (mb tag : Nat) (ni : Bool) (st : Nat) (res : List Byte) (o : Nat) : (s.respond mb tag ni st res).svc? o = s.svc? o := by
  simp [State.svc?]
@[simp] theorem State.respond_qp (s : State) (mb tag : Nat) (ni : Bool) (st : Nat) (res : List Byte) (o : Nat) : (s.respond mb tag ni st res).qp? o = s.qp? o := by
  simp [State.qp?]
@[simp] theorem State.respond_sub (s : State) (mb tag : Nat) (ni : Bool) (st : Nat) (res : List Byte) (o : Nat) : (s.respond mb tag ni st res).sub o = s.sub o := by
  simp [State.sub]
@[simp] theorem State.respond_port (s : State) (mb tag : Nat) (ni : Bool) (st : Nat) (res : List Byte) (o : Nat) : (s.respond mb tag ni st res).port o = s.port o := by
  simp [State.port]
@[simp] theorem State.respond_bay (s : State) (mb tag : Nat) (ni : Bool) (st : Nat) (res : List Byte) (o : Nat) : (s.respond mb tag ni st res).bay o = s.bay o := by
  simp [State.bay]
@[simp] theorem State.respond_grp (s : State) (mb tag : Nat) (ni : Bool) (st : Nat) (res : List Byte) (o : Nat) : (s.respond mb tag ni st res).grp o = s.grp o := by
  simp [State.grp]
@[simp] theorem State.respond_die (s : State) (mb tag : Nat) (ni : Bool) (st : Nat) (res : List Byte) (o : Nat) : (s.respond mb tag ni st res).die o = s.die o := by
  simp [State.die]
@[simp] theorem State.respond_chan (s : State) (mb tag : Nat) (ni : Bool) (st : Nat) (res : List Byte) (o : Nat) : (s.respond mb tag ni st res).chan o = s.chan o := by
  simp [State.chan]
@[simp] theorem State.respond_bridge (s : State) (mb tag : Nat) (ni : Bool) (st : Nat) (res : List Byte) (o : Nat) : (s.respond mb tag ni st res).bridge o = s.bridge o := by
  simp [State.bridge]
@[simp] theorem State.respond_cv (s : State) (mb tag : Nat) (ni : Bool) (st : Nat) (res : List Byte) (o : Nat) : (s.respond mb tag ni st res).cv o = s.cv o := by
  simp [State.cv]
@[simp] theorem State.respond_part (s : State) (mb tag : Nat) (ni : Bool) (st : Nat) (res : List Byte) (o : Nat) : (s.respond mb tag ni st res).part? o = s.part? o := by
  simp [State.part?]
@[simp] theorem State.respond_ctr (s : State) (mb tag : Nat) (ni : Bool) (st : Nat) (res : List Byte) (o : Nat) : (s.respond mb tag ni st res).ctr o = s.ctr o := by
  simp [State.ctr]
@[simp] theorem State.respond_reg (s : State) (mb tag : Nat) (ni : Bool) (st : Nat) (res : List Byte) (b : Blk) (o : Nat) : (s.respond mb tag ni st res).reg b o = s.reg b o := by
  simp [State.reg]

/-! ### takeReq -/

@[simp] theorem State.takeReq_pending (s : State) (mb : Nat) : (s.takeReq mb).pending = s.pending := by
  rfl
@[simp] theorem State.takeReq_tick (s : State) (mb : Nat) : (s.takeReq mb).tick = s.tick := by
  rfl
@[simp] theorem State.takeReq_free (s : State) (mb : Nat) : (s.takeReq mb).free = s.free := by
  rfl
@[simp] theorem State.takeReq_hostMem (s : State) (mb : Nat) : (s.takeReq mb).hostMem = s.hostMem := by
  rfl
@[simp] theorem State.takeReq_busOut (s : State) (mb : Nat) : (s.takeReq mb).busOut = s.busOut := by
  rfl
@[simp] theorem State.takeReq_devMem (s : State) (mb : Nat) : (s.takeReq mb).devMem = s.devMem := by
  rfl
@[simp] theorem State.takeReq_localMem (s : State) (mb : Nat) : (s.takeReq mb).localMem = s.localMem := by
  rfl
@[simp] theorem State.takeReq_acc (s : State) (mb : Nat) : (s.takeReq mb).acc = s.acc := by
  rfl
@[simp] theorem State.takeReq_accFlags (s : State) (mb : Nat) : (s.takeReq mb).accFlags = s.accFlags := by
  rfl
@[simp] theorem State.takeReq_accGen (s : State) (mb : Nat) : (s.takeReq mb).accGen = s.accGen := by
  rfl
@[simp] theorem State.takeReq_era (s : State) (mb : Nat) : (s.takeReq mb).era = s.era := by
  rfl
@[simp] theorem State.takeReq_cores (s : State) (mb : Nat) : (s.takeReq mb).cores = s.cores := by
  rfl
@[simp] theorem State.takeReq_remap (s : State) (mb : Nat) : (s.takeReq mb).remap = s.remap := by
  rfl
@[simp] theorem State.takeReq_counters (s : State) (mb : Nat) : (s.takeReq mb).counters = s.counters := by
  rfl
@[simp] theorem State.takeReq_cfg (s : State) (mb : Nat) : (s.takeReq mb).cfg = s.cfg := by
  rfl
@[simp] theorem State.takeReq_pend (s : State) (mb : Nat) : (s.takeReq mb).pend = s.pend := by
  rfl
@[simp] theorem State.takeReq_bseq (s : State) (mb : Nat) : (s.takeReq mb).bseq = s.bseq := by
  rfl
@[simp] theorem State.takeReq_wstat (s : State) (mb : Nat) : (s.takeReq mb).wstat = s.wstat := by
  rfl
@[simp] theorem State.takeReq_errcnt (s : State) (mb : Nat) : (s.takeReq mb).errcnt = s.errcnt := by
  rfl
@[simp] theorem State.takeReq_snap (s : State) (mb : Nat) : (s.takeReq mb).snap = s.snap := by
  rfl
@[simp] theorem State.takeReq_compat (s : State) (mb : Nat) : (s.takeReq mb).compat = s.compat := by
  rfl
@[simp] theorem State.takeReq_bu (s : State) (mb : Nat) : (s.takeReq mb).bu = s.bu := by
  rfl
@[simp] theorem State.takeReq_power (s : State) (mb : Nat) : (s.takeReq mb).power = s.power := by
  rfl
@[simp] theorem State.takeReq_defects (s : State) (mb : Nat) : (s.takeReq mb).defects = s.defects := by
  rfl
@[simp] theorem State.takeReq_sec (s : State) (mb : Nat) : (s.takeReq mb).sec = s.sec := by
  rfl
@[simp] theorem State.takeReq_mem (s : State) (mb : Nat) : (s.takeReq mb).mem = s.mem := by
  rfl
@[simp] theorem State.takeReq_store (s : State) (mb : Nat) : (s.takeReq mb).store = s.store := by
  rfl
@[simp] theorem State.takeReq_link (s : State) (mb : Nat) : (s.takeReq mb).link = s.link := by
  rfl
@[simp] theorem State.takeReq_pewter (s : State) (mb : Nat) : (s.takeReq mb).pewter = s.pewter := by
  rfl
@[simp] theorem State.takeReq_jobs (s : State) (mb : Nat) : (s.takeReq mb).jobs = s.jobs := by
  rfl
@[simp] theorem State.takeReq_svcs (s : State) (mb : Nat) : (s.takeReq mb).svcs = s.svcs := by
  rfl
@[simp] theorem State.takeReq_xp (s : State) (mb : Nat) : (s.takeReq mb).xp = s.xp := by
  rfl
@[simp] theorem State.takeReq_subs (s : State) (mb : Nat) : (s.takeReq mb).subs = s.subs := by
  rfl
@[simp] theorem State.takeReq_ports (s : State) (mb : Nat) : (s.takeReq mb).ports = s.ports := by
  rfl
@[simp] theorem State.takeReq_bays (s : State) (mb : Nat) : (s.takeReq mb).bays = s.bays := by
  rfl
@[simp] theorem State.takeReq_groups (s : State) (mb : Nat) : (s.takeReq mb).groups = s.groups := by
  rfl
@[simp] theorem State.takeReq_dies (s : State) (mb : Nat) : (s.takeReq mb).dies = s.dies := by
  rfl
@[simp] theorem State.takeReq_con (s : State) (mb : Nat) : (s.takeReq mb).con = s.con := by
  rfl
@[simp] theorem State.takeReq_inv (s : State) (mb : Nat) : (s.takeReq mb).inv = s.inv := by
  rfl
@[simp] theorem State.takeReq_cvs (s : State) (mb : Nat) : (s.takeReq mb).cvs = s.cvs := by
  rfl
@[simp] theorem State.takeReq_core (s : State) (mb : Nat) (o : Nat) : (s.takeReq mb).core o = s.core o := by
  simp [State.core]
@[simp] theorem State.takeReq_job (s : State) (mb : Nat) (o : Nat) : (s.takeReq mb).job? o = s.job? o := by
  simp [State.job?]
@[simp] theorem State.takeReq_svc (s : State) (mb : Nat) (o : Nat) : (s.takeReq mb).svc? o = s.svc? o := by
  simp [State.svc?]
@[simp] theorem State.takeReq_qp (s : State) (mb : Nat) (o : Nat) : (s.takeReq mb).qp? o = s.qp? o := by
  simp [State.qp?]
@[simp] theorem State.takeReq_sub (s : State) (mb : Nat) (o : Nat) : (s.takeReq mb).sub o = s.sub o := by
  simp [State.sub]
@[simp] theorem State.takeReq_port (s : State) (mb : Nat) (o : Nat) : (s.takeReq mb).port o = s.port o := by
  simp [State.port]
@[simp] theorem State.takeReq_bay (s : State) (mb : Nat) (o : Nat) : (s.takeReq mb).bay o = s.bay o := by
  simp [State.bay]
@[simp] theorem State.takeReq_grp (s : State) (mb : Nat) (o : Nat) : (s.takeReq mb).grp o = s.grp o := by
  simp [State.grp]
@[simp] theorem State.takeReq_die (s : State) (mb : Nat) (o : Nat) : (s.takeReq mb).die o = s.die o := by
  simp [State.die]
@[simp] theorem State.takeReq_chan (s : State) (mb : Nat) (o : Nat) : (s.takeReq mb).chan o = s.chan o := by
  simp [State.chan]
@[simp] theorem State.takeReq_bridge (s : State) (mb : Nat) (o : Nat) : (s.takeReq mb).bridge o = s.bridge o := by
  simp [State.bridge]
@[simp] theorem State.takeReq_cv (s : State) (mb : Nat) (o : Nat) : (s.takeReq mb).cv o = s.cv o := by
  simp [State.cv]
@[simp] theorem State.takeReq_part (s : State) (mb : Nat) (o : Nat) : (s.takeReq mb).part? o = s.part? o := by
  simp [State.part?]
@[simp] theorem State.takeReq_ctr (s : State) (mb : Nat) (o : Nat) : (s.takeReq mb).ctr o = s.ctr o := by
  simp [State.ctr]
@[simp] theorem State.takeReq_reg (s : State) (mb : Nat) (b : Blk) (o : Nat) : (s.takeReq mb).reg b o = s.reg b o := by
  simp [State.reg]

/-! ### drain -/

@[simp] theorem State.drain_pending (s : State) (mb n : Nat) : (s.drain mb n).pending = s.pending := by
  induction n generalizing s with
  | zero => rfl
  | succ n ih =>
    unfold State.drain; split
    · rfl
    · split
      · simp
      · dsimp only; split
        · rfl
        · rw [ih]; simp
@[simp] theorem State.drain_tick (s : State) (mb n : Nat) : (s.drain mb n).tick = s.tick := by
  induction n generalizing s with
  | zero => rfl
  | succ n ih =>
    unfold State.drain; split
    · rfl
    · split
      · simp
      · dsimp only; split
        · rfl
        · rw [ih]; simp
@[simp] theorem State.drain_free (s : State) (mb n : Nat) : (s.drain mb n).free = s.free := by
  induction n generalizing s with
  | zero => rfl
  | succ n ih =>
    unfold State.drain; split
    · rfl
    · split
      · simp
      · dsimp only; split
        · rfl
        · rw [ih]; simp
@[simp] theorem State.drain_busOut (s : State) (mb n : Nat) : (s.drain mb n).busOut = s.busOut := by
  induction n generalizing s with
  | zero => rfl
  | succ n ih =>
    unfold State.drain; split
    · rfl
    · split
      · simp
      · dsimp only; split
        · rfl
        · rw [ih]; simp
@[simp] theorem State.drain_localMem (s : State) (mb n : Nat) : (s.drain mb n).localMem = s.localMem := by
  induction n generalizing s with
  | zero => rfl
  | succ n ih =>
    unfold State.drain; split
    · rfl
    · split
      · simp
      · dsimp only; split
        · rfl
        · rw [ih]; simp
@[simp] theorem State.drain_acc (s : State) (mb n : Nat) : (s.drain mb n).acc = s.acc := by
  induction n generalizing s with
  | zero => rfl
  | succ n ih =>
    unfold State.drain; split
    · rfl
    · split
      · simp
      · dsimp only; split
        · rfl
        · rw [ih]; simp
@[simp] theorem State.drain_accFlags (s : State) (mb n : Nat) : (s.drain mb n).accFlags = s.accFlags := by
  induction n generalizing s with
  | zero => rfl
  | succ n ih =>
    unfold State.drain; split
    · rfl
    · split
      · simp
      · dsimp only; split
        · rfl
        · rw [ih]; simp
@[simp] theorem State.drain_accGen (s : State) (mb n : Nat) : (s.drain mb n).accGen = s.accGen := by
  induction n generalizing s with
  | zero => rfl
  | succ n ih =>
    unfold State.drain; split
    · rfl
    · split
      · simp
      · dsimp only; split
        · rfl
        · rw [ih]; simp
@[simp] theorem State.drain_era (s : State) (mb n : Nat) : (s.drain mb n).era = s.era := by
  induction n generalizing s with
  | zero => rfl
  | succ n ih =>
    unfold State.drain; split
    · rfl
    · split
      · simp
      · dsimp only; split
        · rfl
        · rw [ih]; simp
@[simp] theorem State.drain_cores (s : State) (mb n : Nat) : (s.drain mb n).cores = s.cores := by
  induction n generalizing s with
  | zero => rfl
  | succ n ih =>
    unfold State.drain; split
    · rfl
    · split
      · simp
      · dsimp only; split
        · rfl
        · rw [ih]; simp
@[simp] theorem State.drain_remap (s : State) (mb n : Nat) : (s.drain mb n).remap = s.remap := by
  induction n generalizing s with
  | zero => rfl
  | succ n ih =>
    unfold State.drain; split
    · rfl
    · split
      · simp
      · dsimp only; split
        · rfl
        · rw [ih]; simp
@[simp] theorem State.drain_counters (s : State) (mb n : Nat) : (s.drain mb n).counters = s.counters := by
  induction n generalizing s with
  | zero => rfl
  | succ n ih =>
    unfold State.drain; split
    · rfl
    · split
      · simp
      · dsimp only; split
        · rfl
        · rw [ih]; simp
@[simp] theorem State.drain_cfg (s : State) (mb n : Nat) : (s.drain mb n).cfg = s.cfg := by
  induction n generalizing s with
  | zero => rfl
  | succ n ih =>
    unfold State.drain; split
    · rfl
    · split
      · simp
      · dsimp only; split
        · rfl
        · rw [ih]; simp
@[simp] theorem State.drain_pend (s : State) (mb n : Nat) : (s.drain mb n).pend = s.pend := by
  induction n generalizing s with
  | zero => rfl
  | succ n ih =>
    unfold State.drain; split
    · rfl
    · split
      · simp
      · dsimp only; split
        · rfl
        · rw [ih]; simp
@[simp] theorem State.drain_bseq (s : State) (mb n : Nat) : (s.drain mb n).bseq = s.bseq := by
  induction n generalizing s with
  | zero => rfl
  | succ n ih =>
    unfold State.drain; split
    · rfl
    · split
      · simp
      · dsimp only; split
        · rfl
        · rw [ih]; simp
@[simp] theorem State.drain_wstat (s : State) (mb n : Nat) : (s.drain mb n).wstat = s.wstat := by
  induction n generalizing s with
  | zero => rfl
  | succ n ih =>
    unfold State.drain; split
    · rfl
    · split
      · simp
      · dsimp only; split
        · rfl
        · rw [ih]; simp
@[simp] theorem State.drain_errcnt (s : State) (mb n : Nat) : (s.drain mb n).errcnt = s.errcnt := by
  induction n generalizing s with
  | zero => rfl
  | succ n ih =>
    unfold State.drain; split
    · rfl
    · split
      · simp
      · dsimp only; split
        · rfl
        · rw [ih]; simp
@[simp] theorem State.drain_snap (s : State) (mb n : Nat) : (s.drain mb n).snap = s.snap := by
  induction n generalizing s with
  | zero => rfl
  | succ n ih =>
    unfold State.drain; split
    · rfl
    · split
      · simp
      · dsimp only; split
        · rfl
        · rw [ih]; simp
@[simp] theorem State.drain_compat (s : State) (mb n : Nat) : (s.drain mb n).compat = s.compat := by
  induction n generalizing s with
  | zero => rfl
  | succ n ih =>
    unfold State.drain; split
    · rfl
    · split
      · simp
      · dsimp only; split
        · rfl
        · rw [ih]; simp
@[simp] theorem State.drain_bu (s : State) (mb n : Nat) : (s.drain mb n).bu = s.bu := by
  induction n generalizing s with
  | zero => rfl
  | succ n ih =>
    unfold State.drain; split
    · rfl
    · split
      · simp
      · dsimp only; split
        · rfl
        · rw [ih]; simp
@[simp] theorem State.drain_power (s : State) (mb n : Nat) : (s.drain mb n).power = s.power := by
  induction n generalizing s with
  | zero => rfl
  | succ n ih =>
    unfold State.drain; split
    · rfl
    · split
      · simp
      · dsimp only; split
        · rfl
        · rw [ih]; simp
@[simp] theorem State.drain_defects (s : State) (mb n : Nat) : (s.drain mb n).defects = s.defects := by
  induction n generalizing s with
  | zero => rfl
  | succ n ih =>
    unfold State.drain; split
    · rfl
    · split
      · simp
      · dsimp only; split
        · rfl
        · rw [ih]; simp
@[simp] theorem State.drain_sec (s : State) (mb n : Nat) : (s.drain mb n).sec = s.sec := by
  induction n generalizing s with
  | zero => rfl
  | succ n ih =>
    unfold State.drain; split
    · rfl
    · split
      · simp
      · dsimp only; split
        · rfl
        · rw [ih]; simp
@[simp] theorem State.drain_store (s : State) (mb n : Nat) : (s.drain mb n).store = s.store := by
  induction n generalizing s with
  | zero => rfl
  | succ n ih =>
    unfold State.drain; split
    · rfl
    · split
      · simp
      · dsimp only; split
        · rfl
        · rw [ih]; simp
@[simp] theorem State.drain_pewter (s : State) (mb n : Nat) : (s.drain mb n).pewter = s.pewter := by
  induction n generalizing s with
  | zero => rfl
  | succ n ih =>
    unfold State.drain; split
    · rfl
    · split
      · simp
      · dsimp only; split
        · rfl
        · rw [ih]; simp
@[simp] theorem State.drain_jobs (s : State) (mb n : Nat) : (s.drain mb n).jobs = s.jobs := by
  induction n generalizing s with
  | zero => rfl
  | succ n ih =>
    unfold State.drain; split
    · rfl
    · split
      · simp
      · dsimp only; split
        · rfl
        · rw [ih]; simp
@[simp] theorem State.drain_svcs (s : State) (mb n : Nat) : (s.drain mb n).svcs = s.svcs := by
  induction n generalizing s with
  | zero => rfl
  | succ n ih =>
    unfold State.drain; split
    · rfl
    · split
      · simp
      · dsimp only; split
        · rfl
        · rw [ih]; simp
@[simp] theorem State.drain_xp (s : State) (mb n : Nat) : (s.drain mb n).xp = s.xp := by
  induction n generalizing s with
  | zero => rfl
  | succ n ih =>
    unfold State.drain; split
    · rfl
    · split
      · simp
      · dsimp only; split
        · rfl
        · rw [ih]; simp
@[simp] theorem State.drain_subs (s : State) (mb n : Nat) : (s.drain mb n).subs = s.subs := by
  induction n generalizing s with
  | zero => rfl
  | succ n ih =>
    unfold State.drain; split
    · rfl
    · split
      · simp
      · dsimp only; split
        · rfl
        · rw [ih]; simp
@[simp] theorem State.drain_ports (s : State) (mb n : Nat) : (s.drain mb n).ports = s.ports := by
  induction n generalizing s with
  | zero => rfl
  | succ n ih =>
    unfold State.drain; split
    · rfl
    · split
      · simp
      · dsimp only; split
        · rfl
        · rw [ih]; simp
@[simp] theorem State.drain_bays (s : State) (mb n : Nat) : (s.drain mb n).bays = s.bays := by
  induction n generalizing s with
  | zero => rfl
  | succ n ih =>
    unfold State.drain; split
    · rfl
    · split
      · simp
      · dsimp only; split
        · rfl
        · rw [ih]; simp
@[simp] theorem State.drain_groups (s : State) (mb n : Nat) : (s.drain mb n).groups = s.groups := by
  induction n generalizing s with
  | zero => rfl
  | succ n ih =>
    unfold State.drain; split
    · rfl
    · split
      · simp
      · dsimp only; split
        · rfl
        · rw [ih]; simp
@[simp] theorem State.drain_dies (s : State) (mb n : Nat) : (s.drain mb n).dies = s.dies := by
  induction n generalizing s with
  | zero => rfl
  | succ n ih =>
    unfold State.drain; split
    · rfl
    · split
      · simp
      · dsimp only; split
        · rfl
        · rw [ih]; simp
@[simp] theorem State.drain_con (s : State) (mb n : Nat) : (s.drain mb n).con = s.con := by
  induction n generalizing s with
  | zero => rfl
  | succ n ih =>
    unfold State.drain; split
    · rfl
    · split
      · simp
      · dsimp only; split
        · rfl
        · rw [ih]; simp
@[simp] theorem State.drain_inv (s : State) (mb n : Nat) : (s.drain mb n).inv = s.inv := by
  induction n generalizing s with
  | zero => rfl
  | succ n ih =>
    unfold State.drain; split
    · rfl
    · split
      · simp
      · dsimp only; split
        · rfl
        · rw [ih]; simp
@[simp] theorem State.drain_cvs (s : State) (mb n : Nat) : (s.drain mb n).cvs = s.cvs := by
  induction n generalizing s with
  | zero => rfl
  | succ n ih =>
    unfold State.drain; split
    · rfl
    · split
      · simp
      · dsimp only; split
        · rfl
        · rw [ih]; simp
@[simp] theorem State.drain_core (s : State) (mb n : Nat) (o : Nat) : (s.drain mb n).core o = s.core o := by
  simp [State.core]
@[simp] theorem State.drain_job (s : State) (mb n : Nat) (o : Nat) : (s.drain mb n).job? o = s.job? o := by
  simp [State.job?]
@[simp] theorem State.drain_svc (s : State) (mb n : Nat) (o : Nat) : (s.drain mb n).svc? o = s.svc? o := by
  simp [State.svc?]
@[simp] theorem State.drain_qp (s : State) (mb n : Nat) (o : Nat) : (s.drain mb n).qp? o = s.qp? o := by
  simp [State.qp?]
@[simp] theorem State.drain_sub (s : State) (mb n : Nat) (o : Nat) : (s.drain mb n).sub o = s.sub o := by
  simp [State.sub]
@[simp] theorem State.drain_port (s : State) (mb n : Nat) (o : Nat) : (s.drain mb n).port o = s.port o := by
  simp [State.port]
@[simp] theorem State.drain_bay (s : State) (mb n : Nat) (o : Nat) : (s.drain mb n).bay o = s.bay o := by
  simp [State.bay]
@[simp] theorem State.drain_grp (s : State) (mb n : Nat) (o : Nat) : (s.drain mb n).grp o = s.grp o := by
  simp [State.grp]
@[simp] theorem State.drain_die (s : State) (mb n : Nat) (o : Nat) : (s.drain mb n).die o = s.die o := by
  simp [State.die]
@[simp] theorem State.drain_chan (s : State) (mb n : Nat) (o : Nat) : (s.drain mb n).chan o = s.chan o := by
  simp [State.chan]
@[simp] theorem State.drain_bridge (s : State) (mb n : Nat) (o : Nat) : (s.drain mb n).bridge o = s.bridge o := by
  simp [State.bridge]
@[simp] theorem State.drain_cv (s : State) (mb n : Nat) (o : Nat) : (s.drain mb n).cv o = s.cv o := by
  simp [State.cv]
@[simp] theorem State.drain_part (s : State) (mb n : Nat) (o : Nat) : (s.drain mb n).part? o = s.part? o := by
  simp [State.part?]
@[simp] theorem State.drain_ctr (s : State) (mb n : Nat) (o : Nat) : (s.drain mb n).ctr o = s.ctr o := by
  simp [State.ctr]
@[simp] theorem State.drain_reg (s : State) (mb n : Nat) (b : Blk) (o : Nat) : (s.drain mb n).reg b o = s.reg b o := by
  simp [State.reg]

/-! ### answer -/

@[simp] theorem State.answer_pending (s : State) (mb st : Nat) (res : List Byte) : (s.answer mb st res).pending = s.pending := by
  unfold State.answer; try dsimp only
  (repeat' split) <;> simp
@[simp] theorem State.answer_tick (s : State) (mb st : Nat) (res : List Byte) : (s.answer mb st res).tick = s.tick := by
  unfold State.answer; try dsimp only
  (repeat' split) <;> simp
@[simp] theorem State.answer_free (s : State) (mb st : Nat) (res : List Byte) : (s.answer mb st res).free = s.free := by
  unfold State.answer; try dsimp only
  (repeat' split) <;> simp
@[simp] theorem State.answer_busOut (s : State) (mb st : Nat) (res : List Byte) : (s.answer mb st res).busOut = s.busOut := by
  unfold State.answer; try dsimp only
  (repeat' split) <;> simp
@[simp] theorem State.answer_localMem (s : State) (mb st : Nat) (res : List Byte) : (s.answer mb st res).localMem = s.localMem := by
  unfold State.answer; try dsimp only
  (repeat' split) <;> simp
@[simp] theorem State.answer_acc (s : State) (mb st : Nat) (res : List Byte) : (s.answer mb st res).acc = s.acc := by
  unfold State.answer; try dsimp only
  (repeat' split) <;> simp
@[simp] theorem State.answer_accFlags (s : State) (mb st : Nat) (res : List Byte) : (s.answer mb st res).accFlags = s.accFlags := by
  unfold State.answer; try dsimp only
  (repeat' split) <;> simp
@[simp] theorem State.answer_accGen (s : State) (mb st : Nat) (res : List Byte) : (s.answer mb st res).accGen = s.accGen := by
  unfold State.answer; try dsimp only
  (repeat' split) <;> simp
@[simp] theorem State.answer_era (s : State) (mb st : Nat) (res : List Byte) : (s.answer mb st res).era = s.era := by
  unfold State.answer; try dsimp only
  (repeat' split) <;> simp
@[simp] theorem State.answer_cores (s : State) (mb st : Nat) (res : List Byte) : (s.answer mb st res).cores = s.cores := by
  unfold State.answer; try dsimp only
  (repeat' split) <;> simp
@[simp] theorem State.answer_remap (s : State) (mb st : Nat) (res : List Byte) : (s.answer mb st res).remap = s.remap := by
  unfold State.answer; try dsimp only
  (repeat' split) <;> simp
@[simp] theorem State.answer_counters (s : State) (mb st : Nat) (res : List Byte) : (s.answer mb st res).counters = s.counters := by
  unfold State.answer; try dsimp only
  (repeat' split) <;> simp
@[simp] theorem State.answer_cfg (s : State) (mb st : Nat) (res : List Byte) : (s.answer mb st res).cfg = s.cfg := by
  unfold State.answer; try dsimp only
  (repeat' split) <;> simp
@[simp] theorem State.answer_pend (s : State) (mb st : Nat) (res : List Byte) : (s.answer mb st res).pend = s.pend := by
  unfold State.answer; try dsimp only
  (repeat' split) <;> simp
@[simp] theorem State.answer_bseq (s : State) (mb st : Nat) (res : List Byte) : (s.answer mb st res).bseq = s.bseq := by
  unfold State.answer; try dsimp only
  (repeat' split) <;> simp
@[simp] theorem State.answer_wstat (s : State) (mb st : Nat) (res : List Byte) : (s.answer mb st res).wstat = s.wstat := by
  unfold State.answer; try dsimp only
  (repeat' split) <;> simp
@[simp] theorem State.answer_errcnt (s : State) (mb st : Nat) (res : List Byte) : (s.answer mb st res).errcnt = s.errcnt := by
  unfold State.answer; try dsimp only
  (repeat' split) <;> simp
@[simp] theorem State.answer_snap (s : State) (mb st : Nat) (res : List Byte) : (s.answer mb st res).snap = s.snap := by
  unfold State.answer; try dsimp only
  (repeat' split) <;> simp
@[simp] theorem State.answer_lastMb (s : State) (mb st : Nat) (res : List Byte) : (s.answer mb st res).lastMb = s.lastMb := by
  unfold State.answer; try dsimp only
  (repeat' split) <;> simp
@[simp] theorem State.answer_compat (s : State) (mb st : Nat) (res : List Byte) : (s.answer mb st res).compat = s.compat := by
  unfold State.answer; try dsimp only
  (repeat' split) <;> simp
@[simp] theorem State.answer_bu (s : State) (mb st : Nat) (res : List Byte) : (s.answer mb st res).bu = s.bu := by
  unfold State.answer; try dsimp only
  (repeat' split) <;> simp
@[simp] theorem State.answer_power (s : State) (mb st : Nat) (res : List Byte) : (s.answer mb st res).power = s.power := by
  unfold State.answer; try dsimp only
  (repeat' split) <;> simp
@[simp] theorem State.answer_defects (s : State) (mb st : Nat) (res : List Byte) : (s.answer mb st res).defects = s.defects := by
  unfold State.answer; try dsimp only
  (repeat' split) <;> simp
@[simp] theorem State.answer_sec (s : State) (mb st : Nat) (res : List Byte) : (s.answer mb st res).sec = s.sec := by
  unfold State.answer; try dsimp only
  (repeat' split) <;> simp
@[simp] theorem State.answer_store (s : State) (mb st : Nat) (res : List Byte) : (s.answer mb st res).store = s.store := by
  unfold State.answer; try dsimp only
  (repeat' split) <;> simp
@[simp] theorem State.answer_pewter (s : State) (mb st : Nat) (res : List Byte) : (s.answer mb st res).pewter = s.pewter := by
  unfold State.answer; try dsimp only
  (repeat' split) <;> simp
@[simp] theorem State.answer_jobs (s : State) (mb st : Nat) (res : List Byte) : (s.answer mb st res).jobs = s.jobs := by
  unfold State.answer; try dsimp only
  (repeat' split) <;> simp
@[simp] theorem State.answer_svcs (s : State) (mb st : Nat) (res : List Byte) : (s.answer mb st res).svcs = s.svcs := by
  unfold State.answer; try dsimp only
  (repeat' split) <;> simp
@[simp] theorem State.answer_xp (s : State) (mb st : Nat) (res : List Byte) : (s.answer mb st res).xp = s.xp := by
  unfold State.answer; try dsimp only
  (repeat' split) <;> simp
@[simp] theorem State.answer_subs (s : State) (mb st : Nat) (res : List Byte) : (s.answer mb st res).subs = s.subs := by
  unfold State.answer; try dsimp only
  (repeat' split) <;> simp
@[simp] theorem State.answer_ports (s : State) (mb st : Nat) (res : List Byte) : (s.answer mb st res).ports = s.ports := by
  unfold State.answer; try dsimp only
  (repeat' split) <;> simp
@[simp] theorem State.answer_bays (s : State) (mb st : Nat) (res : List Byte) : (s.answer mb st res).bays = s.bays := by
  unfold State.answer; try dsimp only
  (repeat' split) <;> simp
@[simp] theorem State.answer_groups (s : State) (mb st : Nat) (res : List Byte) : (s.answer mb st res).groups = s.groups := by
  unfold State.answer; try dsimp only
  (repeat' split) <;> simp
@[simp] theorem State.answer_dies (s : State) (mb st : Nat) (res : List Byte) : (s.answer mb st res).dies = s.dies := by
  unfold State.answer; try dsimp only
  (repeat' split) <;> simp
@[simp] theorem State.answer_con (s : State) (mb st : Nat) (res : List Byte) : (s.answer mb st res).con = s.con := by
  unfold State.answer; try dsimp only
  (repeat' split) <;> simp
@[simp] theorem State.answer_inv (s : State) (mb st : Nat) (res : List Byte) : (s.answer mb st res).inv = s.inv := by
  unfold State.answer; try dsimp only
  (repeat' split) <;> simp
@[simp] theorem State.answer_cvs (s : State) (mb st : Nat) (res : List Byte) : (s.answer mb st res).cvs = s.cvs := by
  unfold State.answer; try dsimp only
  (repeat' split) <;> simp
@[simp] theorem State.answer_core (s : State) (mb st : Nat) (res : List Byte) (o : Nat) : (s.answer mb st res).core o = s.core o := by
  simp [State.core]
@[simp] theorem State.answer_job (s : State) (mb st : Nat) (res : List Byte) (o : Nat) : (s.answer mb st res).job? o = s.job? o := by
  simp [State.job?]
@[simp] theorem State.answer_svc (s : State) (mb st : Nat) (res : List Byte) (o : Nat) : (s.answer mb st res).svc? o = s.svc? o := by
  simp [State.svc?]
@[simp] theorem State.answer_qp (s : State) (mb st : Nat) (res : List Byte) (o : Nat) : (s.answer mb st res).qp? o = s.qp? o := by
  simp [State.qp?]
@[simp] theorem State.answer_sub (s : State) (mb st : Nat) (res : List Byte) (o : Nat) : (s.answer mb st res).sub o = s.sub o := by
  simp [State.sub]
@[simp] theorem State.answer_port (s : State) (mb st : Nat) (res : List Byte) (o : Nat) : (s.answer mb st res).port o = s.port o := by
  simp [State.port]
@[simp] theorem State.answer_bay (s : State) (mb st : Nat) (res : List Byte) (o : Nat) : (s.answer mb st res).bay o = s.bay o := by
  simp [State.bay]
@[simp] theorem State.answer_grp (s : State) (mb st : Nat) (res : List Byte) (o : Nat) : (s.answer mb st res).grp o = s.grp o := by
  simp [State.grp]
@[simp] theorem State.answer_die (s : State) (mb st : Nat) (res : List Byte) (o : Nat) : (s.answer mb st res).die o = s.die o := by
  simp [State.die]
@[simp] theorem State.answer_chan (s : State) (mb st : Nat) (res : List Byte) (o : Nat) : (s.answer mb st res).chan o = s.chan o := by
  simp [State.chan]
@[simp] theorem State.answer_bridge (s : State) (mb st : Nat) (res : List Byte) (o : Nat) : (s.answer mb st res).bridge o = s.bridge o := by
  simp [State.bridge]
@[simp] theorem State.answer_cv (s : State) (mb st : Nat) (res : List Byte) (o : Nat) : (s.answer mb st res).cv o = s.cv o := by
  simp [State.cv]
@[simp] theorem State.answer_part (s : State) (mb st : Nat) (res : List Byte) (o : Nat) : (s.answer mb st res).part? o = s.part? o := by
  simp [State.part?]
@[simp] theorem State.answer_ctr (s : State) (mb st : Nat) (res : List Byte) (o : Nat) : (s.answer mb st res).ctr o = s.ctr o := by
  simp [State.ctr]
@[simp] theorem State.answer_reg (s : State) (mb st : Nat) (res : List Byte) (b : Blk) (o : Nat) : (s.answer mb st res).reg b o = s.reg b o := by
  simp [State.reg]

/-! ### answerWhere -/

@[simp] theorem State.answerWhere_pending (s : State) (p : Waiting → Bool) (st : Nat) (res : List Byte) : (s.answerWhere p st res).pending = s.pending := by
  unfold State.answerWhere
  exact foldl_keeps (fun t : State => t.pending) _ _ _ (by intro t a; (repeat' split) <;> simp)
@[simp] theorem State.answerWhere_tick (s : State) (p : Waiting → Bool) (st : Nat) (res : List Byte) : (s.answerWhere p st res).tick = s.tick := by
  unfold State.answerWhere
  exact foldl_keeps (fun t : State => t.tick) _ _ _ (by intro t a; (repeat' split) <;> simp)
@[simp] theorem State.answerWhere_free (s : State) (p : Waiting → Bool) (st : Nat) (res : List Byte) : (s.answerWhere p st res).free = s.free := by
  unfold State.answerWhere
  exact foldl_keeps (fun t : State => t.free) _ _ _ (by intro t a; (repeat' split) <;> simp)
@[simp] theorem State.answerWhere_busOut (s : State) (p : Waiting → Bool) (st : Nat) (res : List Byte) : (s.answerWhere p st res).busOut = s.busOut := by
  unfold State.answerWhere
  exact foldl_keeps (fun t : State => t.busOut) _ _ _ (by intro t a; (repeat' split) <;> simp)
@[simp] theorem State.answerWhere_localMem (s : State) (p : Waiting → Bool) (st : Nat) (res : List Byte) : (s.answerWhere p st res).localMem = s.localMem := by
  unfold State.answerWhere
  exact foldl_keeps (fun t : State => t.localMem) _ _ _ (by intro t a; (repeat' split) <;> simp)
@[simp] theorem State.answerWhere_acc (s : State) (p : Waiting → Bool) (st : Nat) (res : List Byte) : (s.answerWhere p st res).acc = s.acc := by
  unfold State.answerWhere
  exact foldl_keeps (fun t : State => t.acc) _ _ _ (by intro t a; (repeat' split) <;> simp)
@[simp] theorem State.answerWhere_accFlags (s : State) (p : Waiting → Bool) (st : Nat) (res : List Byte) : (s.answerWhere p st res).accFlags = s.accFlags := by
  unfold State.answerWhere
  exact foldl_keeps (fun t : State => t.accFlags) _ _ _ (by intro t a; (repeat' split) <;> simp)
@[simp] theorem State.answerWhere_accGen (s : State) (p : Waiting → Bool) (st : Nat) (res : List Byte) : (s.answerWhere p st res).accGen = s.accGen := by
  unfold State.answerWhere
  exact foldl_keeps (fun t : State => t.accGen) _ _ _ (by intro t a; (repeat' split) <;> simp)
@[simp] theorem State.answerWhere_era (s : State) (p : Waiting → Bool) (st : Nat) (res : List Byte) : (s.answerWhere p st res).era = s.era := by
  unfold State.answerWhere
  exact foldl_keeps (fun t : State => t.era) _ _ _ (by intro t a; (repeat' split) <;> simp)
@[simp] theorem State.answerWhere_cores (s : State) (p : Waiting → Bool) (st : Nat) (res : List Byte) : (s.answerWhere p st res).cores = s.cores := by
  unfold State.answerWhere
  exact foldl_keeps (fun t : State => t.cores) _ _ _ (by intro t a; (repeat' split) <;> simp)
@[simp] theorem State.answerWhere_remap (s : State) (p : Waiting → Bool) (st : Nat) (res : List Byte) : (s.answerWhere p st res).remap = s.remap := by
  unfold State.answerWhere
  exact foldl_keeps (fun t : State => t.remap) _ _ _ (by intro t a; (repeat' split) <;> simp)
@[simp] theorem State.answerWhere_counters (s : State) (p : Waiting → Bool) (st : Nat) (res : List Byte) : (s.answerWhere p st res).counters = s.counters := by
  unfold State.answerWhere
  exact foldl_keeps (fun t : State => t.counters) _ _ _ (by intro t a; (repeat' split) <;> simp)
@[simp] theorem State.answerWhere_cfg (s : State) (p : Waiting → Bool) (st : Nat) (res : List Byte) : (s.answerWhere p st res).cfg = s.cfg := by
  unfold State.answerWhere
  exact foldl_keeps (fun t : State => t.cfg) _ _ _ (by intro t a; (repeat' split) <;> simp)
@[simp] theorem State.answerWhere_pend (s : State) (p : Waiting → Bool) (st : Nat) (res : List Byte) : (s.answerWhere p st res).pend = s.pend := by
  unfold State.answerWhere
  exact foldl_keeps (fun t : State => t.pend) _ _ _ (by intro t a; (repeat' split) <;> simp)
@[simp] theorem State.answerWhere_bseq (s : State) (p : Waiting → Bool) (st : Nat) (res : List Byte) : (s.answerWhere p st res).bseq = s.bseq := by
  unfold State.answerWhere
  exact foldl_keeps (fun t : State => t.bseq) _ _ _ (by intro t a; (repeat' split) <;> simp)
@[simp] theorem State.answerWhere_wstat (s : State) (p : Waiting → Bool) (st : Nat) (res : List Byte) : (s.answerWhere p st res).wstat = s.wstat := by
  unfold State.answerWhere
  exact foldl_keeps (fun t : State => t.wstat) _ _ _ (by intro t a; (repeat' split) <;> simp)
@[simp] theorem State.answerWhere_errcnt (s : State) (p : Waiting → Bool) (st : Nat) (res : List Byte) : (s.answerWhere p st res).errcnt = s.errcnt := by
  unfold State.answerWhere
  exact foldl_keeps (fun t : State => t.errcnt) _ _ _ (by intro t a; (repeat' split) <;> simp)
@[simp] theorem State.answerWhere_snap (s : State) (p : Waiting → Bool) (st : Nat) (res : List Byte) : (s.answerWhere p st res).snap = s.snap := by
  unfold State.answerWhere
  exact foldl_keeps (fun t : State => t.snap) _ _ _ (by intro t a; (repeat' split) <;> simp)
@[simp] theorem State.answerWhere_lastMb (s : State) (p : Waiting → Bool) (st : Nat) (res : List Byte) : (s.answerWhere p st res).lastMb = s.lastMb := by
  unfold State.answerWhere
  exact foldl_keeps (fun t : State => t.lastMb) _ _ _ (by intro t a; (repeat' split) <;> simp)
@[simp] theorem State.answerWhere_compat (s : State) (p : Waiting → Bool) (st : Nat) (res : List Byte) : (s.answerWhere p st res).compat = s.compat := by
  unfold State.answerWhere
  exact foldl_keeps (fun t : State => t.compat) _ _ _ (by intro t a; (repeat' split) <;> simp)
@[simp] theorem State.answerWhere_bu (s : State) (p : Waiting → Bool) (st : Nat) (res : List Byte) : (s.answerWhere p st res).bu = s.bu := by
  unfold State.answerWhere
  exact foldl_keeps (fun t : State => t.bu) _ _ _ (by intro t a; (repeat' split) <;> simp)
@[simp] theorem State.answerWhere_power (s : State) (p : Waiting → Bool) (st : Nat) (res : List Byte) : (s.answerWhere p st res).power = s.power := by
  unfold State.answerWhere
  exact foldl_keeps (fun t : State => t.power) _ _ _ (by intro t a; (repeat' split) <;> simp)
@[simp] theorem State.answerWhere_defects (s : State) (p : Waiting → Bool) (st : Nat) (res : List Byte) : (s.answerWhere p st res).defects = s.defects := by
  unfold State.answerWhere
  exact foldl_keeps (fun t : State => t.defects) _ _ _ (by intro t a; (repeat' split) <;> simp)
@[simp] theorem State.answerWhere_sec (s : State) (p : Waiting → Bool) (st : Nat) (res : List Byte) : (s.answerWhere p st res).sec = s.sec := by
  unfold State.answerWhere
  exact foldl_keeps (fun t : State => t.sec) _ _ _ (by intro t a; (repeat' split) <;> simp)
@[simp] theorem State.answerWhere_store (s : State) (p : Waiting → Bool) (st : Nat) (res : List Byte) : (s.answerWhere p st res).store = s.store := by
  unfold State.answerWhere
  exact foldl_keeps (fun t : State => t.store) _ _ _ (by intro t a; (repeat' split) <;> simp)
@[simp] theorem State.answerWhere_pewter (s : State) (p : Waiting → Bool) (st : Nat) (res : List Byte) : (s.answerWhere p st res).pewter = s.pewter := by
  unfold State.answerWhere
  exact foldl_keeps (fun t : State => t.pewter) _ _ _ (by intro t a; (repeat' split) <;> simp)
@[simp] theorem State.answerWhere_jobs (s : State) (p : Waiting → Bool) (st : Nat) (res : List Byte) : (s.answerWhere p st res).jobs = s.jobs := by
  unfold State.answerWhere
  exact foldl_keeps (fun t : State => t.jobs) _ _ _ (by intro t a; (repeat' split) <;> simp)
@[simp] theorem State.answerWhere_svcs (s : State) (p : Waiting → Bool) (st : Nat) (res : List Byte) : (s.answerWhere p st res).svcs = s.svcs := by
  unfold State.answerWhere
  exact foldl_keeps (fun t : State => t.svcs) _ _ _ (by intro t a; (repeat' split) <;> simp)
@[simp] theorem State.answerWhere_xp (s : State) (p : Waiting → Bool) (st : Nat) (res : List Byte) : (s.answerWhere p st res).xp = s.xp := by
  unfold State.answerWhere
  exact foldl_keeps (fun t : State => t.xp) _ _ _ (by intro t a; (repeat' split) <;> simp)
@[simp] theorem State.answerWhere_subs (s : State) (p : Waiting → Bool) (st : Nat) (res : List Byte) : (s.answerWhere p st res).subs = s.subs := by
  unfold State.answerWhere
  exact foldl_keeps (fun t : State => t.subs) _ _ _ (by intro t a; (repeat' split) <;> simp)
@[simp] theorem State.answerWhere_ports (s : State) (p : Waiting → Bool) (st : Nat) (res : List Byte) : (s.answerWhere p st res).ports = s.ports := by
  unfold State.answerWhere
  exact foldl_keeps (fun t : State => t.ports) _ _ _ (by intro t a; (repeat' split) <;> simp)
@[simp] theorem State.answerWhere_bays (s : State) (p : Waiting → Bool) (st : Nat) (res : List Byte) : (s.answerWhere p st res).bays = s.bays := by
  unfold State.answerWhere
  exact foldl_keeps (fun t : State => t.bays) _ _ _ (by intro t a; (repeat' split) <;> simp)
@[simp] theorem State.answerWhere_groups (s : State) (p : Waiting → Bool) (st : Nat) (res : List Byte) : (s.answerWhere p st res).groups = s.groups := by
  unfold State.answerWhere
  exact foldl_keeps (fun t : State => t.groups) _ _ _ (by intro t a; (repeat' split) <;> simp)
@[simp] theorem State.answerWhere_dies (s : State) (p : Waiting → Bool) (st : Nat) (res : List Byte) : (s.answerWhere p st res).dies = s.dies := by
  unfold State.answerWhere
  exact foldl_keeps (fun t : State => t.dies) _ _ _ (by intro t a; (repeat' split) <;> simp)
@[simp] theorem State.answerWhere_con (s : State) (p : Waiting → Bool) (st : Nat) (res : List Byte) : (s.answerWhere p st res).con = s.con := by
  unfold State.answerWhere
  exact foldl_keeps (fun t : State => t.con) _ _ _ (by intro t a; (repeat' split) <;> simp)
@[simp] theorem State.answerWhere_inv (s : State) (p : Waiting → Bool) (st : Nat) (res : List Byte) : (s.answerWhere p st res).inv = s.inv := by
  unfold State.answerWhere
  exact foldl_keeps (fun t : State => t.inv) _ _ _ (by intro t a; (repeat' split) <;> simp)
@[simp] theorem State.answerWhere_cvs (s : State) (p : Waiting → Bool) (st : Nat) (res : List Byte) : (s.answerWhere p st res).cvs = s.cvs := by
  unfold State.answerWhere
  exact foldl_keeps (fun t : State => t.cvs) _ _ _ (by intro t a; (repeat' split) <;> simp)
@[simp] theorem State.answerWhere_core (s : State) (p : Waiting → Bool) (st : Nat) (res : List Byte) (o : Nat) : (s.answerWhere p st res).core o = s.core o := by
  simp [State.core]
@[simp] theorem State.answerWhere_job (s : State) (p : Waiting → Bool) (st : Nat) (res : List Byte) (o : Nat) : (s.answerWhere p st res).job? o = s.job? o := by
  simp [State.job?]
@[simp] theorem State.answerWhere_svc (s : State) (p : Waiting → Bool) (st : Nat) (res : List Byte) (o : Nat) : (s.answerWhere p st res).svc? o = s.svc? o := by
  simp [State.svc?]
@[simp] theorem State.answerWhere_qp (s : State) (p : Waiting → Bool) (st : Nat) (res : List Byte) (o : Nat) : (s.answerWhere p st res).qp? o = s.qp? o := by
  simp [State.qp?]
@[simp] theorem State.answerWhere_sub (s : State) (p : Waiting → Bool) (st : Nat) (res : List Byte) (o : Nat) : (s.answerWhere p st res).sub o = s.sub o := by
  simp [State.sub]
@[simp] theorem State.answerWhere_port (s : State) (p : Waiting → Bool) (st : Nat) (res : List Byte) (o : Nat) : (s.answerWhere p st res).port o = s.port o := by
  simp [State.port]
@[simp] theorem State.answerWhere_bay (s : State) (p : Waiting → Bool) (st : Nat) (res : List Byte) (o : Nat) : (s.answerWhere p st res).bay o = s.bay o := by
  simp [State.bay]
@[simp] theorem State.answerWhere_grp (s : State) (p : Waiting → Bool) (st : Nat) (res : List Byte) (o : Nat) : (s.answerWhere p st res).grp o = s.grp o := by
  simp [State.grp]
@[simp] theorem State.answerWhere_die (s : State) (p : Waiting → Bool) (st : Nat) (res : List Byte) (o : Nat) : (s.answerWhere p st res).die o = s.die o := by
  simp [State.die]
@[simp] theorem State.answerWhere_chan (s : State) (p : Waiting → Bool) (st : Nat) (res : List Byte) (o : Nat) : (s.answerWhere p st res).chan o = s.chan o := by
  simp [State.chan]
@[simp] theorem State.answerWhere_bridge (s : State) (p : Waiting → Bool) (st : Nat) (res : List Byte) (o : Nat) : (s.answerWhere p st res).bridge o = s.bridge o := by
  simp [State.bridge]
@[simp] theorem State.answerWhere_cv (s : State) (p : Waiting → Bool) (st : Nat) (res : List Byte) (o : Nat) : (s.answerWhere p st res).cv o = s.cv o := by
  simp [State.cv]
@[simp] theorem State.answerWhere_part (s : State) (p : Waiting → Bool) (st : Nat) (res : List Byte) (o : Nat) : (s.answerWhere p st res).part? o = s.part? o := by
  simp [State.part?]
@[simp] theorem State.answerWhere_ctr (s : State) (p : Waiting → Bool) (st : Nat) (res : List Byte) (o : Nat) : (s.answerWhere p st res).ctr o = s.ctr o := by
  simp [State.ctr]
@[simp] theorem State.answerWhere_reg (s : State) (p : Waiting → Bool) (st : Nat) (res : List Byte) (b : Blk) (o : Nat) : (s.answerWhere p st res).reg b o = s.reg b o := by
  simp [State.reg]

/-! ### reply -/

@[simp] theorem State.reply_pending (s : State) (r : Req) (st : Nat) (res : List Byte) : (s.reply r st res).pending = s.pending := by
  simp [State.reply]
@[simp] theorem State.reply_tick (s : State) (r : Req) (st : Nat) (res : List Byte) : (s.reply r st res).tick = s.tick := by
  simp [State.reply]
@[simp] theorem State.reply_free (s : State) (r : Req) (st : Nat) (res : List Byte) : (s.reply r st res).free = s.free := by
  simp [State.reply]
@[simp] theorem State.reply_busOut (s : State) (r : Req) (st : Nat) (res : List Byte) : (s.reply r st res).busOut = s.busOut := by
  simp [State.reply]
@[simp] theorem State.reply_localMem (s : State) (r : Req) (st : Nat) (res : List Byte) : (s.reply r st res).localMem = s.localMem := by
  simp [State.reply]
@[simp] theorem State.reply_acc (s : State) (r : Req) (st : Nat) (res : List Byte) : (s.reply r st res).acc = s.acc := by
  simp [State.reply]
@[simp] theorem State.reply_accFlags (s : State) (r : Req) (st : Nat) (res : List Byte) : (s.reply r st res).accFlags = s.accFlags := by
  simp [State.reply]
@[simp] theorem State.reply_accGen (s : State) (r : Req) (st : Nat) (res : List Byte) : (s.reply r st res).accGen = s.accGen := by
  simp [State.reply]
@[simp] theorem State.reply_era (s : State) (r : Req) (st : Nat) (res : List Byte) : (s.reply r st res).era = s.era := by
  simp [State.reply]
@[simp] theorem State.reply_cores (s : State) (r : Req) (st : Nat) (res : List Byte) : (s.reply r st res).cores = s.cores := by
  simp [State.reply]
@[simp] theorem State.reply_remap (s : State) (r : Req) (st : Nat) (res : List Byte) : (s.reply r st res).remap = s.remap := by
  simp [State.reply]
@[simp] theorem State.reply_counters (s : State) (r : Req) (st : Nat) (res : List Byte) : (s.reply r st res).counters = s.counters := by
  simp [State.reply]
@[simp] theorem State.reply_cfg (s : State) (r : Req) (st : Nat) (res : List Byte) : (s.reply r st res).cfg = s.cfg := by
  simp [State.reply]
@[simp] theorem State.reply_pend (s : State) (r : Req) (st : Nat) (res : List Byte) : (s.reply r st res).pend = s.pend := by
  simp [State.reply]
@[simp] theorem State.reply_bseq (s : State) (r : Req) (st : Nat) (res : List Byte) : (s.reply r st res).bseq = s.bseq := by
  simp [State.reply]
@[simp] theorem State.reply_wstat (s : State) (r : Req) (st : Nat) (res : List Byte) : (s.reply r st res).wstat = s.wstat := by
  simp [State.reply]
@[simp] theorem State.reply_errcnt (s : State) (r : Req) (st : Nat) (res : List Byte) : (s.reply r st res).errcnt = s.errcnt := by
  simp [State.reply]
@[simp] theorem State.reply_snap (s : State) (r : Req) (st : Nat) (res : List Byte) : (s.reply r st res).snap = s.snap := by
  simp [State.reply]
@[simp] theorem State.reply_compat (s : State) (r : Req) (st : Nat) (res : List Byte) : (s.reply r st res).compat = s.compat := by
  simp [State.reply]
@[simp] theorem State.reply_bu (s : State) (r : Req) (st : Nat) (res : List Byte) : (s.reply r st res).bu = s.bu := by
  simp [State.reply]
@[simp] theorem State.reply_power (s : State) (r : Req) (st : Nat) (res : List Byte) : (s.reply r st res).power = s.power := by
  simp [State.reply]
@[simp] theorem State.reply_defects (s : State) (r : Req) (st : Nat) (res : List Byte) : (s.reply r st res).defects = s.defects := by
  simp [State.reply]
@[simp] theorem State.reply_sec (s : State) (r : Req) (st : Nat) (res : List Byte) : (s.reply r st res).sec = s.sec := by
  simp [State.reply]
@[simp] theorem State.reply_store (s : State) (r : Req) (st : Nat) (res : List Byte) : (s.reply r st res).store = s.store := by
  simp [State.reply]
@[simp] theorem State.reply_pewter (s : State) (r : Req) (st : Nat) (res : List Byte) : (s.reply r st res).pewter = s.pewter := by
  simp [State.reply]
@[simp] theorem State.reply_jobs (s : State) (r : Req) (st : Nat) (res : List Byte) : (s.reply r st res).jobs = s.jobs := by
  simp [State.reply]
@[simp] theorem State.reply_svcs (s : State) (r : Req) (st : Nat) (res : List Byte) : (s.reply r st res).svcs = s.svcs := by
  simp [State.reply]
@[simp] theorem State.reply_xp (s : State) (r : Req) (st : Nat) (res : List Byte) : (s.reply r st res).xp = s.xp := by
  simp [State.reply]
@[simp] theorem State.reply_subs (s : State) (r : Req) (st : Nat) (res : List Byte) : (s.reply r st res).subs = s.subs := by
  simp [State.reply]
@[simp] theorem State.reply_ports (s : State) (r : Req) (st : Nat) (res : List Byte) : (s.reply r st res).ports = s.ports := by
  simp [State.reply]
@[simp] theorem State.reply_bays (s : State) (r : Req) (st : Nat) (res : List Byte) : (s.reply r st res).bays = s.bays := by
  simp [State.reply]
@[simp] theorem State.reply_groups (s : State) (r : Req) (st : Nat) (res : List Byte) : (s.reply r st res).groups = s.groups := by
  simp [State.reply]
@[simp] theorem State.reply_dies (s : State) (r : Req) (st : Nat) (res : List Byte) : (s.reply r st res).dies = s.dies := by
  simp [State.reply]
@[simp] theorem State.reply_con (s : State) (r : Req) (st : Nat) (res : List Byte) : (s.reply r st res).con = s.con := by
  simp [State.reply]
@[simp] theorem State.reply_inv (s : State) (r : Req) (st : Nat) (res : List Byte) : (s.reply r st res).inv = s.inv := by
  simp [State.reply]
@[simp] theorem State.reply_cvs (s : State) (r : Req) (st : Nat) (res : List Byte) : (s.reply r st res).cvs = s.cvs := by
  simp [State.reply]
@[simp] theorem State.reply_core (s : State) (r : Req) (st : Nat) (res : List Byte) (o : Nat) : (s.reply r st res).core o = s.core o := by
  simp [State.core]
@[simp] theorem State.reply_job (s : State) (r : Req) (st : Nat) (res : List Byte) (o : Nat) : (s.reply r st res).job? o = s.job? o := by
  simp [State.job?]
@[simp] theorem State.reply_svc (s : State) (r : Req) (st : Nat) (res : List Byte) (o : Nat) : (s.reply r st res).svc? o = s.svc? o := by
  simp [State.svc?]
@[simp] theorem State.reply_qp (s : State) (r : Req) (st : Nat) (res : List Byte) (o : Nat) : (s.reply r st res).qp? o = s.qp? o := by
  simp [State.qp?]
@[simp] theorem State.reply_sub (s : State) (r : Req) (st : Nat) (res : List Byte) (o : Nat) : (s.reply r st res).sub o = s.sub o := by
  simp [State.sub]
@[simp] theorem State.reply_port (s : State) (r : Req) (st : Nat) (res : List Byte) (o : Nat) : (s.reply r st res).port o = s.port o := by
  simp [State.port]
@[simp] theorem State.reply_bay (s : State) (r : Req) (st : Nat) (res : List Byte) (o : Nat) : (s.reply r st res).bay o = s.bay o := by
  simp [State.bay]
@[simp] theorem State.reply_grp (s : State) (r : Req) (st : Nat) (res : List Byte) (o : Nat) : (s.reply r st res).grp o = s.grp o := by
  simp [State.grp]
@[simp] theorem State.reply_die (s : State) (r : Req) (st : Nat) (res : List Byte) (o : Nat) : (s.reply r st res).die o = s.die o := by
  simp [State.die]
@[simp] theorem State.reply_chan (s : State) (r : Req) (st : Nat) (res : List Byte) (o : Nat) : (s.reply r st res).chan o = s.chan o := by
  simp [State.chan]
@[simp] theorem State.reply_bridge (s : State) (r : Req) (st : Nat) (res : List Byte) (o : Nat) : (s.reply r st res).bridge o = s.bridge o := by
  simp [State.bridge]
@[simp] theorem State.reply_cv (s : State) (r : Req) (st : Nat) (res : List Byte) (o : Nat) : (s.reply r st res).cv o = s.cv o := by
  simp [State.cv]
@[simp] theorem State.reply_part (s : State) (r : Req) (st : Nat) (res : List Byte) (o : Nat) : (s.reply r st res).part? o = s.part? o := by
  simp [State.part?]
@[simp] theorem State.reply_ctr (s : State) (r : Req) (st : Nat) (res : List Byte) (o : Nat) : (s.reply r st res).ctr o = s.ctr o := by
  simp [State.ctr]
@[simp] theorem State.reply_reg (s : State) (r : Req) (st : Nat) (res : List Byte) (b : Blk) (o : Nat) : (s.reply r st res).reg b o = s.reg b o := by
  simp [State.reg]

/-! ### waits -/

@[simp] theorem State.waits_pending (s : State) (r : Req) (w a : Nat) : (s.waits r w a).pending = s.pending := by
  rfl
@[simp] theorem State.waits_tick (s : State) (r : Req) (w a : Nat) : (s.waits r w a).tick = s.tick := by
  rfl
@[simp] theorem State.waits_free (s : State) (r : Req) (w a : Nat) : (s.waits r w a).free = s.free := by
  rfl
@[simp] theorem State.waits_hostMem (s : State) (r : Req) (w a : Nat) : (s.waits r w a).hostMem = s.hostMem := by
  rfl
@[simp] theorem State.waits_busOut (s : State) (r : Req) (w a : Nat) : (s.waits r w a).busOut = s.busOut := by
  rfl
@[simp] theorem State.waits_devMem (s : State) (r : Req) (w a : Nat) : (s.waits r w a).devMem = s.devMem := by
  rfl
@[simp] theorem State.waits_localMem (s : State) (r : Req) (w a : Nat) : (s.waits r w a).localMem = s.localMem := by
  rfl
@[simp] theorem State.waits_acc (s : State) (r : Req) (w a : Nat) : (s.waits r w a).acc = s.acc := by
  rfl
@[simp] theorem State.waits_accFlags (s : State) (r : Req) (w a : Nat) : (s.waits r w a).accFlags = s.accFlags := by
  rfl
@[simp] theorem State.waits_accGen (s : State) (r : Req) (w a : Nat) : (s.waits r w a).accGen = s.accGen := by
  rfl
@[simp] theorem State.waits_era (s : State) (r : Req) (w a : Nat) : (s.waits r w a).era = s.era := by
  rfl
@[simp] theorem State.waits_cores (s : State) (r : Req) (w a : Nat) : (s.waits r w a).cores = s.cores := by
  rfl
@[simp] theorem State.waits_remap (s : State) (r : Req) (w a : Nat) : (s.waits r w a).remap = s.remap := by
  rfl
@[simp] theorem State.waits_counters (s : State) (r : Req) (w a : Nat) : (s.waits r w a).counters = s.counters := by
  rfl
@[simp] theorem State.waits_cfg (s : State) (r : Req) (w a : Nat) : (s.waits r w a).cfg = s.cfg := by
  rfl
@[simp] theorem State.waits_pend (s : State) (r : Req) (w a : Nat) : (s.waits r w a).pend = s.pend := by
  rfl
@[simp] theorem State.waits_bseq (s : State) (r : Req) (w a : Nat) : (s.waits r w a).bseq = s.bseq := by
  rfl
@[simp] theorem State.waits_wstat (s : State) (r : Req) (w a : Nat) : (s.waits r w a).wstat = s.wstat := by
  rfl
@[simp] theorem State.waits_errcnt (s : State) (r : Req) (w a : Nat) : (s.waits r w a).errcnt = s.errcnt := by
  rfl
@[simp] theorem State.waits_snap (s : State) (r : Req) (w a : Nat) : (s.waits r w a).snap = s.snap := by
  rfl
@[simp] theorem State.waits_lastMb (s : State) (r : Req) (w a : Nat) : (s.waits r w a).lastMb = s.lastMb := by
  rfl
@[simp] theorem State.waits_compat (s : State) (r : Req) (w a : Nat) : (s.waits r w a).compat = s.compat := by
  rfl
@[simp] theorem State.waits_bu (s : State) (r : Req) (w a : Nat) : (s.waits r w a).bu = s.bu := by
  rfl
@[simp] theorem State.waits_power (s : State) (r : Req) (w a : Nat) : (s.waits r w a).power = s.power := by
  rfl
@[simp] theorem State.waits_defects (s : State) (r : Req) (w a : Nat) : (s.waits r w a).defects = s.defects := by
  rfl
@[simp] theorem State.waits_sec (s : State) (r : Req) (w a : Nat) : (s.waits r w a).sec = s.sec := by
  rfl
@[simp] theorem State.waits_mem (s : State) (r : Req) (w a : Nat) : (s.waits r w a).mem = s.mem := by
  rfl
@[simp] theorem State.waits_store (s : State) (r : Req) (w a : Nat) : (s.waits r w a).store = s.store := by
  rfl
@[simp] theorem State.waits_link (s : State) (r : Req) (w a : Nat) : (s.waits r w a).link = s.link := by
  rfl
@[simp] theorem State.waits_pewter (s : State) (r : Req) (w a : Nat) : (s.waits r w a).pewter = s.pewter := by
  rfl
@[simp] theorem State.waits_jobs (s : State) (r : Req) (w a : Nat) : (s.waits r w a).jobs = s.jobs := by
  rfl
@[simp] theorem State.waits_svcs (s : State) (r : Req) (w a : Nat) : (s.waits r w a).svcs = s.svcs := by
  rfl
@[simp] theorem State.waits_xp (s : State) (r : Req) (w a : Nat) : (s.waits r w a).xp = s.xp := by
  rfl
@[simp] theorem State.waits_subs (s : State) (r : Req) (w a : Nat) : (s.waits r w a).subs = s.subs := by
  rfl
@[simp] theorem State.waits_ports (s : State) (r : Req) (w a : Nat) : (s.waits r w a).ports = s.ports := by
  rfl
@[simp] theorem State.waits_bays (s : State) (r : Req) (w a : Nat) : (s.waits r w a).bays = s.bays := by
  rfl
@[simp] theorem State.waits_groups (s : State) (r : Req) (w a : Nat) : (s.waits r w a).groups = s.groups := by
  rfl
@[simp] theorem State.waits_dies (s : State) (r : Req) (w a : Nat) : (s.waits r w a).dies = s.dies := by
  rfl
@[simp] theorem State.waits_con (s : State) (r : Req) (w a : Nat) : (s.waits r w a).con = s.con := by
  rfl
@[simp] theorem State.waits_inv (s : State) (r : Req) (w a : Nat) : (s.waits r w a).inv = s.inv := by
  rfl
@[simp] theorem State.waits_cvs (s : State) (r : Req) (w a : Nat) : (s.waits r w a).cvs = s.cvs := by
  rfl
@[simp] theorem State.waits_core (s : State) (r : Req) (w a : Nat) (o : Nat) : (s.waits r w a).core o = s.core o := by
  simp [State.core]
@[simp] theorem State.waits_job (s : State) (r : Req) (w a : Nat) (o : Nat) : (s.waits r w a).job? o = s.job? o := by
  simp [State.job?]
@[simp] theorem State.waits_svc (s : State) (r : Req) (w a : Nat) (o : Nat) : (s.waits r w a).svc? o = s.svc? o := by
  simp [State.svc?]
@[simp] theorem State.waits_qp (s : State) (r : Req) (w a : Nat) (o : Nat) : (s.waits r w a).qp? o = s.qp? o := by
  simp [State.qp?]
@[simp] theorem State.waits_sub (s : State) (r : Req) (w a : Nat) (o : Nat) : (s.waits r w a).sub o = s.sub o := by
  simp [State.sub]
@[simp] theorem State.waits_port (s : State) (r : Req) (w a : Nat) (o : Nat) : (s.waits r w a).port o = s.port o := by
  simp [State.port]
@[simp] theorem State.waits_bay (s : State) (r : Req) (w a : Nat) (o : Nat) : (s.waits r w a).bay o = s.bay o := by
  simp [State.bay]
@[simp] theorem State.waits_grp (s : State) (r : Req) (w a : Nat) (o : Nat) : (s.waits r w a).grp o = s.grp o := by
  simp [State.grp]
@[simp] theorem State.waits_die (s : State) (r : Req) (w a : Nat) (o : Nat) : (s.waits r w a).die o = s.die o := by
  simp [State.die]
@[simp] theorem State.waits_chan (s : State) (r : Req) (w a : Nat) (o : Nat) : (s.waits r w a).chan o = s.chan o := by
  simp [State.chan]
@[simp] theorem State.waits_bridge (s : State) (r : Req) (w a : Nat) (o : Nat) : (s.waits r w a).bridge o = s.bridge o := by
  simp [State.bridge]
@[simp] theorem State.waits_cv (s : State) (r : Req) (w a : Nat) (o : Nat) : (s.waits r w a).cv o = s.cv o := by
  simp [State.cv]
@[simp] theorem State.waits_part (s : State) (r : Req) (w a : Nat) (o : Nat) : (s.waits r w a).part? o = s.part? o := by
  simp [State.part?]
@[simp] theorem State.waits_ctr (s : State) (r : Req) (w a : Nat) (o : Nat) : (s.waits r w a).ctr o = s.ctr o := by
  simp [State.ctr]
@[simp] theorem State.waits_reg (s : State) (r : Req) (w a : Nat) (b : Blk) (o : Nat) : (s.waits r w a).reg b o = s.reg b o := by
  simp [State.reg]
/-! ### A request at the front -/

/-- Writing and taking a response keeps the memories canonical, and so on: a request without an argument
block runs its body on the state that has taken it. -/
theorem runCmd_front {s : State} {mb op n : Nat} {oo : Bool} {r : Req} (h : s.front mb op n oo r)
    (body : State → Req → CmdOut) : runCmd s mb op (.exact n) oo body =
      match body (s.takeReq mb) r with
      | .done s2 st res => s2.reply r st res
      | .wait s2 what arg => s2.waits r what arg := by
  obtain ⟨q, ⟨h1, h2, h3, h4, h5, h6, h7, h8⟩, h9⟩ := h
  obtain ⟨bs, hb, rfl⟩ := Option.map_eq_some_iff.1 h2
  subst h3
  have hf : ¬((if s.v2 mb then (parseReq s mb bs).flags / 2 else (parseReq s mb bs).flags / 4) ≠ 0) := by
    split at h6 <;> rename_i hv <;> simp only [hv, if_true, if_false, Bool.false_eq_true] <;> omega
  have hr : ¬((mb ≠ 0 ∧ (parseReq s mb bs).scope = none) ∨ (oo = true ∧ mb ≠ 0) ∨
      (mb = 0 ∧ s.link.detached = true ∧ (parseReq s mb bs).op ≠ 0x0105 ∧ (parseReq s mb bs).op ≠ 0x0111)) := by
    rintro (⟨a, b⟩ | ⟨a, b⟩ | ⟨a, b, c, d⟩)
    · rcases h7 with h | h
      · exact a h
      · exact h.1 b
    · rcases h7 with h | h
      · exact b h
      · simp [a] at h
    · rcases h8 with h | h | h | h
      · exact h a
      · simp [b] at h
      · exact c h
      · exact d h
  have hl : ¬((!(lenOk (s.v2 mb) (parseReq s mb bs) (.exact n)).1) = true ∨
      (if s.v2 mb then 5 else 7) < (parseReq s mb bs).len) := by
    rw [h4]; simp only [Bool.not_true, Bool.false_eq_true, false_or]; omega
  unfold runCmd
  simp only [h1, Bool.not_true, Bool.false_eq_true, if_false, hb, ne_eq, not_true_eq_false]
  rw [if_neg hl, if_neg hf, if_neg hr]
  rcases h9 with ⟨h9, rfl⟩ | ⟨h9, a, ha, rfl⟩
  · rw [h9]
    simp only [Bool.false_eq_true, if_false]
    generalize body (s.takeReq mb) (parseReq s mb bs) = o
    cases o <;> rfl
  · have hin : (lenOk (s.v2 mb) (parseReq s mb bs) (.exact n)).2 = true := by
      have h4' := h4
      unfold lenOk at h4' ⊢
      dsimp only at h4' ⊢
      split
      · rfl
      · rename_i hn; rw [if_neg hn, h9] at h4'; simp at h4'
    rw [h9]
    simp only [if_true, ha, hin]
    generalize body (s.takeReq mb) { parseReq s mb bs with words := (upTo 7).map (fun i => leAt a (8 * i) 8) } = o
    cases o <;> rfl

/-- A request with an argument block runs its body with the block's bytes. -/
theorem runCmd_frontArg {s : State} {mb op n : Nat} {oo : Bool} {r : Req} {a : List Byte}
    (h : s.frontArg mb op n oo r a) (body : State → Req → CmdOut) : runCmd s mb op (.block n) oo body =
      match body (s.takeReq mb) { r with arg := a } with
      | .done s2 st res => s2.reply r st res
      | .wait s2 what arg => s2.waits r what arg := by
  obtain ⟨⟨h1, h2, h3, h4, h5, h6, h7, h8⟩, h9⟩ := h
  obtain ⟨bs, hb, rfl⟩ := Option.map_eq_some_iff.1 h2
  subst h3
  have hb2 : (parseReq s mb bs).argblk = true := by
    have := h4; simp only [lenOk, Bool.and_eq_true] at this; exact this.2
  have hin : (lenOk (s.v2 mb) (parseReq s mb bs) (.block n)).2 = false := rfl
  have hf : ¬((if s.v2 mb then (parseReq s mb bs).flags / 2 else (parseReq s mb bs).flags / 4) ≠ 0) := by
    split at h6 <;> rename_i hv <;> simp only [hv, if_true, if_false, Bool.false_eq_true] <;> omega
  have hr : ¬((mb ≠ 0 ∧ (parseReq s mb bs).scope = none) ∨ (oo = true ∧ mb ≠ 0) ∨
      (mb = 0 ∧ s.link.detached = true ∧ (parseReq s mb bs).op ≠ 0x0105 ∧ (parseReq s mb bs).op ≠ 0x0111)) := by
    rintro (⟨a, b⟩ | ⟨a, b⟩ | ⟨a, b, c, d⟩)
    · rcases h7 with h | h
      · exact a h
      · exact h.1 b
    · rcases h7 with h | h
      · exact b h
      · simp [a] at h
    · rcases h8 with h | h | h | h
      · exact h a
      · simp [b] at h
      · exact c h
      · exact d h
  have hl : ¬((!(lenOk (s.v2 mb) (parseReq s mb bs) (.block n)).1) = true ∨
      (if s.v2 mb then 5 else 7) < (parseReq s mb bs).len) := by
    rw [h4]; simp only [Bool.not_true, Bool.false_eq_true, false_or]; omega
  unfold runCmd
  simp only [h1, Bool.not_true, Bool.false_eq_true, if_false, hb, ne_eq, not_true_eq_false]
  rw [if_neg hl, if_neg hf, if_neg hr, hb2]
  simp only [if_true, h9, hin, Bool.false_eq_true, if_false]
  generalize body (s.takeReq mb) { parseReq s mb bs with arg := a } = o
  cases o <;> rfl

end Sys2Proof.Machine
end

