-- ==== Sys2Proof/WellFormed.lean ====
section
/-! DEFINITION. Which commands are well-formed: operands name what the device has. Most operands are
bounded by their types; these are the rest. -/

namespace Sys2Proof

/-- A BAR and an offset that name a register word (R291, R292): 64 KiB of BAR0, 1 MiB of BAR2. -/
def regAccessOk (bar off : Nat) : Bool :=
  off % 4 == 0 && ((bar == 0 && decide (off < 0x10000)) || (bar == 2 && decide (off < 0x100000)))

/-- A frame as a fibre can carry it: nine quanta never, tags of 12 and 3 bits. -/
def frameOk (f : Frame) : Bool :=
  (match f.tag with | none => true | some (v, p) => decide (v < 4096) && decide (p < 8)) &&
  (match f.pfc with | none => true | some (_, q) => q.length == 8 && q.all (fun x => decide (x < 65536))) &&
  decide (f.cast < 3)

/-- A command is well-formed. -/
def Instr.wellFormed (i : Instr) : Bool :=
  match i with
  | .registerWrite bar off _ => regAccessOk bar off
  | .registerRead bar off => regAccessOk bar off
  | .trainMemory m => m.length == 192
  | .testCores l => l.all (fun e => decide (e.1 < 2304) && decide (e.2 < 8))
  | .trainSolder l _ => l.all (fun e => decide (e.bridge < 4) && decide (e.module < 12) && decide (e.lane < 68))
  | .testMemory _ l => l.all (fun e => decide (e.channel < 192))
  | .thermalSample t => t.die.length == 128 && t.mem.length == 12
  | .controlInterval c => c.phaseCores.length == 32
  | .slewBudgetUpdate _ h => h.length == 16
  | .droopRecal _ n => decide (n ≤ 16)
  | .frameReceive _ f => frameOk f
  | .pfcFrameReceive _ f => frameOk f && f.pfc.isSome
  | .keepalive _ _ rail => decide (rail < 16)
  | .powerOn mv10 => decide (mv10 < 65536)
  | _ => true

end Sys2Proof
end

