-- ==== Sys2Proof/Tests/Slice0.lean ====
section
/-! SUPPORT. Tests: for each clause of each statement a small state and operands that meet its hypotheses
(`witness_<statement>_<clause>`), the ill-formed terms that the well-formedness checks refuse, and figures of
the manual. -/

namespace Sys2Proof.Tests
open Sys2Proof Sys2Proof.Machine
set_option maxRecDepth 100000
set_option Elab.async false
set_option linter.unusedVariables false

/-! ### Small states -/

/-- The module with its firmware and its host link up; mailbox 0 is enabled, has one request to take at the start of
its ring in host memory, and answers at 0x10000. -/
def lit : State :=
  { State.reset with
    power := { perst := false, hub := true, cp := true, pdG := 2 ^ 32 - 1, pdFab := 15, pdPhy := 15, pdOpt := 255 }
    link := { up := true, cxl := true, width := 16, requester := some 7 }
    bu := { next := 0, session := 1 }
    mailboxes := [(0, { st := .idle, prod := 1 })]
    cfg := [(regKey (.mb 0) 0x018, 0x10000), (regKey (.mb 0) 0x020, 0x80000000)]
    mem := { chanOk := 2 ^ 192 - 1, gen := 2, trained := true }
    remap := (List.range 2048).map (fun c => (c, c))
    devMem := {}
    localMem := {} }

/-- The bytes of a request: opcode, flags, LEN, tag 5, payload words (R36). -/
def reqBytes (op flags : Nat) (ws : List Nat) : List Byte :=
  natLE 2 op ++ natLE 1 flags ++ natLE 1 ws.length ++ natLE 4 5 ++ ws.flatMap (natLE 8)
/-- A request in the first slot of mailbox 0. -/
def ask (s : State) (op : Nat) (ws : List Nat) : State := { s with hostMem := s.hostMem.writeL 0 (reqBytes op 0 ws) }
/-- A request with an argument block at 0x20000 of host memory (R40, R41). -/
def askArg (s : State) (op : Nat) (ws : List Nat) (a : List Byte) : State :=
  { s with hostMem := (s.hostMem.writeL 0 (reqBytes op 1 (ws ++ [0x20000, a.length + 2 ^ 32 * crc32c a]))).writeL 0x20000 a }
/-- The request at the front of a mailbox. -/
def reqOf (s : State) (mb : Nat) : Req := parseReq s mb ((s.readSlot mb).getD [])
/-- Its argument block. -/
def argOf (s : State) (mb : Nat) : List Byte :=
  match (s.takeReq mb).argBlock (reqOf s mb) with
  | .ok a => a
  | .error _ => []

/-- `State.atFront` of the request in front, as a check. -/
def atFrontB (s : State) (mb op : Nat) (rule : LenRule) (operatorOnly : Bool) : Bool :=
  s.mbReady mb && (s.readSlot mb).isSome && (reqOf s mb).op == op && (lenOk (s.v2 mb) (reqOf s mb) rule).1 &&
  decide ((reqOf s mb).len ≤ (if s.v2 mb then 5 else 7)) && decide ((reqOf s mb).flags < (if s.v2 mb then 2 else 4)) &&
  (mb == 0 || ((reqOf s mb).scope.isSome && !operatorOnly)) &&
  (mb != 0 || !s.link.detached || op == 0x0105 || op == 0x0111)

theorem atFront_of {s : State} {mb op : Nat} {rule : LenRule} {o : Bool} (h : atFrontB s mb op rule o = true) :
    s.atFront mb op rule o (reqOf s mb) := by
  simp only [atFrontB, Bool.and_eq_true, beq_iff_eq, decide_eq_true_eq, Bool.or_eq_true, Bool.not_eq_true',
    bne_iff_ne, ne_eq, Option.isSome_iff_ne_none] at h
  obtain ⟨⟨⟨⟨⟨⟨⟨h1, h2⟩, h3⟩, h4⟩, h5⟩, h6⟩, h7⟩, h8⟩ := h
  refine ⟨h1, ?_, h3, h4, h5, h6, h7, ?_⟩
  · rw [reqOf]
    cases hr : s.readSlot mb with
    | none => exact absurd hr h2
    | some b => rfl
  · rcases h8 with ((h | h) | h) | h
    · exact .inl h
    · exact .inr (.inl h)
    · exact .inr (.inr (.inl h))
    · exact .inr (.inr (.inr h))

theorem front_of {s : State} {mb op n : Nat} {o : Bool}
    (h : (atFrontB s mb op (.exact n) o && !(reqOf s mb).argblk) = true) : s.front mb op n o (reqOf s mb) := by
  rw [Bool.and_eq_true, Bool.not_eq_true'] at h
  exact ⟨reqOf s mb, atFront_of h.1, .inl ⟨h.2, rfl⟩⟩

theorem frontArg_of {s : State} {mb op n : Nat} {o : Bool}
    (h : (atFrontB s mb op (.block n) o &&
      (match (s.takeReq mb).argBlock (reqOf s mb) with | .ok _ => true | .error _ => false)) = true) :
    s.frontArg mb op n o (reqOf s mb) (argOf s mb) := by
  rw [Bool.and_eq_true] at h
  refine ⟨atFront_of h.1, ?_⟩
  have h2 := h.2
  rw [argOf]
  split at h2 <;> simp_all

/-- The value of a computation that succeeds. -/
def okD {ε α : Type} (d : α) (e : Except ε α) : α := match e with | .ok a => a | .error _ => d
/-- Does a computation succeed? -/
def okB {ε α : Type} (e : Except ε α) : Bool := match e with | .ok _ => true | .error _ => false

theorem ok_of {ε α : Type} (d : α) {e : Except ε α} (h : okB e = true) : e = .ok (okD d e) := by
  cases e with
  | ok a => rfl
  | error x => simp [okB] at h

theorem some_of {α : Type} (d : α) {o : Option α} (h : o.isSome = true) : o = some (o.getD d) := by
  cases o with
  | some a => rfl
  | none => simp at h

/-- The value a refused computation answers. -/
def errD {ε α : Type} (d : ε) (e : Except ε α) : ε := match e with | .ok _ => d | .error x => x

theorem err_of {ε α : Type} (d : ε) {e : Except ε α} (h : okB e = false) : e = .error (errD d e) := by
  cases e with
  | ok a => simp [okB] at h
  | error x => rfl

/-- The module with partition 0 of groups 0 and 1 and sets 0 to 3, and partition 1 of group 2 and set 4. -/
def lit0 : State :=
  { lit with
    sec := { parts := [(0, { groups := 3, setFirst := 0, setCount := 4 }), (1, { groups := 4, setFirst := 4 })] } }
/-- A loaded job of partition 0 on group 0. -/
def job0 : Job :=
  { part := 0, mailbox := 0, groups := 1, image := 0, taskCount := 1, lists := [], ctrBase := 0, ctrCount := 4,
    incs := [], cpl := 0, cplCount := 0, stallMs := 0 }
/-- The module with job 0 in partition 0. -/
def withJob (x : Job) : State := { lit0 with jobs := [(0, x)] }

theorem some_only {α : Type} {o : Option α} (y : α) {P : α → Prop} (h : o = some y) (hp : P y) :
    ∀ x, o = some x → P x := by
  intro x hx
  rw [h] at hx
  cases hx
  exact hp

theorem none_only {α : Type} {o : Option α} {P : α → Prop} (h : o = none) : ∀ x, o = some x → P x := by
  intro x hx
  rw [h] at hx
  cases hx

theorem ok_eq {ε α : Type} (d : α) {e : Except ε α} {a : α} (h : okB e = true) (h2 : okD d e = a) : e = .ok a :=
  h2 ▸ ok_of d h

/-! ### Partitions -/

theorem isoOk_of {s : State} {p : Nat} {x : Partn} (h : x.isolated = false)
    (hs : s.sec.parts.all (fun e => !e.2.isolated) = true) : s.isoOk p x = true := by
  have h0 : (((s.sec.parts.filter (fun e => e.1 ≠ p)).map (·.2) ++ [x]).filter (·.isolated)) = [] := by
    rw [List.filter_eq_nil_iff]
    intro y hy
    rw [List.mem_append] at hy
    rcases hy with hy | hy
    · obtain ⟨e, he, rfl⟩ := List.mem_map.mp hy
      have := List.all_eq_true.mp hs e ((List.mem_filter.mp he).1)
      simpa using this
    · rw [List.mem_singleton.mp hy, h]; simp
  simp only [State.isoOk, h0]
  simp

theorem witness_PartitionCommandsComplete_1 : ∃ (mb : MbId) (s : State) (r : Req) (p groups first count : Nat),
    s.front mb.val 0x0201 5 true r ∧ p = bitsOf (r.w 0) 2 0 ∧ groups = bitsOf (r.w 1) 31 0 ∧ first = bitsOf (r.w 2)
    2 0 ∧ count = bitsOf (r.w 2) 6 4 + 1 ∧ s.part? p = none ∧ first + count ≤ 8 ∧ (∀ g ∈ maskBits groups,
    s.groupOff g = false ∧ s.groupPart g = none) ∧ (∀ i, i < count → s.setOwner (first + i) = none) ∧ ((r.w
    0).testBit 8 = true → 50 ≤ bitsOf (r.w 2) 26 16 ∧ bitsOf (r.w 2) 26 16 ≤ 1500) ∧ (∀ x : Partn, x.isolated =
    (r.w 0).testBit 8 → x.slice = bitsOf (r.w 2) 26 16 → x.ports = byteList 8 (r.w 3) → x.bridges = byteList 4 (r.w
    4) → s.isoOk p x = true) :=
  ⟨0, ask lit 0x0201 [7, 0x80000001, 7, 0, 0], _, _, _, _, _, front_of (by decide +kernel), rfl, rfl, rfl, rfl,
  by decide +kernel, by decide +kernel, by decide +kernel, by decide +kernel, by decide +kernel,
  fun x h _ _ _ => isoOk_of (h.trans (by decide +kernel)) (by decide +kernel)⟩

theorem witness_PartitionCommandsComplete_2 : ∃ (mb : MbId) (s : State) (r : Req) (p : Nat) (x : Partn),
    s.front mb.val 0x0202 1 true r ∧ p = bitsOf (r.w 0) 2 0 ∧ s.part? p = some x ∧ (∀ e ∈ s.jobs, e.2.part ≠ p) ∧
    (∀ e ∈ s.svcs, e.2.part ≠ p) ∧ (∀ e ∈ s.pewter, e.2.part ≠ p) ∧ (∀ e ∈ s.store.loads, e.2.part ≠ some p) ∧ (∀ e
    ∈ (s.takeReq mb.val).mailboxes, e.2.part ≠ some p) :=
  ⟨0, ask lit0 0x0202 [1], _, _, _, front_of (by decide +kernel), rfl, rfl, by decide +kernel,
  by decide +kernel, by decide +kernel, by decide +kernel, by decide +kernel⟩

theorem witness_PartitionCommandsComplete_3 : ∃ (mb : MbId) (s : State) (r : Req) (n p : Nat), s.front mb.val
    0x0205 1 true r ∧ n = bitsOf (r.w 0) 5 0 ∧ p = bitsOf (r.w 0) 11 8 ∧ 1 ≤ n ∧ n ≤ 55 ∧ (p = 15 ∨ (p < 8 ∧
    (s.part? p).isSome = true)) ∧ (s.mb n).st = .disabled :=
  ⟨0, ask lit0 0x0205 [55 + 15 * 2 ^ 8], _, _, _, front_of (by decide +kernel), rfl, rfl, by decide +kernel,
  by decide +kernel, by decide +kernel, by decide +kernel⟩

theorem witness_PartitionCommandsComplete_4 : ∃ (mb : MbId) (s : State) (r : Req) (p groups first count : Nat)
    (x : Partn), s.front mb.val 0x0204 1 true r ∧ p = bitsOf (r.w 0) 2 0 ∧ s.part? p = some x ∧ groups = (s.pendReg
    p 0x000).toNat ∧ first = fld (s.pendReg p 0x004) 26 24 ∧ count = fld (s.pendReg p 0x004) 22 20 + 1 ∧ first +
    count ≤ 8 ∧ (∀ g ∈ maskBits groups, x.groups.testBit g = true ∨ (s.groupOff g = false ∧ s.groupPart g = none))
    ∧ (∀ i, i < count → s.setOwner (first + i) = none ∨ s.setOwner (first + i) = some p) ∧ (∀ g ∈ maskBits
    x.groups, groups.testBit g = true ∨ ((∀ e ∈ s.jobs, e.2.groups.testBit g = false) ∧ s.reserved g = false)) ∧
    (first ≠ x.setFirst ∨ count ≠ x.setCount → (∀ e ∈ s.jobs, e.2.part ≠ p) ∧ (∀ e ∈ s.svcs, e.2.part ≠ p) ∧ ∀ e ∈
    s.mem.regions, e.2.part ≠ some p) ∧ (∀ y : Partn, y.isolated = flag (s.pendReg p 0x004) 30 → y.slice = fld
    (s.pendReg p 0x004) 10 0 → y.ports = byteList 4 (s.pendReg p 0x008).toNat ++ byteList 4 (s.pendReg p
    0x00C).toNat → y.bridges = byteList 4 (s.pendReg p 0x010).toNat → s.isoOk p y = true) :=
  ⟨0, ask
  { lit0 with cfg := lit0.cfg, pend := [(regKey (.part 0) 0x000, (0xFFFFFFFF, 9)), (regKey (.part 0) 0x004, (0xFFFFFFFF, 0x00300000))] }
  0x0204 [0], _, _, _, _, _, _, front_of (by decide +kernel), rfl, rfl, rfl, rfl, rfl, by decide +kernel,
  by decide +kernel, by decide +kernel, by decide +kernel, by decide +kernel,
  fun y h _ _ _ => isoOk_of (h.trans (by decide +kernel)) (by decide +kernel)⟩

theorem witness_PartitionCommandsComplete_5 : ∃ (mb : MbId) (s : State) (r : Req) (q lg : Nat), s.front mb.val
    0x0206 2 false r ∧ q = bitsOf (r.w 0) 3 0 ∧ lg = bitsOf (r.w 0) 11 8 ∧ (r.scope = none ∨ r.scope = some q) ∧ (q
    = 15 ∨ (q < 8 ∧ (s.part? q).isSome = true)) ∧ 4 ≤ lg ∧ lg ≤ 12 ∧ r.w 1 % 4096 = 0 ∧ s.outBad r (r.w 1) (32 * 2
    ^ lg) = none :=
  ⟨0, ask lit0 0x0206 [15 + 12 * 2 ^ 8 + 3 * 2 ^ 16 + 2 ^ 24, 0x40000], _, _, _, front_of (by decide +kernel),
  rfl, rfl, by decide +kernel, by decide +kernel, by decide +kernel, by decide +kernel, by decide +kernel,
  by decide +kernel⟩

/-! ### Security -/

/-- A job share of one member. -/
def share1 : Share := { n := 1, self := 0, epoch := 1, nonce := [], eph := 0, bytes := [] }

theorem witness_SecurityCommandsComplete_1 : ∃ (mb : MbId) (s : State) (r : Req), s.front mb.val 0x0210 1 false
    r ∧ r.w 0 % 64 = 0 ∧ s.outBad r (r.w 0) 256 = none :=
  ⟨0, ask lit 0x0210 [0x40000], _, front_of (by decide +kernel), by decide +kernel, by decide +kernel⟩

theorem witness_SecurityCommandsComplete_2 : ∃ (mb : MbId) (s : State) (r : Req) (rep : List Byte), s.front
    mb.val 0x0211 5 false r ∧ rep = s.report r.scope ((upTo 4).flatMap (fun i => natLE 8 (r.w i))) ∧ s.outBad r
    (r.w 4) rep.length = none :=
  ⟨0, ask lit 0x0211 [1, 2, 3, 4, 0x40000], _, _, front_of (by decide +kernel), rfl, by decide +kernel⟩

theorem witness_SecurityCommandsComplete_3 : ∃ (mb : MbId) (s : State) (r : Req) (a : List Byte), s.frontArg
    mb.val 0x0218 0 true r a ∧ 254 ≤ a.length ∧ leAt a 0 4 ≠ 0 ∧ leAt a 0 4 ≠ 0xFFFFFFFF ∧ s.enrolAuth a true =
    stOk ∧ s.sec.keys.length < 16 ∧ (∀ k ∈ s.sec.keys, k.id ≠ leAt a 0 4) :=
  ⟨0, askArg lit 0x0218 [] (natLE 4 7 ++ zeros 124 ++ natLE 8 9 ++ zeros 120), _, _, frontArg_of
  (by decide +kernel), by decide +kernel, by decide +kernel, by decide +kernel, by decide +kernel,
  by decide +kernel, by decide +kernel⟩

theorem witness_SecurityCommandsComplete_4 : ∃ (mb : MbId) (s : State) (r : Req) (a : List Byte), s.frontArg
    mb.val 0x0219 0 true r a ∧ 254 ≤ a.length ∧ (∃ k ∈ s.sec.keys, k.id = leAt a 0 4) ∧ (∃ k ∈ s.sec.keys, k.id ≠
    leAt a 0 4 ∧ k.usage.testBit 4 = true) :=
  ⟨0, askArg { lit with sec := { keys := [⟨7, 16, 255, []⟩, ⟨8, 16, 255, []⟩] } } 0x0219 [] (natLE 4 7 ++ zeros
  124 ++ natLE 8 9 ++ zeros 120), _, _, frontArg_of (by decide +kernel), by decide +kernel, by decide +kernel,
  by decide +kernel⟩

theorem witness_SecurityCommandsComplete_5 : ∃ (mb : MbId) (s : State) (r : Req) (j : Nat) (x : Job), s.front
    mb.val 0x0220 7 false r ∧ j = bitsOf (r.w 0) 15 0 ∧ s.job? j = some x ∧ (r.scope = none ∨ r.scope = some
    x.part) ∧ bitsOf (r.w 0) 21 16 ≤ bitsOf (r.w 0) 29 24 ∧ bitsOf (r.w 0) 23 22 = 0 ∧ bitsOf (r.w 0) 63 30 = 0 ∧
    jobRuns x = false ∧ x.epoch < bitsOf (r.w 1) 31 0 ∧ s.outBad r (r.w 6) 512 = none :=
  ⟨0, ask (withJob job0) 0x0220 [2 ^ 24, 1, 2, 3, 4, 5, 0x40000], _, _, job0, front_of (by decide +kernel),
  rfl, by decide +kernel, .inl rfl, by decide +kernel, by decide +kernel, by decide +kernel, by decide +kernel,
  by decide +kernel, by decide +kernel⟩

theorem witness_SecurityCommandsComplete_6 : ∃ (mb : MbId) (s : State) (r : Req) (a : List Byte) (j : Nat) (x :
    Job) (h : Share), s.frontArg mb.val 0x0221 1 false r a ∧ j = bitsOf (r.w 0) 15 0 ∧ s.job? j = some x ∧ (r.scope
    = none ∨ r.scope = some x.part) ∧ jobRuns x = false ∧ x.share = some h ∧ a.length = h.n * 512 :=
  ⟨0, askArg (withJob { job0 with share := some share1 }) 0x0221 [0] (zeros 512), _, _, _,
  { job0 with share := some share1 }, share1, frontArg_of (by decide +kernel), rfl, by decide +kernel,
  by decide +kernel, by decide +kernel, by decide +kernel, by decide +kernel⟩

/-! ### Registers -/

theorem witness_MailboxPageWrites_1 : ∃ (mb : MbId) (svc : SvcId) (v : Word) (s : State), s.pageUp mb.val =
    false :=
  ⟨55, 63, 0x40, State.reset, by decide +kernel⟩

theorem witness_MailboxPageWrites_2 : ∃ (mb : MbId) (v : Word) (s t : State), s.pageUp mb.val = true ∧ t = (if
    v.toNat < 128 then s else s.countErr (.mb mb.val)).doorbell mb.val (v.toNat % 128) :=
  ⟨0, 64, lit, _, by decide +kernel, rfl⟩

theorem witness_MailboxPageWrites_3 : ∃ (mb : MbId) (v : Word) (s t : State), s.pageUp mb.val = true ∧ t = (if
    v.toNat < 128 then s else s.countErr (.mb mb.val)) :=
  ⟨55, 127, lit, _, by decide +kernel, rfl⟩

theorem witness_MailboxPageWrites_4 : ∃ (mb : MbId) (svc : SvcId) (v : Word) (s : State), s.pageUp mb.val =
    true :=
  ⟨1, 63, 7, lit, by decide +kernel⟩

theorem witness_MailboxPageWrites_5 : ∃ (mb : MbId) (v : Word) (s : State), s.pageUp mb.val = true ∧
    s.link.detached = true ∧ 1 ≤ mb.val ∧ mb.val < 56 :=
  ⟨1, 0x80000000, { lit with link := { lit.link with detached := true } }, by decide +kernel,
  by decide +kernel, by decide +kernel, by decide +kernel⟩

theorem witness_MailboxPageWrites_6 : ∃ (mb : MbId) (v : Word) (s : State), s.pageUp mb.val = true ∧
    s.link.detached = false ∧ flag (s.reg (.mb mb.val) 0x020) 31 = true ∧ (fld v 30 29 ≠ fld (s.shown (.mb mb.val)
    0x020) 30 29 ∨ fld v 23 16 ≠ fld (s.shown (.mb mb.val) 0x020) 23 16) :=
  ⟨0, 0xC0000000, lit, by decide +kernel, by decide +kernel, by decide +kernel, by decide +kernel⟩

theorem witness_MailboxPageWrites_7 : ∃ (mb : MbId) (v : Word) (s : State), s.pageUp mb.val = true ∧
    (s.link.detached = false ∨ mb.val = 0 ∨ 56 ≤ mb.val) ∧ flag (s.reg (.mb mb.val) 0x020) 31 = false :=
  ⟨55, 0x80030001, lit, by decide +kernel, by decide +kernel, by decide +kernel⟩

theorem witness_MailboxPageWrites_8 : ∃ (mb : MbId) (v : Word) (s : State), s.pageUp mb.val = true ∧ flag
    (s.reg (.mb mb.val) 0x020) 31 = true ∧ (∀ e ∈ s.pend, keyBlk e.1 ≠ blkNum (.mb mb.val)) ∧ fld v 30 29 = fld
    (s.shown (.mb mb.val) 0x020) 30 29 ∧ fld v 23 16 = fld (s.shown (.mb mb.val) 0x020) 23 16 :=
  ⟨0, 1, lit, by decide +kernel, by decide +kernel, by decide +kernel, by decide +kernel, by decide +kernel⟩

theorem witness_DoorbellIndexRule_1 : ∃ (s : State) (n v : Nat), (s.mb n).st ≠ .disabled ∧ (s.mb n).st ≠ .error
    ∧ (s.mb n).closing = false :=
  ⟨lit, 0, 64, by decide +kernel, by decide +kernel, by decide +kernel⟩

theorem witness_DoorbellIndexRule_2 : ∃ (s : State) (n v : Nat), (s.mb n).st = .error :=
  ⟨{ lit with mailboxes := [(0, { st := .error })] }, 0, 1, by decide +kernel⟩

theorem witness_DoorbellIndexRule_3 : ∃ (s : State) (n tag status : Nat) (noint : Bool) (res : List Byte),
    (s.mb n).st = .error ∧ (s.mb n).closing = false ∧ s.link.up = true :=
  ⟨{ lit with mailboxes := [(0, { st := .error })] }, 0, 5, 0, false, [], by decide +kernel, by decide +kernel,
  by decide +kernel⟩

theorem witness_DoorbellIndexRule_4 : ∃ (s : State) (n : Nat), (s.mb n).st = .error ∧ (s.mb n).exec = none ∧
    (s.mb n).held = none :=
  ⟨{ lit with mailboxes := [(0, { st := .error, err := 1 })] }, 0, by decide +kernel, by decide +kernel,
  by decide +kernel⟩

theorem witness_DoorbellIndexRule_5 : ∃ (s : State) (mb op : Nat) (rule : LenRule) (f : State → Req → CmdOut),
    s.mbReady mb = true ∧ s.readSlot mb = none :=
  ⟨{ lit with mailboxes := [(60, { st := .idle, prod := 1 })] }, 60, 0x0120, .exact 0, cmdPewterStart,
  by decide +kernel, by decide +kernel⟩

theorem witness_DoorbellIndexRule_6 : ∃ (s : State) (mb tag status : Nat) (noint : Bool) (res : List Byte),
    (s.mb mb).st ≠ .disabled ∧ s.rspFull mb = false ∧ flag (s.reg (.mb mb) 0x020) 29 = true ∧ s.ringOk mb
    (s.ringBase mb 0x018 + 64 * ((s.mb mb).rspProd % 64)) 64 = false ∧ (s.mb mb).closing = false :=
  ⟨{ lit with mailboxes := [(0, { st := .busy })], cfg := [(regKey (.mb 0) 0x020, 0xA0000000), (regKey (.mb 0) 0x01C, 0x7FFF)] },
  0, 5, 0, false, [], by decide +kernel, by decide +kernel, by decide +kernel, by decide +kernel,
  by decide +kernel⟩

theorem witness_RegisterAccess_1 : ∃ (bar off : Nat) (v : Word) (s : State), barHas bar off = false :=
  ⟨1, 0, 0, lit, by decide +kernel⟩

theorem witness_RegisterAccess_2 : ∃ (bar off : Nat) (v : Word) (s : State), barHas bar off = true ∧ s.barUp
    bar = false :=
  ⟨0, 0x100, 0, State.reset, by decide +kernel, by decide +kernel⟩

theorem witness_RegisterAccess_3 : ∃ (bar off o : Nat) (b : Blk) (s : State), barHas bar off = true ∧ s.barUp
    bar = true ∧ barReg bar off = some (b, o) :=
  ⟨0, 0x100, 0x100, .bu, lit, by decide +kernel, by decide +kernel, by decide +kernel⟩

theorem witness_RegisterAccess_4 : ∃ (bar off o : Nat) (b : Blk) (v : Word) (s : State), barHas bar off = true
    ∧ s.barUp bar = true ∧ barReg bar off = some (b, o) ∧ (∀ n, b = .mb n → n < 56) :=
  ⟨0, 0x100, 0x100, .bu, 1, lit, by decide +kernel, by decide +kernel, by decide +kernel,
  fun n h => by cases h⟩

theorem witness_RegisterAccess_5 : ∃ (off o : Nat) (n : Nat) (v : Word) (s : State), barHas 2 off = true ∧
    s.barUp 2 = true ∧ barReg 2 off = some (.mb n, o) ∧ 56 ≤ n :=
  ⟨0x38000, 0, 56, 1, lit, by decide +kernel, by decide +kernel, by decide +kernel, by decide +kernel⟩

theorem witness_RegisterAccess_6 : ∃ (bar off : Nat) (v : Word) (s : State), barHas bar off = true ∧ s.barUp
    bar = true ∧ barReg bar off = none :=
  ⟨2, 0x60000, 1, lit, by decide +kernel, by decide +kernel, by decide +kernel⟩

theorem witness_RegisterAccess_7 : ∃ (v : Word) (s : State), s.link.up = true ∧ s.compatOk = true ∧ s.pending?
    .bu 0x100 = (0, 0) :=
  ⟨0xF, { State.reset with link := { up := true } }, by decide +kernel, by decide +kernel, by decide +kernel⟩

theorem witness_RegisterAccess_8 : ∃ (v : Word) (s : State), s.link.up = true ∧ s.compatOk = false :=
  ⟨0xF, lit, by decide +kernel, by decide +kernel⟩

theorem witness_FieldClassesOnWrite_1 : ∃ (s : State) (b : Blk) (off : Nat) (mask v : Word), s.runs b = false
    :=
  ⟨lit, .mb 1, 0x020, 0xFFFFFFFF, 0, by decide +kernel⟩

theorem witness_FieldClassesOnWrite_2 : ∃ (s : State) (b : Blk) (off : Nat) (mask v : Word), s.runs b = true :=
  ⟨lit, .mb 0, 0x020, 0xFFFFFFFF, 0, by decide +kernel⟩

theorem witness_FieldClassesOnWrite_3 : ∃ (s : State) (b : Blk) (off : Nat) (mask v : Word) (b2 : Blk) (o2 :
    Nat), regKey b2 o2 ≠ regKey b off :=
  ⟨lit, .mb 0, 0x020, 0xFFFFFFFF, 0, .mb 1, 0x020, by decide +kernel⟩

theorem witness_FieldClassesOnWrite_4 : ∃ (s : State) (b : Blk) (off : Nat) (mask v : Word), off < 65536 ∧
    s.pend = [(regKey b off, (mask, v))] :=
  ⟨{ lit with pend := [(regKey (.job 3) 65535, (1, 1))] }, .job 3, 65535, 1, 1, by decide +kernel,
  by decide +kernel⟩

/-! ### Configuration -/

/-- A CFG_WRITE of INIT_LOG2 3 and GROWTH 7 for job 0. -/
def cfgAsk : State := ask (withJob job0) 0x0110 [1, 0x4000000000000000, 0x70300FFFF3F]
/-- A BUSY check-value channel over 64 bytes at address 64. -/
def cvBusy : State := { lit with
  cvs := [(7, { st := 1, compat := true })]
  cfg := (regKey (.cv 7) 0x008, 64) :: (regKey (.cv 7) 0x010, 64) :: lit.cfg }

theorem witness_ConfigurationCommands_1 : ∃ (mb : MbId) (s : State) (r q : Req) (es : List CfgEntry) (rows :
    List CfgRow) (s2 : State) (st seq : Nat), s.atFront mb.val 0x0110 .cfg false r ∧ s.withArg mb.val r q ∧
    cfgEntries q = some es ∧ (s.takeReq mb.val).cfgParse r.scope es = .ok rows ∧ (∀ x ∈ rows, x.blk ≠ .mb mb.val) ∧
    (s.takeReq mb.val).cfgDo rows = .ok (s2, st, seq) :=
  ⟨0, cfgAsk, _, _, _, _, _, _, _, atFront_of (by decide +kernel), .inl ⟨by decide +kernel, rfl⟩, some_of []
  (by decide +kernel), ok_of [] (by decide +kernel), by decide +kernel, ok_of (State.reset, 0, 0)
  (by decide +kernel)⟩

theorem witness_ConfigurationCommands_2 : ∃ (mb : MbId) (s : State) (r q : Req) (es : List CfgEntry) (rows :
    List CfgRow) (e : Nat), s.atFront mb.val 0x0110 .cfg false r ∧ s.withArg mb.val r q ∧ cfgEntries q = some es ∧
    (s.takeReq mb.val).cfgParse r.scope es = .ok rows ∧ (∀ x ∈ rows, x.blk ≠ .mb mb.val) ∧ (s.takeReq mb.val).cfgDo
    rows = .error e ∧ e < 65536 :=
  ⟨0, ask cvBusy 0x0110 [1, 0x9000000700000008, 0x80FFFFFFFF], _, _, _, _, _, atFront_of (by decide +kernel),
  .inl ⟨by decide +kernel, rfl⟩, some_of [] (by decide +kernel), ok_of [] (by decide +kernel),
  by decide +kernel, err_of 0 (by decide +kernel), by decide +kernel⟩

theorem witness_ConfigurationCommands_3 : ∃ (s : State) (b : Blk) (off : Nat) (mask v : Word), s.regIgnored b
    off mask v = false ∧ writableMask b off ≠ 0 ∧ mask &&& v &&& ~~~(anyMask b off) = 0 ∧ s.rowCheck s ⟨b, off, mask,
    v⟩ = stOk :=
  ⟨withJob job0, .job 0, 0, 0xFFFF3F, 0x703, by decide +kernel, by decide +kernel, by decide +kernel,
  by decide +kernel⟩

theorem witness_ConfigurationCommands_4 : ∃ (mb : MbId) (s : State) (r : Req) (b : Blk) (off : Nat), s.front
    mb.val 0x0111 1 false r ∧ (s.takeReq mb.val).cfgTarget r.scope (r.w 0) false = .ok (b, off) ∧ isHighWord b off
    = false :=
  ⟨0, ask (withJob job0) 0x0111 [0x4000000000000000], _, .job 0, 0, front_of (by decide +kernel), rfl,
  by decide +kernel⟩

theorem witness_ConfigurationCommands_5 : ∃ (mb : MbId) (s : State) (r : Req) (b : Blk) (off : Nat), s.front
    mb.val 0x0111 1 false r ∧ (s.takeReq mb.val).cfgTarget r.scope (r.w 0) false = .ok (b, off) ∧ isHighWord b off
    = true :=
  ⟨0, ask lit 0x0111 [0x300000000000003C], _, .mem, 0x03C, front_of (by decide +kernel), rfl,
  by decide +kernel⟩

theorem witness_ConfigurationCommands_6 : ∃ (mb : MbId) (s : State) (r : Req) (j : Nat) (x : Job) (v : Word),
    s.front mb.val 0x0501 1 false r ∧ j = bitsOf (r.w 0) 15 0 ∧ bitsOf (r.w 0) 31 16 = 0 ∧ v = BitVec.ofNat 32 (r.w
    0 / 2 ^ 32) ∧ fld v 30 23 ≠ 255 ∧ s.job? j = some x ∧ (r.scope = none ∨ r.scope = some x.part) :=
  ⟨0, ask (withJob job0) 0x0501 [0x3F80000000000000], _, _, job0, _, front_of (by decide +kernel), rfl,
  by decide +kernel, rfl, by decide +kernel, by decide +kernel, .inl (by decide +kernel)⟩

theorem witness_CheckValueCommands_1 : ∃ (ch : CvId) (v : Word) (s : State), s.barUp 2 = false :=
  ⟨15, 0, State.reset, by decide +kernel⟩

theorem witness_CheckValueCommands_2 : ∃ (ch : CvId) (v : Word) (s : State), s.barUp 2 = true ∧ 8 ≤ ch.val :=
  ⟨8, 0x80000000, lit, by decide +kernel, by decide +kernel⟩

theorem witness_CheckValueCommands_3 : ∃ (ch : CvId) (v : Word) (s : State), s.barUp 2 = true ∧ ch.val < 8 ∧
    (s.cv ch.val).st ≠ 1 ∧ fld v 27 26 ≠ 3 ∧ (s.pending? (.cv ch.val) 0).1 = 0 :=
  ⟨7, 0xB8FF0000, lit, by decide +kernel, by decide +kernel, by decide +kernel, by decide +kernel,
  by decide +kernel⟩

theorem witness_CheckValueCommands_4 : ∃ (ch : CvId) (v : Word) (s : State), s.barUp 2 = true ∧ ch.val < 8 ∧
    (s.cv ch.val).st = 1 ∧ fld v 27 26 ≠ 3 ∧ (s.pending? (.cv ch.val) 0).1 = 0 ∧ flag v 29 = flag (s.reg (.cv
    ch.val) 0) 29 ∧ fld v 27 26 = fld (s.reg (.cv ch.val) 0) 27 26 ∧ fld v 23 16 = fld (s.reg (.cv ch.val) 0) 23 16
    :=
  ⟨7, 0x40000000, cvBusy, by decide +kernel, by decide +kernel, by decide +kernel, by decide +kernel,
  by decide +kernel, by decide +kernel, by decide +kernel, by decide +kernel⟩

theorem witness_CheckValueCommands_5 : ∃ (ch : CvId) (v : Word) (s : State), s.barUp 2 = true ∧ ch.val < 8 :=
  ⟨0, 0, lit, by decide +kernel, by decide +kernel⟩

theorem witness_CheckValueCommands_6 : ∃ (s : State) (c : Nat), s.cvPair c 0x010 ≠ 0 :=
  ⟨cvBusy, 7, by decide +kernel⟩

theorem witness_CheckValueCommands_7 : ∃ (ch : CvId) (s : State), (s.cv ch.val).st ≠ 1 :=
  ⟨0, lit, by decide +kernel⟩

theorem witness_CheckValueCommands_8 : ∃ (ch : CvId) (s : State) (ctrl : Word) (alg a len run : Nat), (s.cv
    ch.val).st = 1 ∧ ctrl = s.reg (.cv ch.val) 0 ∧ alg = fld ctrl 27 26 ∧ a = s.cvPair ch.val 0x008 ∧ len =
    s.cvPair ch.val 0x010 ∧ s.scanFit (s.cv ch.val).part 16 a len = len ∧ beforeBad s.mem.badLines a len = len ∧
    run = crcRun alg (if flag ctrl 29 then (if alg = 2 then s.cvPair ch.val 0x018 else s.cvPair ch.val 0x018 % 2 ^
    32) else crcInit alg) (s.devMem.readN a len) :=
  ⟨7, cvBusy, _, _, _, _, _, by decide +kernel, rfl, rfl, rfl, rfl, by decide +kernel, by decide +kernel, rfl⟩

theorem witness_CheckValueCommands_9 : ∃ (ch : CvId) (s : State) (a len fit n : Nat), (s.cv ch.val).st = 1 ∧ a
    = s.cvPair ch.val 0x008 ∧ len = s.cvPair ch.val 0x010 ∧ fit = s.scanFit (s.cv ch.val).part 16 a len ∧ n =
    beforeBad s.mem.badLines a fit ∧ n < len :=
  ⟨7, { cvBusy with mem := { cvBusy.mem with badLines := [1] } }, _, _, _, _, by decide +kernel, rfl, rfl, rfl,
  rfl, by decide +kernel⟩

theorem witness_CheckValueCommands_10 : ∃ (mb : MbId) (s : State) (r : Req) (c p : Nat), s.front mb.val 0x0901
    1 true r ∧ c = bitsOf (r.w 0) 3 0 ∧ p = bitsOf (r.w 0) 11 8 ∧ c < 8 ∧ (p = 15 ∨ (s.part? p).isSome = true) ∧
    (s.cv c).st ≠ 1 ∧ (s.cv c).st ≠ 2 :=
  ⟨0, ask lit0 0x0901 [7 + 1 * 256], _, _, _, front_of (by decide +kernel), rfl, rfl, by decide +kernel,
  by decide +kernel, by decide +kernel, by decide +kernel⟩

theorem witness_PortSwitch_1 : ∃ (sub : SubId) (v : Word) (s : State), s.barUp 2 = false :=
  ⟨0, 0, State.reset, by decide +kernel⟩

theorem witness_PortSwitch_2 : ∃ (sub : SubId) (v : Word) (s : State), s.barUp 2 = true ∧ flag (s.reg (.sub
    sub.val) 0x800) 31 = false ∧ (s.sub sub.val).barred = false ∧ s.subExists sub.val = true ∧ (s.pending? (.sub
    sub.val) 0x800).1 = 0 ∧ 1518 ≤ fld v 13 0 ∧ fld v 13 0 ≤ 9216 :=
  ⟨0, 0x800005EE, lit, by decide +kernel, by decide +kernel, by decide +kernel, by decide +kernel,
  by decide +kernel, by decide +kernel, by decide +kernel⟩

theorem witness_PortSwitch_3 : ∃ (sub : SubId) (v : Word) (s : State), s.barUp 2 = true ∧ flag (s.reg (.sub
    sub.val) 0x800) 31 = false ∧ ((s.sub sub.val).barred = true ∨ s.subExists sub.val = false) ∧ (s.pending? (.sub
    sub.val) 0x800).1 = 0 ∧ 1518 ≤ fld v 13 0 ∧ fld v 13 0 ≤ 9216 :=
  ⟨1, 0x80002400, lit, by decide +kernel, by decide +kernel, by decide +kernel, by decide +kernel,
  by decide +kernel, by decide +kernel⟩

theorem witness_PortSwitch_4 : ∃ (sub : SubId) (v : Word) (s : State), s.barUp 2 = true ∧ flag (s.reg (.sub
    sub.val) 0x800) 31 = true ∧ fld v 23 16 = fld (s.shown (.sub sub.val) 0x800) 23 16 ∧ 1518 ≤ fld v 13 0 ∧ fld v
    13 0 ≤ 9216 :=
  ⟨0, 0x05EE, { lit with cfg := (regKey (.sub 0) 0x800, 0x800005EE) :: lit.cfg }, by decide +kernel,
  by decide +kernel, by decide +kernel, by decide +kernel, by decide +kernel⟩

/-! ### Jobs -/

/-- A graph image of one LOAD task on core 0 with one counter of INIT 9, at 0x2000 of device memory. -/
def graphImg : List Byte :=
  natLE 4 0x47544B32 ++ natLE 2 0x0200 ++ natLE 2 0 ++ natLE 4 1 ++ natLE 4 1 ++ zeros 8 ++ natLE 4 64 ++ natLE 4 1 ++
  zeros 24 ++ natLE 4 128 ++ zeros 4 ++ natLE 8 4 ++ zeros 32 ++ natLE 8 0x1000 ++ natLE 8 (64 * 2 ^ 20) ++ zeros 8 ++
  natLE 4 0 ++ natLE 4 9
/-- A fault record. -/
def fault0 : FaultInfo := { cause := 6, epoch := 0 }

theorem witness_JobLife_1 : ∃ (mb : MbId) (s : State) (r : Req) (j : Nat) (x : Job), s.front mb.val 0x0401 3
    false r ∧ (s.takeReq mb.val).loadGraph r = .ok (j, x) :=
  ⟨0, ask
  { lit0 with devMem := ({} : Mem).writeL 0x2000 (graphImg.take 60 ++ natLE 4 (crc32c graphImg) ++ graphImg.drop 64) }
  0x0401 [0x2000, 1, 0], _, _, _, front_of (by decide +kernel), ok_of (0, job0) (by decide +kernel)⟩

theorem witness_JobLife_2 : ∃ (mb : MbId) (s : State) (r : Req) (j : Nat) (x : Job), s.front mb.val 0x0402 1
    false r ∧ s.ownJob r j x ∧ x.st = .loaded ∧ (s.takeReq mb.val).startCheck x = stOk :=
  ⟨0, ask (withJob job0) 0x0402 [0], _, _, job0, front_of (by decide +kernel), ⟨rfl, by decide +kernel, .inl
  (by decide +kernel)⟩, by decide +kernel, by decide +kernel⟩

theorem witness_JobLife_3 : ∃ (mb : MbId) (s : State) (r : Req) (j : Nat) (x : Job), s.front mb.val 0x0405 1
    false r ∧ s.ownJob r j x ∧ x.st = .fenced ∧ (x.fault.map (fun f => f.epoch)).getD 0 < x.epoch ∧ (s.takeReq
    mb.val).startCheck x = stOk :=
  ⟨0, ask (withJob { job0 with st := .fenced, epoch := 1, fault := some fault0 }) 0x0405 [0], _, _,
  { job0 with st := .fenced, epoch := 1, fault := some fault0 }, front_of (by decide +kernel), ⟨rfl,
  by decide +kernel, .inl (by decide +kernel)⟩, by decide +kernel, by decide +kernel, by decide +kernel⟩

theorem witness_JobLife_4 : ∃ (mb : MbId) (s : State) (r : Req) (j : Nat) (x : Job) (s1 : State), s.front
    mb.val 0x0403 1 false r ∧ s.ownJob r j x ∧ x.st = .running ∧ s1 = (s.takeReq mb.val).stopJob j x :=
  ⟨0, ask (withJob { job0 with st := .running }) 0x0403 [0], _, _, { job0 with st := .running }, _, front_of
  (by decide +kernel), ⟨rfl, by decide +kernel, .inl (by decide +kernel)⟩, by decide +kernel, rfl⟩

theorem witness_JobLife_5 : ∃ (mb : MbId) (s : State) (r : Req) (j : Nat) (x : Job), s.front mb.val 0x0404 1
    false r ∧ s.ownJob r j x ∧ jobRuns x = false :=
  ⟨0, ask (withJob job0) 0x0404 [0], _, _, job0, front_of (by decide +kernel), ⟨rfl, by decide +kernel, .inl
  (by decide +kernel)⟩, by decide +kernel⟩

theorem witness_JobLife_6 : ∃ (mb : MbId) (s : State) (r : Req) (j : Nat) (x : Job), s.front mb.val 0x0406 1
    false r ∧ s.ownJob r j x ∧ jobRuns x = true :=
  ⟨0, ask (withJob { job0 with st := .running }) 0x0406 [0], _, _, { job0 with st := .running }, front_of
  (by decide +kernel), ⟨rfl, by decide +kernel, .inl (by decide +kernel)⟩, by decide +kernel⟩

theorem witness_JobLife_7 : ∃ (mb : MbId) (s : State) (r : Req) (j : Nat) (x : Job) (f : FaultInfo), s.front
    mb.val 0x0407 1 false r ∧ s.ownJob r j x ∧ x.st = .fenced ∧ x.fault = some f :=
  ⟨0, ask (withJob { job0 with st := .fenced, fault := some fault0 }) 0x0407 [0], _, _,
  { job0 with st := .fenced, fault := some fault0 }, fault0, front_of (by decide +kernel), ⟨rfl,
  by decide +kernel, .inl (by decide +kernel)⟩, by decide +kernel, by decide +kernel⟩

theorem witness_JobCommandRefusals_1 : ∃ (mb : MbId) (s : State) (r : Req), s.job? (bitsOf (r.w 0) 15 0) = none
    :=
  ⟨0, ask lit 0x0402 [15], reqOf (ask lit 0x0402 [15]) 0, by decide +kernel⟩

theorem witness_JobCommandRefusals_2 : ∃ (mb : MbId) (s : State) (r : Req) (x : Job) (p : Nat), s.job? (bitsOf
    (r.w 0) 15 0) = some x ∧ r.scope = some p ∧ p ≠ x.part :=
  ⟨1,
  { withJob job0 with mailboxes := [(1, { st := .idle, prod := 1, part := some 1 })], hostMem := ({} : Mem).writeL 0 (reqBytes 0x0402 0 [0]) },
  reqOf
  { withJob job0 with mailboxes := [(1, { st := .idle, prod := 1, part := some 1 })], hostMem := ({} : Mem).writeL 0 (reqBytes 0x0402 0 [0]) }
  1, job0, 1, by decide +kernel, by decide +kernel, by decide +kernel⟩

theorem witness_JobCommandRefusals_3 : ∃ (mb : MbId) (s : State) (r : Req) (j : Nat) (x : Job), s.ownJob r j x
    :=
  ⟨0, ask (withJob { job0 with st := .stopped }) 0x0402 [0], reqOf (ask (withJob { job0 with st := .stopped })
  0x0402 [0]) 0, 0, { job0 with st := .stopped }, ⟨rfl, by decide +kernel, .inl (by decide +kernel)⟩⟩

theorem witness_FenceEffect_1 : ∃ (s : State) (j cause org oc ts core : Nat) (x y : Job), s.job? j = some x ∧
    jobRuns x = true ∧ cause ≠ 0x0C ∧ s.jobs.Pairwise (fun a b => a.1 < b.1) ∧ (s.fence j cause org oc ts
    core).job? j = some y :=
  ⟨withJob { job0 with st := .running }, 0, 0x0B, 0, 0, 0, 0, { job0 with st := .running }, (((withJob
  { job0 with st := .running }).fence 0 0x0B 0 0 0 0).job? 0).getD job0, by decide +kernel, by decide +kernel,
  by decide +kernel, by decide +kernel, some_of job0 (by decide +kernel)⟩

theorem witness_FenceEffect_2 : ∃ (s : State) (j cause org oc ts core : Nat) (x : Job) (f : FaultInfo), s.job?
    j = some x ∧ x.st = .fenced ∧ x.fault = some f :=
  ⟨withJob { job0 with st := .fenced, fault := some fault0 }, 0, 0x0B, 0, 0, 0, 0,
  { job0 with st := .fenced, fault := some fault0 }, fault0, by decide +kernel, by decide +kernel,
  by decide +kernel⟩

theorem witness_FenceEffect_3 : ∃ (s : State) (j cause org oc ts core : Nat) (x : Job), s.job? j = some x ∧
    x.st ≠ .fenced ∧ jobRuns x = false :=
  ⟨withJob job0, 0, 0x0B, 0, 0, 0, 0, job0, by decide +kernel, by decide +kernel, by decide +kernel⟩

theorem witness_SyncCommands_1 : ∃ (mb : MbId) (s : State) (r : Req) (c : Nat), s.front mb.val 0x0408 1 false r
    ∧ c = bitsOf (r.w 0) 13 0 ∧ (r.scope = none ∨ s.ctrPart c = r.scope) :=
  ⟨0, ask lit0 0x0408 [16383], _, _, front_of (by decide +kernel), rfl, .inl (by decide +kernel)⟩

theorem witness_SyncCommands_2 : ∃ (mb : MbId) (s : State) (r : Req) (c : Nat), s.front mb.val 0x0409 2 false r
    ∧ c = bitsOf (r.w 0) 13 0 ∧ (r.scope = none ∨ s.ctrPart c = r.scope) :=
  ⟨0, ask (withJob job0) 0x0409 [3, 0xFFFFFFFFFFFFFFFF], _, _, front_of (by decide +kernel), rfl, .inl
  (by decide +kernel)⟩

theorem witness_SyncCommands_3 : ∃ (mb : MbId) (s : State) (r : Req) (c : Nat), s.front mb.val 0x040A 2 false r
    ∧ c = bitsOf (r.w 0) 13 0 ∧ (r.scope = none ∨ s.ctrPart c = r.scope) ∧ (∀ e ∈ s.jobs, e.2.ctrBase ≤ c → c <
    e.2.ctrBase + e.2.ctrCount → jobRuns e.2 = false) :=
  ⟨0, ask (withJob job0) 0x040A [3, 0xFFFFFFFFFFFFFFFF], _, _, front_of (by decide +kernel), rfl, .inl
  (by decide +kernel), by decide +kernel⟩

theorem witness_SyncCommands_4 : ∃ (mb : MbId) (s : State) (r : Req) (c : Nat), c = bitsOf (r.w 0) 13 0 ∧
    r.scope ≠ none ∧ s.ctrPart c ≠ r.scope :=
  ⟨1, lit0, { reqOf lit0 0 with scope := some 1 }, _, rfl, by decide +kernel, by decide +kernel⟩

theorem witness_SyncCommands_5 : ∃ (mb : MbId) (s : State) (r : Req) (g : Nat), s.front mb.val 0x040C 1 false r
    ∧ g = bitsOf (r.w 0) 4 0 ∧ (r.scope = none ∨ s.groupPart g = r.scope) :=
  ⟨0, ask lit0 0x040C [31], _, _, front_of (by decide +kernel), rfl, .inl (by decide +kernel)⟩

/-! ### Training -/

/-- A layer of one page with two buffers, owned here. -/
def layer5 : Layer := { id := 5, single := false, owner := true, ctr := 1, buf0 := 0x10000, buf1 := 0x12000, size := 4096 }
/-- Its layer-table entry (R156). -/
def entry5 : List Byte := natLE 2 5 ++ natLE 1 2 ++ zeros 1 ++ natLE 2 1 ++ zeros 2 ++ natLE 8 0x10000 ++ natLE 8 0x12000 ++ natLE 8 4096
/-- A scale table of one tensor of one plane (R171). -/
def scaleArg : List Byte := natLE 8 0x9000 ++ natLE 4 1 ++ zeros 52 ++ natLE 2 1 ++ natLE 1 6 ++ zeros 1 ++ natLE 4 1 ++
  natLE 8 0x9100 ++ natLE 8 0x9200 ++ natLE 8 0x9300
/-- A map of one member, one stage, one slot and one owned layer (R234). -/
def mapArg : List Byte := natLE 2 1 ++ natLE 1 0 ++ natLE 1 1 ++ natLE 2 1 ++ natLE 2 1 ++ natLE 2 1 ++ natLE 1 0 ++ zeros 53 ++ zeros 128 ++
  natLE 2 5 ++ natLE 1 0 ++ zeros 5 ++ natLE 8 100
/-- A job that runs step 0 with every task complete. -/
def jobDone : Job := { job0 with st := .running, done := 1, range := { ovfNow := true, e := 3 } }
/-- A snapshot into region 0 that is ready. -/
def snap0 : Snap := { region := 0, shipHost := false, shipRemote := false, master := false, step := 0, host := 0, qpn := 0, rkey := 0, cpl := 0x9000, armed := true }
/-- The module with job 0 and a retained region 0 of partition 0. -/
def withRegion (x : Job) : State := { withJob x with mem := { lit0.mem with regions := [(0, { base := 0x200000, len := 0x200000, part := some 0, writers := 1 })] } }
/-- The region of `withRegion`. -/
def region0 : Region := { base := 0x200000, len := 0x200000, part := some 0, writers := 1 }

theorem witness_JobTables_1 : ∃ (mb : MbId) (s : State) (r : Req) (a : List Byte) (j n : Nat) (x : Job) (bs :
    List (List Byte)), s.frontArg mb.val 0x0410 1 false r a ∧ s.ownJob r j x ∧ x.st = .loaded ∧ a.length = 32 * n ∧
    1 ≤ n ∧ n ≤ 4096 ∧ bs = (upTo n).map (fun i => (a.drop (32 * i)).take 32) ∧ (∀ b ∈ bs, layerEntryOk x.ctrCount
    b = true) ∧ allDistinct (bs.map (fun b => leAt b 0 2)) = true ∧ layersApart (bs.map layerOf) = true ∧ (∀ b ∈
    bs, ∀ w ∈ (layerOf b).bufs, (s.takeReq mb.val).spanSt x.part w (layerOf b).size = stOk) :=
  ⟨0, askArg (withJob job0) 0x0410 [0] entry5, _, _, _, 1, job0, _, frontArg_of (by decide +kernel), ⟨rfl,
  by decide +kernel, .inl (by decide +kernel)⟩, by decide +kernel, by decide +kernel, by decide +kernel,
  by decide +kernel, rfl, by decide +kernel, by decide +kernel, by decide +kernel, by decide +kernel⟩

theorem witness_JobTables_2 : ∃ (mb : MbId) (s : State) (r : Req) (a : List Byte) (j w : Nat) (x : Job) (ts :
    List Tensor), s.frontArg mb.val 0x0411 1 false r a ∧ s.ownJob r j x ∧ x.st = .loaded ∧ (s.takeReq
    mb.val).scaleTable x.part a = .ok (w, ts) :=
  ⟨0, askArg (withJob job0) 0x0411 [0] scaleArg, _, _, _, _, job0, _, frontArg_of (by decide +kernel), ⟨rfl,
  by decide +kernel, .inl (by decide +kernel)⟩, by decide +kernel, ok_of (0, []) (by decide +kernel)⟩

theorem witness_JobTables_3 : ∃ (mb : MbId) (s : State) (r : Req) (a : List Byte) (j n : Nat) (x : Job) (es :
    List (Nat × Nat)), s.frontArg mb.val 0x0412 1 false r a ∧ s.ownJob r j x ∧ x.st = .loaded ∧ a.length = 16 * n ∧
    es = (upTo n).map (fun i => (leAt a (16 * i) 2, leAt a (16 * i + 4) 4)) ∧ (∀ e ∈ es, e.1 ≠ 0) ∧ allDistinct
    (es.map (·.1)) = true ∧ (∀ i, i < n → leAt a (16 * i + 2) 2 = 0 ∧ leAt a (16 * i + 8) 8 = 0) :=
  ⟨0, askArg (withJob job0) 0x0412 [0] (natLE 2 1 ++ zeros 2 ++ natLE 4 77 ++ zeros 8), _, _, _, 1, job0, _,
  frontArg_of (by decide +kernel), ⟨rfl, by decide +kernel, .inl (by decide +kernel)⟩, by decide +kernel,
  by decide +kernel, rfl, by decide +kernel, by decide +kernel, by decide +kernel⟩

theorem witness_JobTables_4 : ∃ (mb : MbId) (s : State) (r : Req) (j : Nat) (x : Job) (l : Layer), s.front
    mb.val 0x0413 1 false r ∧ s.ownJob r j x ∧ x.layer? (bitsOf (r.w 0) 31 16) = some l :=
  ⟨0, ask (withJob { job0 with layers := [layer5] }) 0x0413 [5 * 65536], _, _,
  { job0 with layers := [layer5] }, layer5, front_of (by decide +kernel), ⟨rfl, by decide +kernel, .inl
  (by decide +kernel)⟩, by decide +kernel⟩

theorem witness_JobTables_5 : ∃ (mb : MbId) (s : State) (r : Req) (a : List Byte) (j : Nat) (x : Job),
    s.frontArg mb.val 0x0420 1 false r a ∧ s.ownJob r j x ∧ x.st = .loaded ∧ mapOk x a (mapOf a) = true :=
  ⟨0, askArg (withJob job0) 0x0420 [0] mapArg, _, _, _, job0, frontArg_of (by decide +kernel), ⟨rfl,
  by decide +kernel, .inl (by decide +kernel)⟩, by decide +kernel, by decide +kernel⟩

theorem witness_JobTables_6 : ∃ (mb : MbId) (s : State) (r : Req) (a : List Byte) (j n : Nat) (x : Job),
    s.frontArg mb.val 0x0421 1 false r a ∧ s.ownJob r j x ∧ x.st = .loaded ∧ a.length = 16 * n ∧ n ≤ 4096 ∧
    allDistinct ((upTo n).map (fun i => leAt a (16 * i) 2)) = true ∧ (∀ i, i < n → leAt a (16 * i + 4) 12 = 0 ∧
    leAt a (16 * i + 2) 1 ≤ 2 ∧ (leAt a (16 * i + 2) 1 ≠ 0 → ∀ m, x.map = some m → x.sameNode m.self (leAt a (16 *
    i + 3) 1) = true) ∧ ∃ l, x.layer? (leAt a (16 * i) 2) = some l ∧ (leAt a (16 * i + 2) 1 = 2 → l.single = true))
    :=
  ⟨0, askArg (withJob { job0 with layers := [layer5] }) 0x0421 [0] (natLE 2 5 ++ natLE 1 1 ++ natLE 1 63 ++
  zeros 12), _, _, _, 1, { job0 with layers := [layer5] }, frontArg_of (by decide +kernel), ⟨rfl,
  by decide +kernel, .inl (by decide +kernel)⟩, by decide +kernel, by decide +kernel, by decide +kernel,
  by decide +kernel,
  fun i h => by obtain rfl : i = 0 := (by omega); exact ⟨by decide +kernel, by decide +kernel, nofun, layer5, by decide +kernel, by decide +kernel⟩⟩

theorem witness_JobTables_7 : ∃ (mb : MbId) (s : State) (r : Req) (j total : Nat) (x : Job) (m : JobMap) (own :
    List Nat), s.front mb.val 0x0422 1 false r ∧ s.ownJob r j x ∧ x.map = some m ∧ own = (upTo m.n).map m.owned ∧
    total = own.foldl (· + ·) 0 ∧ total ≠ 0 :=
  ⟨0, ask (withJob { job0 with map := some (mapOf mapArg) }) 0x0422 [0], _, _, _,
  { job0 with map := some (mapOf mapArg) }, mapOf mapArg, _, front_of (by decide +kernel), ⟨rfl,
  by decide +kernel, .inl (by decide +kernel)⟩, by decide +kernel, rfl, rfl, by decide +kernel⟩

theorem witness_JobTables_8 : ∃ (mb : MbId) (s : State) (r : Req) (j : Nat) (x : Job) (m : JobMap), s.front
    mb.val 0x0422 1 false r ∧ s.ownJob r j x ∧ x.map = some m ∧ ((upTo m.n).map m.owned).foldl (· + ·) 0 = 0 :=
  ⟨0, ask (withJob { job0 with map := some { mapOf mapArg with own := [] } }) 0x0422 [0], _, _,
  { job0 with map := some { mapOf mapArg with own := [] } }, { mapOf mapArg with own := [] }, front_of
  (by decide +kernel), ⟨rfl, by decide +kernel, .inl (by decide +kernel)⟩, by decide +kernel,
  by decide +kernel⟩

theorem witness_JobTables_9 : ∃ (mb : MbId) (s : State) (r : Req) (j : Nat) (x : Job) (g : Gather), s.front
    mb.val 0x0423 1 false r ∧ s.ownJob r j x ∧ tabFind x.gathers (bitsOf (r.w 0) 31 16) = some g :=
  ⟨0, ask (withJob { job0 with gathers := [(5, { mode := 2, source := 3, version := 4 })] }) 0x0423 [5 *
  65536], _, _, { job0 with gathers := [(5, { mode := 2, source := 3, version := 4 })] },
  { mode := 2, source := 3, version := 4 }, front_of (by decide +kernel), ⟨rfl, by decide +kernel, .inl
  (by decide +kernel)⟩, by decide +kernel⟩

theorem witness_LayerCommit_1 : ∃ (s : State) (job layer : Nat) (x : Job) (l : Layer) (v : Nat), s.job? job =
    some x ∧ jobRuns x = true ∧ x.layer? layer = some l ∧ l.placed = some v ∧ l.ref = 0 :=
  ⟨withJob { job0 with st := .running, layers := [{ layer5 with placed := some 2 }] }, 0, 5,
  { job0 with st := .running, layers := [{ layer5 with placed := some 2 }] }, { layer5 with placed := some 2 },
  2, by decide +kernel, by decide +kernel, by decide +kernel, by decide +kernel, by decide +kernel⟩

theorem witness_LayerCommit_2 : ∃ (s : State) (job layer : Nat), (∀ x, s.job? job = some x → jobRuns x = true →
    ∀ l, x.layer? layer = some l → l.placed ≠ none → l.ref ≠ 0) :=
  ⟨withJob { job0 with st := .running, layers := [{ layer5 with placed := some 2, ref := 1 }] }, 0, 5,
  some_only { job0 with st := .running, layers := [{ layer5 with placed := some 2, ref := 1 }] }
  (by decide +kernel) (fun _ => some_only { layer5 with placed := some 2, ref := 1 } (by decide +kernel)
  (by decide +kernel))⟩

theorem witness_RangeControl_1 : ∃ (r : Range) (growth : Nat), r.phase = 0 :=
  ⟨{ phase := 0 }, 65535, by decide +kernel⟩

theorem witness_RangeControl_2 : ∃ (s b : State) (job growth : Nat) (x : Job), s.job? job = some x ∧ x.st =
    .running ∧ x.done = x.taskCount ∧ b = s.boundary (.job job) ∧ flag (b.reg (.job job) 0x028) 0 = false ∧
    x.scaleWord = none ∧ x.tensors = [] ∧ x.range.phase = 0 ∧ phaseOf (b.reg (.job job) 0x000) (b.reg (.job job)
    0x004) ((x.step + 1) % 2 ^ 64) = 0 ∧ growth = fld (s.reg (.job job) 0x000) 23 8 :=
  ⟨{ withJob jobDone with cfg := [(regKey (.job 0) 4, 0)] }, _, 0, _, jobDone, by decide +kernel,
  by decide +kernel, by decide +kernel, rfl, by decide +kernel, by decide +kernel, by decide +kernel,
  by decide +kernel, by decide +kernel, rfl⟩

theorem witness_StepBoundary_1 : ∃ (s : State) (job : Nat), (∀ x, s.job? job = some x → x.st ≠ .running ∨
    x.done ≠ x.taskCount) :=
  ⟨withJob { jobDone with done := 0 }, 0, some_only { jobDone with done := 0 } (by decide +kernel)
  (by decide +kernel)⟩

theorem witness_StepBoundary_2 : ∃ (s : State) (job ph : Nat) (x : Job), s.job? job = some x ∧ x.st = .running
    ∧ x.done = x.taskCount ∧ (∀ e ∈ s.pend, keyBlk e.1 ≠ blkNum (.job job)) ∧ flag (s.reg (.job job) 0x028) 0 =
    false ∧ x.scaleWord = none ∧ x.tensors = [] ∧ ph = phaseOf (s.reg (.job job) 0x000) (s.reg (.job job) 0x004)
    ((x.step + 1) % 2 ^ 64) :=
  ⟨{ withJob jobDone with cfg := [(regKey (.job 0) 4, 0)] }, 0, _, jobDone, by decide +kernel,
  by decide +kernel, by decide +kernel, by decide +kernel, by decide +kernel, by decide +kernel,
  by decide +kernel, rfl⟩

theorem witness_Snapshots_1 : ∃ (mb : MbId) (s q : State) (r : Req) (j i : Nat) (x : Job) (g : Region) (lens :
    List Nat) (n : Snap), n =
    { region := i, shipHost := (r.w 0).testBit 32, shipRemote := (r.w 0).testBit 33, master := (r.w 0).testBit 34, step := r.w 1, host := r.w 2, qpn := bitsOf (r.w 3) 15 0, rkey := bitsOf (r.w 3) 63 32, cpl := r.w 4 }
    ∧ s.front mb.val 0x0A01 5 false r ∧ s.ownJob r j x ∧ q = s.takeReq mb.val ∧ i = bitsOf (r.w 0) 21 16 ∧ bitsOf
    (r.w 0) 31 22 = 0 ∧ bitsOf (r.w 0) 63 35 = 0 ∧ ((r.w 0).testBit 32 = true → r.w 2 % 4096 = 0) ∧ bitsOf (r.w 3)
    31 16 = 0 ∧ wordOk (r.w 4) = true ∧ (r.w 4).testBit 63 = false ∧ r.w 4 % 16 = 0 ∧ s.region? i = some g ∧ g.part
    = some x.part ∧ ((r.w 0).testBit 33 = true → ∃ p, s.qp? (bitsOf (r.w 3) 15 0) = some p ∧ p.job = j) ∧ q.spanSt
    x.part (r.w 4) 16 = stOk ∧ jobRuns x = true ∧ x.step ≤ r.w 1 ∧ s.svcRegion i = false ∧ lens = x.owned.map (fun
    l => partsLen (if (r.w 0).testBit 34 then s.masterParts x l else [(0, l.size)])) ∧ snapLen lens ≤ g.len :=
  ⟨0, ask (withRegion { job0 with st := .running }) 0x0A01 [0, 0, 0, 0, 0x9000], _, _, _, _,
  { job0 with st := .running }, region0, _, _, rfl, front_of (by decide +kernel), ⟨rfl, by decide +kernel, .inl
  (by decide +kernel)⟩, rfl, rfl, by decide +kernel, by decide +kernel, by decide +kernel, by decide +kernel,
  by decide +kernel, by decide +kernel, by decide +kernel, by decide +kernel, by decide +kernel,
  fun h => by revert h; decide +kernel, by decide +kernel, by decide +kernel, by decide +kernel,
  by decide +kernel, rfl, by decide +kernel⟩

theorem witness_Snapshots_2 : ∃ (s : State) (job i : Nat) (x : Job) (n : Snap), s.job? job = some x ∧ jobRuns x
    = true ∧ x.snaps.zipIdx.find? (fun e => snapReady x e.1) = some (n, i) :=
  ⟨withRegion { job0 with st := .running, snaps := [snap0] }, 0, 0,
  { job0 with st := .running, snaps := [snap0] }, snap0, by decide +kernel, by decide +kernel,
  by decide +kernel⟩

theorem witness_Snapshots_3 : ∃ (s : State) (job : Nat), (∀ x, s.job? job = some x → jobRuns x = true → ∀ n ∈
    x.snaps, snapReady x n = false) :=
  ⟨withJob { job0 with st := .running }, 0, some_only { job0 with st := .running } (by decide +kernel)
  (by decide +kernel)⟩

theorem witness_Snapshots_4 : ∃ (s : State) (job i : Nat) (x : Job) (n : Snap), s.job? job = some x ∧ jobRuns x
    = true ∧ x.snaps.zipIdx.find? (fun e => e.1.copied && s.shipped e.1) = some (n, i) :=
  ⟨withRegion { job0 with st := .running, snaps := [{ snap0 with copied := true }] }, 0, 0,
  { job0 with st := .running, snaps := [{ snap0 with copied := true }] }, { snap0 with copied := true },
  by decide +kernel, by decide +kernel, by decide +kernel⟩

theorem witness_Snapshots_5 : ∃ (s : State) (job : Nat) (x : Job) (n : Snap) (rest : List Snap), s.job? job =
    some x ∧ x.st = .fenced ∧ x.snaps = n :: rest :=
  ⟨withRegion { job0 with st := .fenced, snaps := [snap0] }, 0, { job0 with st := .fenced, snaps := [snap0] },
  snap0, [], by decide +kernel, by decide +kernel, by decide +kernel⟩

theorem witness_Snapshots_6 : ∃ (s : State) (job i : Nat) (x : Job) (n : Snap), s.job? job = some x ∧ jobRuns x
    = true ∧ x.snaps.zipIdx.find? (fun e => e.1.copied && !s.shipped e.1 && decide (e.1.copyTick + 1000000000 ≤
    s.tick)) = some (n, i) :=
  ⟨{ withRegion { job0 with st := .running, snaps := [{ snap0 with copied := true, shipRemote := true }] } with tick := 1000000000 },
  0, 0, { job0 with st := .running, snaps := [{ snap0 with copied := true, shipRemote := true }] },
  { snap0 with copied := true, shipRemote := true }, by decide +kernel, by decide +kernel, by decide +kernel⟩

theorem witness_Snapshots_7 : ∃ (s : State) (job i st : Nat) (x : Job) (n : Snap) (g : Region), n.copied = true
    ∧ s.region? n.region = some g :=
  ⟨withRegion { job0 with st := .running, snaps := [{ snap0 with copied := true }] }, 0, 0, 0,
  { job0 with st := .running, snaps := [{ snap0 with copied := true }] }, { snap0 with copied := true },
  region0, by decide +kernel, by decide +kernel⟩

/-! ### Memory -/

/-- An orphan region over set 0. -/
def orphan0 : Region := { base := 0x200000, len := 0x200000, part := none, orphan := true, sets := 1 }
/-- A region of partition 0. -/
def region63 : Region := { base := 0x200000, len := 0x200000, part := some 0 }
/-- The module with region 63. -/
def withReg (x : Region) : State := { lit0 with mem := { lit0.mem with regions := [(63, x)] } }
/-- The module with HOST_SETS open. -/
def open8 : State := { lit with cfg := (regKey .mem 0x068, 0xFF) :: lit.cfg }
/-- A module with a failing line in granule 7. -/
def heldGran : State := { lit with mem := { lit.mem with held := [(7, 7 * 65536)], badLines := [7 * 1024 + 3] } }

theorem witness_MemoryWrites_2 : ∃ (s : State) (a : Nat) (bs : List Byte), s.link.up = true :=
  ⟨lit, 0x40, [1, 2], by decide +kernel⟩

theorem witness_MemoryWrites_3 : ∃ (s : State) (a : Nat) (bs : List Byte), s.link.up = false ∧ bs ≠ [] :=
  ⟨State.reset, 0x40, [1, 2], by decide +kernel, by decide +kernel⟩

theorem witness_MemoryWrites_4 : ∃ (s : State) (a len c : Nat), (c < a ∨ a + len ≤ c) :=
  ⟨lit, 0x40, 0x40, 0x80, by decide +kernel⟩

theorem witness_RegionCommands_1 : ∃ (mb : MbId) (s q : State) (r : Req) (a len i p : Nat) (rg : Rng), s.front
    mb.val 0x0310 2 false r ∧ q = s.takeReq mb.val ∧ a = addrOf (r.w 0) ∧ len = r.w 1 ∧ (r.w 0).testBit 63 = false
    ∧ a % 0x200000 = 0 ∧ len % 0x200000 = 0 ∧ len ≠ 0 ∧ q.span r.scope a len = .ok ∧ q.rangeOf a = some rg ∧
    rg.part = some p ∧ s.findRun p 64 1 (s.mem.regions.map (fun e => (e.1, 1))) = some i :=
  ⟨0, ask lit0 0x0310 [0x400000, 0x200000], _, _, _, _, _, _, _, front_of (by decide +kernel), rfl, rfl, rfl,
  by decide +kernel, by decide +kernel, by decide +kernel, by decide +kernel, by decide +kernel, some_of ⟨0, 0,
  none, [], 0⟩ (by decide +kernel), some_of 0 (by decide +kernel), some_of 0 (by decide +kernel)⟩

theorem witness_RegionCommands_2 : ∃ (mb : MbId) (s : State) (r : Req) (i : Nat) (x : Region), s.front mb.val
    0x0311 1 false r ∧ i = bitsOf (r.w 0) 5 0 ∧ tabFind s.mem.regions i = some x ∧ (r.scope = none ∨ x.part =
    r.scope) ∧ s.svcRegion i = false ∧ x.writers = 0 :=
  ⟨0, ask (withReg region63) 0x0311 [63], _, _, region63, front_of (by decide +kernel), rfl, by decide +kernel,
  .inl (by decide +kernel), by decide +kernel, by decide +kernel⟩

theorem witness_RegionCommands_3 : ∃ (mb : MbId) (s : State) (r : Req) (i : Nat) (x : Region) (bs : List Byte),
    s.front mb.val 0x0312 1 false r ∧ i = bitsOf (r.w 0) 5 0 ∧ tabFind s.mem.regions i = some x ∧ (r.scope = none ∨
    x.part = r.scope) ∧ x.writers = 0 ∧ (s.takeReq mb.val).devRead x.base x.len = some bs :=
  ⟨0, ask (withReg { region63 with len := 64 }) 0x0312 [63], _, _, { region63 with len := 64 }, _, front_of
  (by decide +kernel), rfl, by decide +kernel, .inl (by decide +kernel), by decide +kernel, some_of []
  (by decide +kernel)⟩

theorem witness_RegionCommands_4 : ∃ (mb : MbId) (s : State) (r : Req) (i p : Nat) (x : Region) (pt : Partn),
    s.front mb.val 0x0313 1 true r ∧ i = bitsOf (r.w 0) 5 0 ∧ p = bitsOf (r.w 0) 10 8 ∧ tabFind s.mem.regions i =
    some x ∧ r.scope = none ∧ s.part? p = some pt ∧ x.orphan = true ∧ pt.mode = x.mode ∧ pt.privSets = x.privSets ∧
    (∀ j, j < 8 → x.sets.testBit j = true → j ∈ partSets pt) :=
  ⟨0, ask (withReg orphan0) 0x0313 [63], _, _, _, orphan0, { groups := 3, setFirst := 0, setCount := 4 },
  front_of (by decide +kernel), rfl, rfl, by decide +kernel, by decide +kernel, by decide +kernel,
  by decide +kernel, by decide +kernel, by decide +kernel, by decide +kernel⟩

theorem witness_RegionCommands_5 : ∃ (mb : MbId) (s : State) (r : Req) (i : Nat) (x : Region), s.front mb.val
    0x0314 1 false r ∧ i = bitsOf (r.w 0) 5 0 ∧ tabFind s.mem.regions i = some x ∧ (r.scope = none ∨ x.part =
    r.scope) :=
  ⟨0, ask (withReg orphan0) 0x0314 [63], _, _, orphan0, front_of (by decide +kernel), rfl, by decide +kernel,
  .inl (by decide +kernel)⟩

theorem witness_RegionCommands_6 : ∃ (mb : MbId) (s : State) (r : Req) (p m n : Nat) (x : Partn), s.front
    mb.val 0x0320 1 true r ∧ p = bitsOf (r.w 0) 2 0 ∧ m = bitsOf (r.w 0) 9 8 ∧ n = bitsOf (r.w 0) 19 16 ∧ s.part? p
    = some x ∧ m < 2 ∧ n ≤ x.setCount ∧ (∀ e ∈ s.jobs, e.2.part ≠ p) ∧ (∀ e ∈ s.svcs, e.2.part ≠ p) ∧ (∀ e ∈
    s.mem.regions, e.2.part ≠ some p) :=
  ⟨0, ask lit0 0x0320 [1 + 1 * 256 + 1 * 65536], _, _, _, _, { groups := 4, setFirst := 4 }, front_of
  (by decide +kernel), rfl, rfl, rfl, by decide +kernel, by decide +kernel, by decide +kernel,
  by decide +kernel, by decide +kernel, by decide +kernel⟩

theorem witness_HostAccesses_1 : ∃ (a : HostAccess) (s : State), (s.link.up = false ∨ s.link.cxl = false ∨
    s.link.width < 4) :=
  ⟨{ isWrite := true, addr := 0, len := 0, data := [1], requester := 7 }, State.reset, by decide +kernel⟩

theorem witness_HostAccesses_2 : ∃ (a : HostAccess) (s : State), (s.link.up = false ∨ s.link.width < 4 ∨ 2 ^
    s.link.bar4Log2 < a.addr + accLen a) :=
  ⟨{ isWrite := true, addr := 0x1000000000, len := 0, data := [1], requester := 7 }, lit, by decide +kernel⟩

theorem witness_HostAccesses_3 : ∃ (a : HostAccess) (s : State), s.link.up = true ∧ 4 ≤ s.link.width ∧ a.addr +
    accLen a ≤ 2 ^ s.link.bar4Log2 ∧ s.link.requester ≠ some a.requester :=
  ⟨{ isWrite := false, addr := 0, len := 64, data := [], requester := 8 }, open8, by decide +kernel,
  by decide +kernel, by decide +kernel, by decide +kernel⟩

theorem witness_HostAccesses_4 : ∃ (a : HostAccess) (s : State) (o : Host.Outcome State Fault Refusal) (d :
    Nat) (flip : Bool), ((o = exec (.cxlMemAccess a) s ∧ s.link.up = true ∧ s.link.cxl = true ∧ 4 ≤ s.link.width ∧
    d = a.addr ∧ flip = true) ∨ (o = exec (.bar4Access a) s ∧ s.link.up = true ∧ 4 ≤ s.link.width ∧ a.addr + accLen
    a ≤ 2 ^ s.link.bar4Log2 ∧ s.link.requester = some a.requester ∧ d = s.memWin + a.addr ∧ flip = false)) ∧ accLen
    a ≠ 0 :=
  ⟨{ isWrite := true, addr := 100, len := 0, data := [1, 2], requester := 7 }, open8, exec (.bar4Access
  { isWrite := true, addr := 100, len := 0, data := [1, 2], requester := 7 }) open8, open8.memWin + 100, false,
  .inr ⟨rfl, by decide +kernel, by decide +kernel, by decide +kernel, by decide +kernel, rfl, rfl⟩,
  by decide +kernel⟩

theorem witness_BiasCommands_1 : ∃ (mb : MbId) (s : State) (r : Req) (a len : Nat), s.front mb.val 0x0302 2
    false r ∧ a = addrOf (r.w 0) ∧ len = bitsOf (r.w 1) 39 0 ∧ len % 4096 = 0 ∧ len ≠ 0 ∧ len ≤ 0x40000000 ∧
    (s.takeReq mb.val).biasSpan r a len = stOk ∧ ((r.w 1).testBit 40 = true → s.link.cxl = true) :=
  ⟨0, ask lit 0x0302 [0x3000, 0x1000 + 2 ^ 40], _, _, _, front_of (by decide +kernel), rfl, rfl,
  by decide +kernel, by decide +kernel, by decide +kernel, by decide +kernel, by decide +kernel⟩

theorem witness_BiasCommands_2 : ∃ (mb : MbId) (s : State) (r : Req) (a : Nat), s.front mb.val 0x0303 1 false r
    ∧ a = addrOf (r.w 0) ∧ (s.takeReq mb.val).biasSpan r a 4096 = stOk :=
  ⟨0, ask lit 0x0303 [0x3000], _, _, front_of (by decide +kernel), rfl, by decide +kernel⟩

theorem witness_BiasCommands_3 : ∃ (mb : MbId) (s : State) (r : Req), s.front mb.val 0x0302 2 false r ∧ bitsOf
    (r.w 1) 39 0 % 4096 = 0 ∧ bitsOf (r.w 1) 39 0 ≠ 0 ∧ bitsOf (r.w 1) 39 0 ≤ 0x40000000 ∧ (s.takeReq
    mb.val).biasSpan r (addrOf (r.w 0)) (bitsOf (r.w 1) 39 0) = stOk ∧ (r.w 1).testBit 40 = true ∧ s.link.cxl =
    false :=
  ⟨0, ask { lit with link := { lit.link with cxl := false } } 0x0302 [0x3000, 0x1000 + 2 ^ 40], _, front_of
  (by decide +kernel), by decide +kernel, by decide +kernel, by decide +kernel, by decide +kernel,
  by decide +kernel, by decide +kernel⟩

theorem witness_GranuleRetirement_1 : ∃ (g : Nat) (s : State), ((∀ h ∈ s.mem.held, h.1 ≠ g) ∨ s.fw = false) :=
  ⟨6, heldGran, .inl (by decide +kernel)⟩

theorem witness_GranuleRetirement_2 : ∃ (g dpa : Nat) (s : State), s.fw = true ∧ s.mem.held.find? (fun h => h.1
    = g) = some (g, dpa) :=
  ⟨7, 7 * 65536, heldGran, by decide +kernel, by decide +kernel⟩

/-! ### Host -/

/-- A host DMA of 64 bytes into device memory, with a record and a signal. -/
def dma0 : Dma := ⟨false, true, 3, 5, 0x30000, 0x4000, 64, 0x31000, none⟩
/-- A host DMA of 64 bytes out of device memory. -/
def dma1 : Dma := ⟨true, false, 0, 0, 0x30000, 0x4000, 64, 0x31000, none⟩
/-- The module with one DMA under way. -/
def withDma (d : Dma) : State := { lit with link := { lit.link with dma := [(9, d)], nextDma := 10 } }
/-- A module whose host was lost and is not attached again. -/
def detached (n : Nat) : State :=
  { lit with link := { lit.link with detached := true, cred := some (zeros 32), fails := List.replicate n 1 } }
/-- A weight image of one layer of 64 bytes at offset 320 (R279). -/
def wsImg : List Byte :=
  natLE 4 0x57534732 ++ natLE 2 0x0100 ++ natLE 2 1 ++ natLE 8 77 ++ natLE 8 384 ++ natLE 4 7 ++ zeros 228 ++
  natLE 2 5 ++ zeros 6 ++ natLE 8 320 ++ natLE 8 64 ++ natLE 4 1 ++ zeros 4 ++ zeros 32 ++ List.replicate 64 9
/-- A READY base in slot 31. -/
def slot31 : WsSlot := { st := 2, baseId := 77, extents := 1, offset := 0, len := 384 }
/-- The module with that base. -/
def withSlot (w : WsSlot) : State :=
  { lit0 with store := { slots := [(31, w)], bytes := ({} : Mem).writeL 0 wsImg, nextLoad := 4, loads := [(2, ⟨none, 31, 5, 1, 0x8000, 0x31000⟩)] } }
/-- An installation under way. -/
def withInstall : State :=
  { lit0 with store := { slots := [(31, { slot31 with st := 1 })], install := some ⟨31, 0x40000, 0x31000, 384⟩ } }
/-- A program on hart 0. -/
def pewter0 : Pewter := { part := 0, base := 0x1000, len := 4096 }

theorem witness_HostDma_1 : ∃ (mb : MbId) (s q : State) (r : Req) (d : Dma), s.front mb.val 0x0330 5 false r ∧
    q = s.takeReq mb.val ∧ d = ⟨(r.w 0).testBit 0, (r.w 0).testBit 1, bitsOf (r.w 0) 29 16, bitsOf (r.w 0) 47 32,
    r.w 1, addrOf (r.w 2), r.w 3, r.w 4, r.scope⟩ ∧ bitsOf (r.w 0) 15 2 = 0 ∧ bitsOf (r.w 0) 31 30 = 0 ∧ bitsOf
    (r.w 0) 63 48 = 0 ∧ d.host % 64 = 0 ∧ (r.w 2).testBit 63 = false ∧ d.len % 64 = 0 ∧ 64 ≤ d.len ∧ d.len ≤
    0x100000000 ∧ d.cpl % 16 = 0 ∧ mb.val < 56 ∧ r.mb = mb.val ∧ q.span r.scope d.dev d.len = .ok ∧ (d.inc ≠ 0 →
    q.ctrOk r d.sig = true) ∧ q.outBad r d.cpl 16 = none ∧ s.dmaFull r.scope = false :=
  ⟨0, ask (withJob job0) 0x0330 [2 + 3 * 2 ^ 16 + 5 * 2 ^ 32, 0x30000, 0x4000, 64, 0x31000], _, _, _, front_of
  (by decide +kernel), rfl, rfl, by decide +kernel, by decide +kernel, by decide +kernel, by decide +kernel,
  by decide +kernel, by decide +kernel, by decide +kernel, by decide +kernel, by decide +kernel,
  by decide +kernel, by decide +kernel, by decide +kernel, by decide +kernel, by decide +kernel,
  by decide +kernel⟩

theorem witness_HostDma_2 : ∃ (n : Nat) (o : LinkOutcome) (s : State), tabFind s.link.dma n = none :=
  ⟨8, .ok, withDma dma0, by decide +kernel⟩

theorem witness_HostDma_3 : ∃ (n : Nat) (s : State) (d : Dma), tabFind s.link.dma n = some d ∧ s.link.up = true
    ∧ d.toHost = false ∧ d.inc ≠ 0 ∧ d.len ≠ 0 ∧ r40Dev d.cpl = false :=
  ⟨9, withDma dma0, dma0, by decide +kernel, by decide +kernel, by decide +kernel, by decide +kernel,
  by decide +kernel, by decide +kernel⟩

theorem witness_HostDma_4 : ∃ (n : Nat) (s : State) (d : Dma) (bs : List Byte), tabFind s.link.dma n = some d ∧
    s.link.up = true ∧ d.toHost = true ∧ d.inc = 0 ∧ s.devRead d.dev d.len = some bs ∧ r40Dev d.cpl = false ∧
    (d.host + bs.length ≤ d.cpl ∨ d.cpl + 16 ≤ d.host) :=
  ⟨9, withDma dma1, dma1, _, by decide +kernel, by decide +kernel, by decide +kernel, by decide +kernel,
  some_of [] (by decide +kernel), by decide +kernel, .inl (by decide +kernel)⟩

theorem witness_HostDma_5 : ∃ (n : Nat) (s : State) (d : Dma) (o : LinkOutcome), tabFind s.link.dma n = some d
    ∧ s.link.up = true ∧ o ≠ .ok ∧ r40Dev d.cpl = false :=
  ⟨9, withDma dma0, dma0, .timeout, by decide +kernel, by decide +kernel, by decide +kernel, by decide +kernel⟩

theorem witness_SessionCommands_1 : ∃ (mb : MbId) (s : State) (r : Req) (dig : List Byte), s.front mb.val
    0x0106 4 true r ∧ dig = (upTo 4).flatMap (fun i => natLE 8 (r.w i)) ∧ dig ≠ zeros 32 :=
  ⟨0, ask lit 0x0106 [1, 2, 3, 4], _, _, front_of (by decide +kernel), rfl, by decide +kernel⟩

theorem witness_SessionCommands_2 : ∃ (mb : MbId) (s : State) (r : Req) (dig : List Byte), s.front mb.val
    0x0105 5 true r ∧ s.link.detached = true ∧ bitsOf (r.w 0) 31 0 = s.bu.session ∧ s.link.cred = some dig ∧
    (s.link.fails.filter (fun t => decide (s.tick ≤ t + 6000000000))).length < 8 :=
  ⟨0, ask (detached 7) 0x0105 [1, 1, 2, 3, 4], _, zeros 32, front_of (by decide +kernel), by decide +kernel,
  by decide +kernel, by decide +kernel, by decide +kernel⟩

theorem witness_SessionCommands_3 : ∃ (mb : MbId) (s : State) (r : Req) (dig : List Byte), s.front mb.val
    0x0105 5 true r ∧ s.link.detached = true ∧ bitsOf (r.w 0) 31 0 = s.bu.session ∧ s.link.cred = some dig ∧ 8 ≤
    (s.link.fails.filter (fun t => decide (s.tick ≤ t + 6000000000))).length :=
  ⟨0, ask (detached 8) 0x0105 [1, 1, 2, 3, 4], _, zeros 32, front_of (by decide +kernel), by decide +kernel,
  by decide +kernel, by decide +kernel, by decide +kernel⟩

theorem witness_SessionCommands_4 : ∃ (mb : MbId) (s q : State) (r : Req) (a len p h : Nat) (blk img : List
    Byte), s.front mb.val 0x0120 3 false r ∧ q = s.takeReq mb.val ∧ a = addrOf (r.w 0) ∧ len = r.w 1 ∧ p = (match
    r.scope with | none => bitsOf (r.w 2) 2 0 | some p => p) ∧ (r.w 0).testBit 63 = false ∧ a % 4096 = 0 ∧ 4096 ≤
    len ∧ len ≤ 0x4000000 ∧ (s.part? p).isSome = true ∧ 256 ≤ a ∧ q.span (some p) (a - 256) (len + 256) = .ok ∧
    q.devRead (a - 256) 256 = some blk ∧ q.devRead a len = some img ∧ tabFree s.pewter 8 = some h :=
  ⟨0, ask lit0 0x0120 [0x1000, 4096, 0], _, _, _, _, _, _, _, _, front_of (by decide +kernel), rfl, rfl, rfl,
  rfl, by decide +kernel, by decide +kernel, by decide +kernel, by decide +kernel, by decide +kernel,
  by decide +kernel, by decide +kernel, some_of [] (by decide +kernel), some_of [] (by decide +kernel), some_of
  0 (by decide +kernel)⟩

theorem witness_SessionCommands_5 : ∃ (mb : MbId) (s : State) (r : Req) (m : Nat) (p : Pewter), s.front mb.val
    0x0121 1 false r ∧ m = bitsOf (r.w 0) 5 0 ∧ 56 ≤ m ∧ tabFind s.pewter (m - 56) = some p ∧ (r.scope = none ∨
    r.scope = some p.part) ∧ p.stopping = false :=
  ⟨0, ask { lit0 with pewter := [(0, pewter0)] } 0x0121 [56], _, _, pewter0, front_of (by decide +kernel), rfl,
  by decide +kernel, by decide +kernel, .inl (by decide +kernel), by decide +kernel⟩

theorem witness_SessionCommands_6 : ∃ (mb : MbId) (s : State) (r : Req) (m : Nat) (p : Pewter), s.front mb.val
    0x0121 1 false r ∧ m = bitsOf (r.w 0) 5 0 ∧ 56 ≤ m ∧ m ≠ mb.val ∧ r.mb = mb.val ∧ tabFind s.pewter (m - 56) =
    some p ∧ (r.scope = none ∨ r.scope = some p.part) ∧ p.stopping = false ∧ (∀ e ∈ s.jobs, e.2.mailbox ≠ m) ∧ (∀ e
    ∈ s.svcs, e.2.mailbox ≠ m) :=
  ⟨0, ask { lit0 with pewter := [(0, pewter0)] } 0x0121 [56], _, _, pewter0, front_of (by decide +kernel), rfl,
  by decide +kernel, by decide +kernel, by decide +kernel, by decide +kernel, .inl (by decide +kernel),
  by decide +kernel, by decide +kernel, by decide +kernel⟩

theorem witness_HostLinkEvents_1 : ∃ (w rate : Nat) (cxl : Bool) (s : State), s.link.up = false ∧ s.power.perst
    = false ∧ s.power.v48 = true :=
  ⟨16, 5, true, { State.reset with power := { perst := false } }, by decide +kernel, by decide +kernel,
  by decide +kernel⟩

theorem witness_HostLinkEvents_2 : ∃ (w rate : Nat) (cxl : Bool) (s : State), (s.link.up = true ∨ s.power.perst
    = true ∨ s.power.v48 = false) :=
  ⟨16, 5, true, State.reset, .inr (.inl rfl)⟩

theorem witness_HostLinkEvents_3 : ∃ (n : Nat) (s : State), s.link.up = true ∧ s.link.requester = none :=
  ⟨7, { lit with link := { up := true } }, by decide +kernel, by decide +kernel⟩

theorem witness_HostLinkEvents_4 : ∃ (n : Nat) (s : State), (s.link.up = false ∨ s.link.requester ≠ none) :=
  ⟨7, lit, .inr (by decide +kernel)⟩

theorem witness_HostLinkEvents_5 : ∃ (s : State), s.link.up = false :=
  ⟨State.reset, by decide +kernel⟩

theorem witness_HostLinkEvents_6 : ∃ (s : State), s.link.up = true ∧ s.fw = false :=
  ⟨{ State.reset with link := { up := true } }, by decide +kernel, by decide +kernel⟩

theorem witness_HostLinkEvents_7 : ∃ (s : State), s.link.up = true ∧ s.fw = true :=
  ⟨lit, by decide +kernel, by decide +kernel⟩

theorem witness_WeightStore_1 : ∃ (mb : MbId) (s q : State) (r : Req) (h : List Byte) (i o : Nat), s.front
    mb.val 0x0A10 2 true r ∧ q = s.takeReq mb.val ∧ q.outBad r (r.w 1) 16 = none ∧ s.store.install = none ∧
    q.outBad r (r.w 0) 256 = none ∧ q.r40Read (r.w 0) 256 = some h ∧ q.outBad r (r.w 0) (leAt h 16 8) = none ∧
    tabFree s.store.slots 32 = some i ∧ q.findExtents (ceilDiv (leAt h 16 8) gib) = some o ∧ s.store.wear <
    wsEndurance ∧ leAt h 0 4 = 0x57534732 ∧ leAt h 4 2 = 0x0100 ∧ leAt h 6 2 ≠ 0 ∧ 256 + 32 * leAt h 6 2 ≤ leAt h
    16 8 ∧ (q.keyFor (leAt h 24 4) 0 none).isSome = true :=
  ⟨0, ask { lit with hostMem := ({} : Mem).writeL 0x40000 wsImg, sec := { keys := [⟨7, 1, 255, []⟩] } } 0x0A10
  [0x40000, 0x31000], _, _, _, _, _, front_of (by decide +kernel), rfl, by decide +kernel, by decide +kernel,
  by decide +kernel, some_of [] (by decide +kernel), by decide +kernel, some_of 0 (by decide +kernel), some_of
  0 (by decide +kernel), by decide +kernel, by decide +kernel, by decide +kernel, by decide +kernel,
  by decide +kernel, by decide +kernel⟩

theorem witness_WeightStore_2 : ∃ (o : LinkOutcome) (s : State), s.store.install = none :=
  ⟨.ok, lit, by decide +kernel⟩

theorem witness_WeightStore_3 : ∃ (s : State) (n : Install) (img : List Byte), s.store.install = some n ∧
    s.r40Read n.src n.len = some img ∧ img.length = n.len :=
  ⟨{ withInstall with hostMem := ({} : Mem).writeL 0x40000 wsImg }, ⟨31, 0x40000, 0x31000, 384⟩, _,
  by decide +kernel, some_of [] (by decide +kernel), by decide +kernel⟩

theorem witness_WeightStore_4 : ∃ (s : State) (n : Install) (o : LinkOutcome), s.store.install = some n ∧ o ≠
    .ok :=
  ⟨withInstall, ⟨31, 0x40000, 0x31000, 384⟩, .timeout, by decide +kernel, by decide +kernel⟩

theorem witness_WeightStore_5 : ∃ (mb : MbId) (s : State) (r : Req) (i : Nat) (w : WsSlot), s.front mb.val
    0x0A11 1 true r ∧ i = bitsOf (r.w 0) 4 0 ∧ tabFind s.store.slots i = some w ∧ w.st ≠ 1 ∧ w.granted = 0 ∧ (∀ e ∈
    s.store.loads, e.2.slot ≠ i) :=
  ⟨0, ask { withSlot slot31 with store := { (withSlot slot31).store with loads := [] } } 0x0A11 [31], _, _,
  slot31, front_of (by decide +kernel), rfl, by decide +kernel, by decide +kernel, by decide +kernel,
  by decide +kernel⟩

theorem witness_WeightStore_6 : ∃ (mb : MbId) (s : State) (r : Req) (i p : Nat) (w : WsSlot), s.front mb.val
    0x0A12 1 true r ∧ i = bitsOf (r.w 0) 4 0 ∧ p = bitsOf (r.w 0) 10 8 ∧ tabFind s.store.slots i = some w ∧
    (s.part? p).isSome = true :=
  ⟨0, ask (withSlot slot31) 0x0A12 [31 + 1 * 256], _, _, _, slot31, front_of (by decide +kernel), rfl, rfl,
  by decide +kernel, by decide +kernel⟩

theorem witness_WeightStore_7 : ∃ (mb : MbId) (s q : State) (r : Req) (i : Nat) (w : WsSlot) (ls : List
    WsLayer), s.front mb.val 0x0A13 3 false r ∧ q = s.takeReq mb.val ∧ i = bitsOf (r.w 0) 4 0 ∧ w = tabGet {}
    s.store.slots i ∧ w.st = 2 ∧ (∀ p, r.scope = some p → w.granted.testBit p = true) ∧ q.outBad r (r.w 2) 16 =
    none ∧ (r.w 1).testBit 63 = false ∧ q.wsPick w (bitsOf (r.w 0) 31 16) (bitsOf (r.w 0) 47 32) = some ls ∧ q.span
    r.scope (addrOf (r.w 1)) (max 1 (wsSpan ls)) = .ok :=
  ⟨0, ask (withSlot slot31) 0x0A13 [31 + 5 * 65536 + 1 * 2 ^ 32, 0x8000, 0x31000], _, _, _, _, _, front_of
  (by decide +kernel), rfl, rfl, rfl, by decide +kernel, none_only (by decide +kernel), by decide +kernel,
  by decide +kernel, some_of [] (by decide +kernel), by decide +kernel⟩

theorem witness_WeightStore_8 : ∃ (n : Nat) (o : LinkOutcome) (s : State), tabFind s.store.loads n = none :=
  ⟨3, .ok, withSlot slot31, by decide +kernel⟩

theorem witness_WeightStore_9 : ∃ (n : Nat) (s : State) (ld : WsLoad) (w : WsSlot) (l : WsLayer) (bs : List
    Byte), tabFind s.store.loads n = some ld ∧ w = tabGet {} s.store.slots ld.slot ∧ s.wsPick w ld.first ld.count =
    some [l] ∧ s.devRead (apBase + w.offset * gib + l.off) l.len = some bs ∧ r40Dev ld.cpl = false ∧ s.link.up =
    true ∧ bs ≠ [] :=
  ⟨2, withSlot slot31, ⟨none, 31, 5, 1, 0x8000, 0x31000⟩, _, ⟨5, 320, 64, 1⟩, _, by decide +kernel, rfl,
  by decide +kernel, some_of [] (by decide +kernel), by decide +kernel, by decide +kernel, by decide +kernel⟩

theorem witness_WeightStore_10 : ∃ (mb : MbId) (s : State) (r : Req) (w : WsSlot), s.front mb.val 0x0A14 1
    false r ∧ w = tabGet {} s.store.slots (bitsOf (r.w 0) 4 0) :=
  ⟨0, ask (withSlot slot31) 0x0A14 [31], _, _, front_of (by decide +kernel), rfl⟩

/-! ### Services -/

/-- A service of partition 0 on core 8 in TIMER mode: period 200 us, deadline 150 us, 2 counters. -/
def svc0 : Svc :=
  { part := 0, mailbox := 0, image := 0, wcCycles := 1000, gopp := 4, doorbellMode := false, inSrc := 0,
    period := 20000, deadline := 15000, inInc := 1, inAddr := 0, outAddr := 0x6000, state0 := 0, state1 := 0, ring := 0,
    ringLog2 := 0, blocks := [(0, 1)], cores := [8], ctrBase := 100, counters := 2, inBytes := 64, outBytes := 64,
    stateBytes := 0, stage := 0x7000, waTicks := 5000, wregion := 0 }
/-- The module with service 63 (its mailbox is mailbox 0) at tick 1000000. -/
def withSvc (v : Svc) : State :=
  { lit0 with
    svcs := [(63, v)]
    tick := 1000000
    mem := { lit0.mem with regions := [(0, { base := 0x200000, len := 0x200000, part := some 0 })] } }
/-- An armed service in a phase of the period that began at tick 990000. -/
def svcIn (p : SvcPh) : Svc := { svc0 with st := .armed, ph := p, start := 990000, started := true }

theorem witness_ServiceCommands_1 : ∃ (mb : MbId) (s q : State) (r : Req) (a : List Byte), s.frontArg mb.val
    0x0601 0 false r a ∧ q = s.takeReq mb.val :=
  ⟨0, askArg lit0 0x0601 [] (zeros 256), _, _, _, frontArg_of (by decide +kernel), rfl⟩

theorem witness_ServiceCommands_2 : ∃ (mb : MbId) (s : State) (r : Req) (k : Nat) (v : Svc), s.front mb.val
    0x0602 1 false r ∧ s.ownSvc r k v ∧ v.st ≠ .proving ∧ v.leaving = false :=
  ⟨0, ask (withSvc { svc0 with st := .registered }) 0x0602 [63], _, _, { svc0 with st := .registered },
  front_of (by decide +kernel), ⟨rfl, by decide +kernel, .inl (by decide +kernel)⟩, by decide +kernel,
  by decide +kernel⟩

theorem witness_ServiceCommands_3 : ∃ (mb : MbId) (s : State) (r : Req) (k : Nat) (v : Svc), s.front mb.val
    0x0603 2 false r ∧ s.ownSvc r k v ∧ v.st = .registered ∧ v.leaving = false ∧ ((v.doorbellMode = true ∧ r.w 1 =
    0) ∨ (v.doorbellMode = false ∧ s.tick + 10000 ≤ r.w 1 ∧ r.w 1 ≤ s.tick + 2 ^ 40)) :=
  ⟨0, ask (withSvc { svc0 with st := .registered }) 0x0603 [63, 1010000], _, _,
  { svc0 with st := .registered }, front_of (by decide +kernel), ⟨rfl, by decide +kernel, .inl
  (by decide +kernel)⟩, by decide +kernel, by decide +kernel, .inr (by decide +kernel)⟩

theorem witness_ServiceCommands_4 : ∃ (mb : MbId) (s : State) (r : Req) (k w : Nat) (v : Svc) (x : Region),
    s.front mb.val 0x0604 1 false r ∧ s.ownSvc r k v ∧ w = bitsOf (r.w 0) 13 8 ∧ v.pubRegion = none ∧ v.pubVerify =
    none ∧ s.region? w = some x ∧ x.part = some v.part :=
  ⟨0, ask (withSvc { svc0 with st := .armed }) 0x0604 [63], _, _, _, { svc0 with st := .armed },
  { base := 0x200000, len := 0x200000, part := some 0 }, front_of (by decide +kernel), ⟨rfl, by decide +kernel,
  .inl (by decide +kernel)⟩, rfl, by decide +kernel, by decide +kernel, by decide +kernel, by decide +kernel⟩

theorem witness_ServiceCommands_5 : ∃ (mb : MbId) (s : State) (r : Req) (k : Nat) (v : Svc), s.front mb.val
    0x0605 1 false r ∧ s.ownSvc r k v ∧ v.st = .suspended ∧ v.leaving = false :=
  ⟨0, ask (withSvc { svc0 with st := .suspended }) 0x0605 [63], _, _, { svc0 with st := .suspended }, front_of
  (by decide +kernel), ⟨rfl, by decide +kernel, .inl (by decide +kernel)⟩, by decide +kernel,
  by decide +kernel⟩

theorem witness_ServiceCommands_6 : ∃ (mb : MbId) (s : State) (r : Req) (k : Nat) (v : Svc), s.ownSvc r k v :=
  ⟨0, ask (withSvc svc0) 0x0603 [63, 0], reqOf (ask (withSvc svc0) 0x0603 [63, 0]) 0, 63, svc0,
  ⟨by decide +kernel, by decide +kernel, .inl (by decide +kernel)⟩⟩

theorem witness_ServiceVerdicts_1 : ∃ (svc : SvcId) (n : Nat) (s : State), (∀ v, s.svc? svc.val = some v → v.st
    ≠ .proving) :=
  ⟨63, 5, withSvc { svc0 with st := .registered }, some_only { svc0 with st := .registered }
  (by decide +kernel) (by decide +kernel)⟩

theorem witness_ServiceVerdicts_2 : ∃ (svc : SvcId) (n : Nat) (s : State) (v : Svc), s.svc? svc.val = some v ∧
    v.st = .proving ∧ v.lapse = false ∧ s.lapsed v = false :=
  ⟨63, 1000, withSvc { svc0 with runs := 15 }, { svc0 with runs := 15 }, by decide +kernel, by decide +kernel,
  by decide +kernel, by decide +kernel⟩

theorem witness_ServiceVerdicts_3 : ∃ (svc : SvcId) (n : Nat) (s : State) (v : Svc), s.svc? svc.val = some v ∧
    v.st = .proving ∧ (v.lapse = true ∨ s.lapsed v = true) ∧ v.discarded + 1 ≠ 16 :=
  ⟨63, 1000, withSvc { svc0 with lapse := true }, { svc0 with lapse := true }, by decide +kernel,
  by decide +kernel, .inl (by decide +kernel), by decide +kernel⟩

theorem witness_ServiceVerdicts_4 : ∃ (svc : SvcId) (s : State), (∀ v, s.svc? svc.val = some v → v.pubVerify =
    none) :=
  ⟨63, withSvc svc0, some_only svc0 (by decide +kernel) (by decide +kernel)⟩

theorem witness_ServiceVerdicts_5 : ∃ (svc : SvcId) (s : State) (v : Svc) (w why : Nat) (x : Region) (g :
    SvcHead), s.svc? svc.val = some v ∧ v.pubVerify = some w ∧ s.region? w = some x ∧ g = svcHead (s.devMem.readN
    v.image 64) ∧ why = s.weightsCheck x.base x.len (weightMap (s.devMem.readN (v.image + g.wmapOff) (16 *
    g.wmapN)) { g with wmapOff := 0 }) :=
  ⟨63, withSvc { svc0 with pubVerify := some 0 }, { svc0 with pubVerify := some 0 }, 0, _,
  { base := 0x200000, len := 0x200000, part := some 0 }, _, by decide +kernel, by decide +kernel,
  by decide +kernel, rfl, rfl⟩

theorem witness_ServicePeriods_1 : ∃ (svc : SvcId) (s : State) (v : Svc), s.svc? svc.val = some v ∧ v.st =
    .armed ∧ v.ph = .idle :=
  ⟨63, withSvc { svc0 with st := .armed, t0 := 1000000 }, { svc0 with st := .armed, t0 := 1000000 },
  by decide +kernel, by decide +kernel, by decide +kernel⟩

theorem witness_ServicePeriods_2 : ∃ (svc : SvcId) (s : State) (v : Svc), s.svc? svc.val = some v :=
  ⟨63, withSvc (svcIn .clean), svcIn .clean, by decide +kernel⟩

theorem witness_ServicePeriods_3 : ∃ (s : State) (k reason : Nat) (v : Svc), s.svc? k = some v ∧ v.leaving =
    false :=
  ⟨withSvc (svcIn .run), 63, 2, svcIn .run, by decide +kernel, by decide +kernel⟩

theorem witness_ServicePeriods_4 : ∃ (svc : SvcId) (s : State) (v : Svc) (bs : List Byte), s.svc? svc.val =
    some v ∧ v.ph = .writeback ∧ v.leaving = false ∧ v.outBytes ≠ 0 ∧ s.devRead v.stage v.outBytes = some bs :=
  ⟨63, withSvc (svcIn .writeback), svcIn .writeback, _, by decide +kernel, by decide +kernel,
  by decide +kernel, by decide +kernel, some_of [] (by decide +kernel)⟩

theorem witness_ServicePeriods_5 : ∃ (svc : SvcId) (s : State) (v : Svc), s.svc? svc.val = some v ∧ v.ph ≠
    .writeback :=
  ⟨63, withSvc (svcIn .run), svcIn .run, by decide +kernel, by decide +kernel⟩

theorem witness_ServicePeriods_6 : ∃ (svc : SvcId) (s : State) (v : Svc), s.svc? svc.val = some v :=
  ⟨63, withSvc { svc0 with missSince := 1 }, { svc0 with missSince := 1 }, by decide +kernel⟩

theorem witness_ServicePeriods_7 : ∃ (svc : SvcId) (s : State), s.svc? svc.val = none :=
  ⟨63, lit0, by decide +kernel⟩

theorem witness_ServiceDoorbells_1 : ∃ (s : State) (mb k val : Nat), s.svc? k = none :=
  ⟨lit0, 55, 63, 0, by decide +kernel⟩

theorem witness_ServiceDoorbells_2 : ∃ (s : State) (mb k val : Nat) (v : Svc), s.svc? k = some v ∧ (v.ph =
    .idle ∨ v.ph = .writeback) ∧ s.mbPart mb ≠ some v.part :=
  ⟨withSvc svc0, 55, 63, 0, svc0, by decide +kernel, .inl rfl, by decide +kernel⟩

theorem witness_ServiceDoorbells_3 : ∃ (s : State) (mb k val : Nat) (v : Svc), s.svc? k = some v ∧ v.ph = .idle
    ∧ s.mbPart mb = some v.part :=
  ⟨{ withSvc { svc0 with st := .armed } with mailboxes := [(1, { part := some 0 })] }, 1, 63, 0,
  { svc0 with st := .armed }, by decide +kernel, by decide +kernel, by decide +kernel⟩

/-! ### Power -/

/-- A change of operating point under way. -/
def chg0 : Change := { target := 3, notice := 0, forced := false, pllLocked := true, railTick := 50 }
/-- The module with group 31 changing its operating point, at tick 5000. -/
def chging (x : Group) : State := { lit with groups := [(31, x)], tick := 5000 }
/-- No energy, 100 W. -/
def energy0 : EnergyInput := { watts := 100, device := 1000, byGroup := [], byJob := [], byService := [], byQpn := [], byPart := [], dieWatts := [1, 2, 3, 4] }
/-- Every sensor at one temperature. -/
def temps (d m : Nat) : TempReading := { die := List.replicate 128 d, mem := List.replicate 12 m }

theorem witness_PowerCommands_1 : ∃ (mb : MbId) (s : State) (r : Req) (w : Nat), s.front mb.val 0x0701 1 true r
    ∧ w = bitsOf (r.w 0) 10 0 ∧ 200 ≤ w ∧ w ≤ 1500 :=
  ⟨0, ask lit 0x0701 [1500], _, _, front_of (by decide +kernel), rfl, by decide +kernel, by decide +kernel⟩

theorem witness_PowerCommands_2 : ∃ (mb : MbId) (s : State) (r : Req) (w : Nat), s.front mb.val 0x0701 1 true r
    ∧ w = bitsOf (r.w 0) 10 0 ∧ (w < 200 ∨ 1500 < w) :=
  ⟨0, ask lit 0x0701 [199], _, _, front_of (by decide +kernel), rfl, .inl (by decide +kernel)⟩

theorem witness_PowerCommands_3 : ∃ (mb : MbId) (s : State) (r : Req) (i o : Nat) (a : Acct), s.front mb.val
    0x0710 1 true r ∧ i = bitsOf (r.w 0) 7 0 ∧ o = bitsOf (r.w 0) 11 8 ∧ a = tabGet {} s.con.accts i ∧ (o < 8 ∨ o =
    15) ∧ (a.kind = 1 → o = 15) ∧ (s.iso o = true → a.owner ≠ o → (s.con.accts.filter (fun e => e.2.owner =
    o)).length < 32) :=
  ⟨0, ask lit 0x0710 [255 + 7 * 256], _, _, _, _, front_of (by decide +kernel), rfl, rfl, rfl, .inl
  (by decide +kernel), by decide +kernel, by decide +kernel⟩

theorem witness_PowerCommands_4 : ∃ (mb : MbId) (s : State) (r : Req) (i kind first last : Nat) (a : Acct),
    s.front mb.val 0x0711 1 false r ∧ i = bitsOf (r.w 0) 7 0 ∧ kind = bitsOf (r.w 0) 10 8 ∧ first = bitsOf (r.w 0)
    31 16 ∧ last = bitsOf (r.w 0) 47 32 ∧ a = tabGet {} s.con.accts i ∧ kind ≠ 7 ∧ (kind = 1 → r.scope = none ∧
    a.owner = 15) ∧ (kind = 5 → first ≤ last) ∧ (∀ p, r.scope = some p → a.owner = p ∧ s.acctTarget p kind first
    last = true) :=
  ⟨0, ask lit 0x0711 [255 + 5 * 256 + 3 * 65536 + 3 * 2 ^ 32], reqOf (ask lit 0x0711 [255 + 5 * 256 + 3 * 65536
  + 3 * 2 ^ 32]) 0, 255, 5, 3, 3, {}, front_of (by decide +kernel), by decide +kernel, by decide +kernel,
  by decide +kernel, by decide +kernel, by decide +kernel, by decide +kernel, by decide +kernel,
  by decide +kernel, none_only (by decide +kernel)⟩

theorem witness_PowerCommands_5 : ∃ (mb : MbId) (s : State) (r : Req) (i : Nat) (a : Acct), i = bitsOf (r.w 0)
    7 0 ∧ a = tabGet {} s.con.accts i ∧ (∀ p, r.scope = some p → a.owner = p) :=
  ⟨0, ask lit 0x0712 [255], reqOf (ask lit 0x0712 [255]) 0, _, _, rfl, rfl, none_only (by decide +kernel)⟩

theorem witness_PowerCommands_6 : ∃ (mb : MbId) (s : State) (r : Req) (p q : Nat), r.scope = some p ∧ (tabGet
    {} s.con.accts (bitsOf (r.w 0) 7 0)).owner = q ∧ q ≠ p :=
  ⟨1, lit0, { reqOf lit0 0 with scope := some 1 }, 1, 15, by decide +kernel, by decide +kernel,
  by decide +kernel⟩

theorem witness_PowerCommands_7 : ∃ (mb : MbId) (s : State) (r : Req) (p : Nat), s.front mb.val 0x0720 1 false
    r ∧ p = (match r.scope with | some p => p | none => bitsOf (r.w 0) 2 0) :=
  ⟨0, ask lit 0x0720 [7 + 9 * 2 ^ 32], _, _, front_of (by decide +kernel), rfl⟩

theorem witness_PowerCommands_8 : ∃ (mb : MbId) (s : State) (r : Req) (x : Partn), s.front mb.val 0x0721 0
    false r ∧ x = (r.scope.bind s.part?).getD {} :=
  ⟨0, ask lit 0x0721 [], _, _, front_of (by decide +kernel), rfl⟩

theorem witness_PowerCommands_9 : ∃ (mb : MbId) (s : State) (r : Req) (g : Nat), s.front mb.val 0x0722 1 false
    r ∧ g = bitsOf (r.w 0) 4 0 ∧ (r.scope = none ∨ s.groupPart g = r.scope) :=
  ⟨0, ask lit 0x0722 [31], _, _, front_of (by decide +kernel), rfl, .inl (by decide +kernel)⟩

theorem witness_OperatingPointChanges_1 : ∃ (g : GroupId) (s : State), ((s.grp g.val).change = none ∨ s.grpOn
    g.val = false) :=
  ⟨31, lit, .inl (by decide +kernel)⟩

theorem witness_OperatingPointChanges_2 : ∃ (g : GroupId) (s : State) (x : Group) (c : Change), x = s.grp g.val
    ∧ x.change = some c ∧ s.grpOn g.val = true :=
  ⟨31, chging { change := some { chg0 with pllLocked := false } }, _, { chg0 with pllLocked := false }, rfl,
  by decide +kernel, by decide +kernel⟩

theorem witness_OperatingPointChanges_3 : ∃ (g : GroupId) (s : State) (x : Group) (c : Change), x = s.grp g.val
    ∧ x.change = some c ∧ s.grpOn g.val = true ∧ c.switched = false ∧ c.pllLocked = true ∧ oppMv c.target ≤ x.mv ∧
    c.retryTick = none ∧ (c.forced = true ∨ c.notice + 100 * s.rf .pw 0x000 23 16 ≤ s.tick) :=
  ⟨31, chging { change := some chg0, mv := oppMv 3 }, _, chg0, rfl, by decide +kernel, by decide +kernel,
  by decide +kernel, by decide +kernel, by decide +kernel, by decide +kernel, .inr (by decide +kernel)⟩

theorem witness_OperatingPointChanges_4 : ∃ (g : GroupId) (s : State) (x : Group) (c : Change), x = s.grp g.val
    ∧ x.change = some c ∧ s.grpOn g.val = true ∧ c.railTick ≤ s.tick ∧ x.mv ≠ oppMv c.target ∧ (c.switched = true ∨
    x.mv < oppMv c.target) :=
  ⟨31, chging { change := some { chg0 with switched := true }, mv := 600 }, _, { chg0 with switched := true },
  rfl, by decide +kernel, by decide +kernel, by decide +kernel, by decide +kernel, .inl rfl⟩

theorem witness_OperatingPointChanges_5 : ∃ (g : GroupId) (s : State) (x : Group) (c : Change) (t : Nat), x =
    s.grp g.val ∧ x.change = some c ∧ s.grpOn g.val = true ∧ c.waitTick = some t ∧ c.forced = false ∧ x.stretch =
    true ∧ t + 200 ≤ s.tick :=
  ⟨31, chging { change := some { chg0 with waitTick := some 4800 }, mv := oppMv 3, stretch := true }, _,
  { chg0 with waitTick := some 4800 }, 4800, rfl, by decide +kernel, by decide +kernel, by decide +kernel,
  by decide +kernel, by decide +kernel, by decide +kernel⟩

theorem witness_OperatingPointChanges_6 : ∃ (g : GroupId) (s : State) (x : Group) (c : Change) (t : Nat), x =
    s.grp g.val ∧ x.change = some c ∧ s.grpOn g.val = true ∧ c.retryTick = some t ∧ t ≤ s.tick :=
  ⟨31, chging { change := some { chg0 with retryTick := some 5000 }, mv := oppMv 3 }, _,
  { chg0 with retryTick := some 5000 }, 5000, rfl, by decide +kernel, by decide +kernel, by decide +kernel,
  by decide +kernel⟩

theorem witness_DroopAndDuty_1 : ∃ (g : GroupId) (d : Fin 16) (s : State), s.grpOn g.val = true :=
  ⟨31, 15, lit, by decide +kernel⟩

theorem witness_DroopAndDuty_2 : ∃ (g : GroupId) (d : Fin 16) (s : State), s.grpOn g.val = false :=
  ⟨31, 15, State.reset, by decide +kernel⟩

theorem witness_DroopAndDuty_3 : ∃ (g : GroupId) (s : State), s.grpOn g.val = true ∧ (s.grp g.val).stretch =
    true :=
  ⟨31, chging { stretch := true }, by decide +kernel, by decide +kernel⟩

theorem witness_PowerSampling_1 : ∃ (x : IntervalInput) (e : EnergyInput) (s : State), s.power.cp = false :=
  ⟨⟨100, []⟩, energy0, State.reset, by decide +kernel⟩

theorem witness_PowerSampling_2 : ∃ (x : IntervalInput) (s : State), s.power.cp = true :=
  ⟨⟨100, []⟩, lit, by decide +kernel⟩

theorem witness_PowerSampling_3 : ∃ (e : EnergyInput) (s : State), s.power.cp = true :=
  ⟨energy0, lit, by decide +kernel⟩

theorem witness_PowerBrake_2 : ∃ (s : State), s.power.pwrbrk = false ∧ s.power.cp = true :=
  ⟨lit, by decide +kernel, by decide +kernel⟩

theorem witness_PowerBrake_3 : ∃ (s : State), s.power.pwrbrk = false ∧ s.power.cp = false :=
  ⟨State.reset, by decide +kernel, by decide +kernel⟩

theorem witness_PowerBrake_4 : ∃ (s : State), s.power.pwrbrk = true ∧ s.power.cp = true :=
  ⟨{ lit with power := { lit.power with pwrbrk := true } }, by decide +kernel, by decide +kernel⟩

theorem witness_PowerBrake_5 : ∃ (s : State), s.power.pwrbrk = true ∧ s.power.cp = false :=
  ⟨{ State.reset with power := { pwrbrk := true } }, by decide +kernel, by decide +kernel⟩

theorem witness_ThermalEvents_1 : ∃ (r : TempReading) (s : State), (s.power.tripped = true ∨ s.power.pdFab = 0)
    :=
  ⟨temps 900 0, State.reset, .inr rfl⟩

theorem witness_ThermalEvents_2 : ∃ (r : TempReading) (s : State), s.power.tripped = false ∧ s.power.pdFab ≠ 0
    ∧ s.power.cp = false ∧ listMax r.die < 880 ∧ listMax r.mem < 840 :=
  ⟨temps 879 839, { lit with power := { lit.power with cp := false } }, by decide +kernel, by decide +kernel,
  by decide +kernel, by decide +kernel, by decide +kernel⟩

theorem witness_ThermalEvents_3 : ∃ (r : TempReading) (s : State), s.power.tripped = false ∧ s.power.pdFab ≠ 0
    :=
  ⟨temps 879 840, lit, by decide +kernel, by decide +kernel⟩

theorem witness_ThermalEvents_4 : ∃ (p : PartId) (s : State), (s.part? p.val = none ∨ s.power.cp = false) :=
  ⟨7, lit, .inl rfl⟩

theorem witness_ThermalEvents_5 : ∃ (p : PartId) (s : State) (x : Partn), s.part? p.val = some x ∧ s.power.cp =
    true :=
  ⟨1, lit0, { groups := 4, setFirst := 4 }, by decide +kernel, by decide +kernel⟩

/-! ### Transport -/

/-- A queue pair of job 0 in RTS on sub-port 0. -/
def qp0 : Qp := { st := .rts, job := 0, part := 0, peer := 1, cls := 1, pin := false, npath := 1, mask := 1, sqBase := 0x1000, sqLog2 := 6, epoch := 0, cached := true, peerQpn := 3 }
/-- A send of 64 bytes from 0x4000. -/
def wqe0 : List Nat := [1 + 2 * 65536 + 7 * 2 ^ 32, 0x4000, 64, 128, 5, 1, 0, 0]
/-- The same as a work request. -/
def wr0 : Wr := { num := 0, w := wqe0 }
/-- A packet for that queue pair. -/
def pkt0 (typ : Nat) (pay : List Byte) : Packet := { mkPkt 3 qp0 typ with dstQpn := 0, srcQpn := 3, msgPkts := 1, payload := pay }
/-- A writable and readable region of job 0, with key 5. -/
def reg0 : XpRegion := ⟨true, false, 5, 0, 0, 0x8000, 0x1000, true, true⟩
/-- The module with job 0, queue pair 0 and region 0. -/
def withQp (q : Qp) : State :=
  { withJob { job0 with st := .running } with
    xp := { qps := [(0, q)], regions := [(0, reg0)] }
    subs := [(0, { link := true })]
    devMem := { lit.devMem with undef := [] } }
/-- A packet waits at sub-port 0. -/
def packetIn (q : Qp) (p : Packet) : State :=
  { withQp q with subs := [(0, { link := true, rxQ := [(p, false, 1, 200, true)] })] }
/-- A trigger on counter 0 at 1. -/
def trig0 : Trigger := ⟨wqe0, 0, 0, 2, true⟩
/-- A packet that waits for its acknowledgement since tick 0. -/
def un0 : Unacked := { pkt := { mkPkt 0 qp0 1 with msgPkts := 1 }, path := 0, sentTick := 0, rto := 50000, wr := 0 }

theorem witness_TransportCommands_1 : ∃ (mb : MbId) (s q : State) (r : Req) (i : Nat), s.front mb.val 0x0810 4
    true r ∧ q = s.takeReq mb.val ∧ i = bitsOf (r.w 0) 3 0 ∧ s.subExists i = true :=
  ⟨0, ask lit 0x0810 [0, 0x0A000001, 0, 5], _, _, _, front_of (by decide +kernel), rfl, rfl, by decide +kernel⟩

theorem witness_TransportCommands_2 : ∃ (mb : MbId) (s : State) (r : Req) (x : Job) (n sq lg mask : Nat),
    s.front mb.val 0x0818 3 false r ∧ s.job? (bitsOf (r.w 0) 15 0) = some x ∧ (r.scope = none ∨ r.scope = some
    x.part) ∧ mask = bitsOf (r.w 0) 63 48 ∧ mask ≠ 0 ∧ (∀ i ∈ maskSubs mask, s.subExists i = true) ∧ bitsOf (r.w 0)
    23 22 ≠ 3 ∧ lg = bitsOf (r.w 2) 3 0 ∧ 6 ≤ lg ∧ lg ≤ 12 ∧ (r.w 1).testBit 63 = false ∧ sq = addrOf (r.w 1) ∧ sq
    % 4096 = 0 ∧ s.span (some x.part) sq (64 * 2 ^ lg) = .ok ∧ tabFind x.keys (bitsOf (r.w 0) 21 16) ≠ none ∧ ((r.w
    0).testBit 24 = true → s.pinFull x.part = false) ∧ s.freeQpn x.part = some n :=
  ⟨0, ask (withJob { job0 with keys := [(1, zeros 32)] }) 0x0818 [1 * 65536 + 1 * 2 ^ 48, 0x1000, 6], _,
  { job0 with keys := [(1, zeros 32)] }, 0, _, _, _, front_of (by decide +kernel), by decide +kernel,
  by decide +kernel, rfl, by decide +kernel, by decide +kernel, by decide +kernel, rfl, by decide +kernel,
  by decide +kernel, by decide +kernel, rfl, by decide +kernel, by decide +kernel, by decide +kernel,
  by decide +kernel, by decide +kernel⟩

theorem witness_TransportCommands_3 : ∃ (mb : MbId) (s : State) (r : Req) (a : List Byte) (x : Job) (q : Qp) (n
    : Nat), s.frontArg mb.val 0x0819 2 false r a ∧ n = bitsOf (r.w 0) 15 0 ∧ s.qp? n = some q ∧ (r.scope = none ∨
    r.scope = some q.part) ∧ s.job? q.job = some x ∧ q.st = .init ∧ x.epoch = q.epoch ∧ tabFind x.keys q.peer ≠
    none ∧ a.length = roundUp (16 * (maskSubs q.mask).length) 8 :=
  ⟨0, askArg { withQp { qp0 with st := .init } with jobs := [(0, { job0 with keys := [(1, zeros 32)] })] }
  0x0819 [0, 3] (zeros 16), _, _, { job0 with keys := [(1, zeros 32)] }, { qp0 with st := .init }, _,
  frontArg_of (by decide +kernel), rfl, by decide +kernel, by decide +kernel, by decide +kernel,
  by decide +kernel, by decide +kernel, by decide +kernel, by decide +kernel⟩

theorem witness_TransportCommands_4 : ∃ (mb : MbId) (s : State) (r : Req) (q : Qp) (n : Nat), s.front mb.val
    0x081A 1 false r ∧ n = bitsOf (r.w 0) 15 0 ∧ s.qp? n = some q ∧ (r.scope = none ∨ r.scope = some q.part) :=
  ⟨0, ask (withQp qp0) 0x081A [0], _, qp0, _, front_of (by decide +kernel), rfl, by decide +kernel,
  by decide +kernel⟩

theorem witness_TransportCommands_5 : ∃ (mb : MbId) (s : State) (r : Req) (q : Qp) (n : Nat), s.front mb.val
    0x081B 1 false r ∧ n = bitsOf (r.w 0) 15 0 ∧ s.qp? n = some q ∧ (r.scope = none ∨ r.scope = some q.part) :=
  ⟨0, ask (withQp qp0) 0x081B [0], _, qp0, _, front_of (by decide +kernel), rfl, by decide +kernel,
  by decide +kernel⟩

theorem witness_TransportCommands_6 : ∃ (mb : MbId) (s : State) (r : Req) (q : Qp) (n prod m d0 d1 : Nat),
    s.front mb.val 0x0820 1 false r ∧ n = bitsOf (r.w 0) 15 0 ∧ prod = bitsOf (r.w 0) 28 16 ∧ s.qp? n = some q ∧
    (r.scope = none ∨ r.scope = some q.part) ∧ q.st = .rts ∧ m = 2 ^ (q.sqLog2 + 1) ∧ prod < m ∧ d0 = (q.sqProd + m
    - q.sqCons) % m ∧ d1 = (prod + m - q.sqCons) % m ∧ d0 ≤ d1 ∧ d1 ≤ 2 ^ q.sqLog2 ∧ (∀ i, i < d1 - d0 → s.devRead
    (q.sqBase + 64 * ((q.sqProd + i) % 2 ^ q.sqLog2)) 64 ≠ none) :=
  ⟨0, ask (withQp qp0) 0x0820 [2 * 65536], _, qp0, 0, 2, 128, 0, 2, front_of (by decide +kernel),
  by decide +kernel, by decide +kernel, by decide +kernel, by decide +kernel, by decide +kernel,
  by decide +kernel, by decide +kernel, by decide +kernel, by decide +kernel, by decide +kernel,
  by decide +kernel, by decide +kernel⟩

theorem witness_TransportCommands_7 : ∃ (mb : MbId) (s : State) (r : Req) (a : List Byte) (b k : Nat),
    s.frontArg mb.val 0x0821 0 false r a ∧ a.length = 64 * k ∧ 1 ≤ k ∧ k ≤ 256 ∧ s.freeTrigs (s.trigPart r.scope
    (wq (wqeWords (a.take 64)) 7 47 32)) k = some b ∧ (∀ i, i < k → ∃ q, wqeOk (wq (wqeWords ((a.drop (64 *
    i)).take 64)) 7 47 32) (wqeWords ((a.drop (64 * i)).take 64)) = true ∧ wq (wqeWords ((a.drop (64 * i)).take
    64)) 5 15 14 = 0 ∧ s.qp? (wq (wqeWords ((a.drop (64 * i)).take 64)) 7 47 32) = some q ∧ q.st = .rts ∧ (r.scope
    = none ∨ r.scope = some q.part)) :=
  ⟨0, askArg (withQp qp0) 0x0821 [] (wqe0.flatMap (natLE 8)), _, _, 0, 1, frontArg_of (by decide +kernel),
  by decide +kernel, by decide +kernel, by decide +kernel, by decide +kernel,
  fun i h => by obtain rfl : i = 0 := (by omega); exact ⟨qp0, by decide +kernel⟩⟩

theorem witness_TransportCommands_8 : ∃ (mb : MbId) (s : State) (r : Req) (b k : Nat), s.front mb.val 0x0822 1
    false r ∧ b = bitsOf (r.w 0) 15 0 ∧ k = bitsOf (r.w 0) 31 16 ∧ (∀ i, i < k → ∃ t q, tabFind s.xp.triggers (b +
    i) = some t ∧ s.qp? (wq t.w 7 47 32) = some q ∧ (r.scope = none ∨ r.scope = some q.part)) :=
  ⟨0, ask { withQp qp0 with xp := { (withQp qp0).xp with triggers := [(0, trig0)] } } 0x0822 [65536], _, 0, 1,
  front_of (by decide +kernel), by decide +kernel, by decide +kernel,
  fun i h => by obtain rfl : i = 0 := (by omega); exact ⟨trig0, qp0, by decide +kernel⟩⟩

theorem witness_TransportCommands_9 : ∃ (mb : MbId) (s q : State) (r : Req) (x : Job) (j a len i g : Nat) (rg :
    XpRegion), s.front mb.val 0x0828 3 false r ∧ j = bitsOf (r.w 2) 15 0 ∧ s.job? j = some x ∧ (r.scope = none ∨
    r.scope = some x.part) ∧ (r.w 0).testBit 63 = false ∧ a = addrOf (r.w 0) ∧ len = bitsOf (r.w 1) 39 0 ∧ a % 4096
    = 0 ∧ len % 4096 = 0 ∧ len ≠ 0 ∧ s.span (some x.part) a len = .ok ∧ s.freeRegion x.part = some i ∧ g = ((tabGet
    {} s.xp.regions i).gen + 1) % 2 ^ 18 ∧ rg = ⟨true, false, g, j, x.part, a, len, (r.w 2).testBit 16, (r.w
    2).testBit 17⟩ ∧ q = s.takeReq mb.val :=
  ⟨0, ask (withJob job0) 0x0828 [0x8000, 0x1000, 3 * 65536], _, _, job0, _, _, _, 0, _, _, front_of
  (by decide +kernel), rfl, by decide +kernel, by decide +kernel, by decide +kernel, rfl, rfl,
  by decide +kernel, by decide +kernel, by decide +kernel, by decide +kernel, by decide +kernel, rfl, rfl, rfl⟩

theorem witness_TransportCommands_10 : ∃ (mb : MbId) (s q : State) (r : Req) (key i : Nat) (rg rv : XpRegion),
    s.front mb.val 0x0829 1 false r ∧ key = bitsOf (r.w 0) 31 0 ∧ i = key / 2 ^ 18 ∧ rg = tabGet {} s.xp.regions i
    ∧ rg.valid = true ∧ rg.gen = key % 2 ^ 18 ∧ (r.scope = none ∨ r.scope = some rg.part) ∧ rv =
    { rg with valid := false, revoking := true } ∧ q = s.takeReq mb.val :=
  ⟨0, ask (withQp qp0) 0x0829 [5], _, _, _, 0, reg0, _, front_of (by decide +kernel), rfl, by decide +kernel,
  by decide +kernel, by decide +kernel, by decide +kernel, by decide +kernel, rfl, rfl⟩

theorem witness_TransportCommands_11 : ∃ (n : Nat) (s : State) (rg rv : XpRegion), tabFind s.xp.regions n =
    some rg ∧ rg.revoking = true ∧ rv = { rg with revoking := false } :=
  ⟨0, { lit with xp := { regions := [(0, { reg0 with valid := false, revoking := true })] } },
  { reg0 with valid := false, revoking := true }, _, by decide +kernel, by decide +kernel, rfl⟩

theorem witness_PacketsArrive_1 : ∃ (i : SubId) (s : State) (p : Packet) (q : Qp) (a : Nat), s.rxFront i.val 1
    p q ∧ s.jobsRising ∧ psnSeen q p.psn = false ∧ psnOff p.psn q.cum < 1024 ∧ s.rkeyAddr q p.rkey p.taddr
    p.payload.length true = some a ∧ s.rctrBad q p = false :=
  ⟨0, packetIn qp0 ({ pkt0 1 (natLE 8 9) with rkey := 5, taddr := 64 }),
  { pkt0 1 (natLE 8 9) with rkey := 5, taddr := 64 }, qp0, 0x8040, ⟨⟨false, 1, 200, [], rfl⟩,
  by decide +kernel, by decide +kernel, by decide +kernel, by decide +kernel, some_only
  { job0 with st := .running } (by decide +kernel) (by decide +kernel)⟩,
  by unfold State.jobsRising; decide +kernel, by decide +kernel, by decide +kernel, by decide +kernel,
  by decide +kernel⟩

theorem witness_PacketsArrive_2 : ∃ (i : SubId) (s : State) (p : Packet) (q : Qp), s.rxFront i.val 1 p q ∧
    s.jobsRising ∧ psnSeen q p.psn = false ∧ psnOff p.psn q.cum < 1024 ∧ s.rkeyAddr q p.rkey p.taddr
    p.payload.length true = none :=
  ⟨0, packetIn qp0 ({ pkt0 1 (natLE 8 9) with rkey := 6, taddr := 64 }),
  { pkt0 1 (natLE 8 9) with rkey := 6, taddr := 64 }, qp0, ⟨⟨false, 1, 200, [], rfl⟩, by decide +kernel,
  by decide +kernel, by decide +kernel, by decide +kernel, some_only { job0 with st := .running }
  (by decide +kernel) (by decide +kernel)⟩, by unfold State.jobsRising; decide +kernel, by decide +kernel,
  by decide +kernel, by decide +kernel⟩

theorem witness_PacketsArrive_3 : ∃ (i : SubId) (s : State) (p : Packet) (q : Qp), s.rxFront i.val 4 p q ∧
    s.jobsRising ∧ p.psn = q.cum ∧ q.cum < 2 ^ 32 ∧ q.placed = [] ∧ q.msgs = [] ∧ p.msgPkts = 1 ∧ p.msgPsn0 = p.psn
    ∧ p.msn = q.rmsn ∧ p.rctrEn = true ∧ s.rctrBad q p = false :=
  ⟨0, packetIn qp0 { pkt0 4 [] with rctrEn := true, rctr := 2, rinc := 3 },
  { pkt0 4 [] with rctrEn := true, rctr := 2, rinc := 3 }, qp0, ⟨⟨false, 1, 200, [], rfl⟩, by decide +kernel,
  by decide +kernel, by decide +kernel, by decide +kernel, some_only { job0 with st := .running }
  (by decide +kernel) (by decide +kernel)⟩, by unfold State.jobsRising; decide +kernel, by decide +kernel,
  by decide +kernel, by decide +kernel, by decide +kernel, by decide +kernel, by decide +kernel,
  by decide +kernel, by decide +kernel, by decide +kernel⟩

theorem witness_PacketsArrive_4 : ∃ (i : SubId) (s : State) (p : Packet) (q : Qp) (a m n : Nat) (bs : List
    Byte), s.rxFront i.val 2 p q ∧ s.jobsRising ∧ s.rkeyAddr q p.rkey p.taddr (leAt p.payload 8 8) false = some a ∧
    s.rctrBad q p = false ∧ s.devRead a (leAt p.payload 8 8) = some bs ∧ m = s.mtu q ∧ n = ceilDiv (leAt p.payload
    8 8) m :=
  ⟨0, packetIn qp0 { pkt0 2 (natLE 8 0x40 ++ natLE 8 64) with rkey := 5, taddr := 64 },
  { pkt0 2 (natLE 8 0x40 ++ natLE 8 64) with rkey := 5, taddr := 64 }, qp0, 0x8040, 4096, 1, zeros 64, ⟨⟨false,
  1, 200, [], rfl⟩, by decide +kernel, by decide +kernel, by decide +kernel, by decide +kernel, some_only
  { job0 with st := .running } (by decide +kernel) (by decide +kernel)⟩,
  by unfold State.jobsRising; decide +kernel, by decide +kernel, by decide +kernel, by decide +kernel,
  by decide +kernel, by decide +kernel⟩

theorem witness_PacketsArrive_5 : ∃ (i : SubId) (s : State) (p : Packet) (q : Qp) (w : Wr) (lo len : Nat),
    s.rxFront i.val 3 p q ∧ q.wrs = [w] ∧ q.dying = false ∧ w.started = true ∧ wqOp w.w = 2 ∧ w.num % 2 ^ 32 =
    p.msn ∧ w.readGot.contains p.psn = false ∧ lo = wq w.w 1 47 0 ∧ len = wq w.w 2 39 0 ∧ lo ≤ p.taddr ∧ p.taddr +
    p.payload.length ≤ lo + len ∧ w.w.getD 6 0 = 0 :=
  ⟨0, packetIn
  { qp0 with wrs := [{ num := 0, w := [2, 0x4000, 64, 128, 5, 1, 0, 0], started := true, readLeft := 64 }] }
  { pkt0 3 (zeros 64) with taddr := 0x4000 }, { pkt0 3 (zeros 64) with taddr := 0x4000 },
  { qp0 with wrs := [{ num := 0, w := [2, 0x4000, 64, 128, 5, 1, 0, 0], started := true, readLeft := 64 }] },
  { num := 0, w := [2, 0x4000, 64, 128, 5, 1, 0, 0], started := true, readLeft := 64 }, _, _, ⟨⟨false, 1, 200,
  [], rfl⟩, by decide +kernel, by decide +kernel, by decide +kernel, by decide +kernel, some_only
  { job0 with st := .running } (by decide +kernel) (by decide +kernel)⟩, by decide +kernel, by decide +kernel,
  by decide +kernel, by decide +kernel, by decide +kernel, by decide +kernel, rfl, rfl, by decide +kernel,
  by decide +kernel, by decide +kernel⟩

theorem witness_PacketsArrive_6 : ∃ (i : SubId) (s : State) (p : Packet) (q : Qp) (w : Wr) (u : Unacked) (a :
    Nat), s.rxFront i.val 5 p q ∧ q.wrs = [w] ∧ q.unacked = [u] ∧ q.dying = false ∧ u.wr = w.num ∧ 2 ^ 31 ≤ psnOff
    u.pkt.psn (leAt p.payload 0 4) ∧ w.started = true ∧ (wqOp w.w = 1 ∨ wqOp w.w = 3) ∧ w.toSend = [] ∧
    w.outstanding = 1 ∧ a = w.w.getD 6 0 :=
  ⟨0, packetIn { qp0 with wrs := [{ wr0 with started := true, outstanding := 1 }], unacked := [un0] } (pkt0 5
  (natLE 4 1 ++ zeros 140)), pkt0 5 (natLE 4 1 ++ zeros 140),
  { qp0 with wrs := [{ wr0 with started := true, outstanding := 1 }], unacked := [un0] },
  { wr0 with started := true, outstanding := 1 }, un0, 0, ⟨⟨false, 1, 200, [], rfl⟩, by decide +kernel,
  by decide +kernel, by decide +kernel, by decide +kernel, some_only { job0 with st := .running }
  (by decide +kernel) (by decide +kernel)⟩, by decide +kernel, by decide +kernel, by decide +kernel,
  by decide +kernel, by decide +kernel, by decide +kernel, by decide +kernel, by decide +kernel,
  by decide +kernel, by decide +kernel⟩

theorem witness_PacketsArrive_7 : ∃ (i : SubId) (s : State) (p : Packet) (q : Qp), s.rxFront i.val 6 p q :=
  ⟨0, packetIn qp0 (pkt0 6 (zeros 12)), pkt0 6 (zeros 12), qp0, ⟨⟨false, 1, 200, [], rfl⟩, by decide +kernel,
  by decide +kernel, by decide +kernel, by decide +kernel, some_only { job0 with st := .running }
  (by decide +kernel) (by decide +kernel)⟩⟩

theorem witness_PacketsArrive_8 : ∃ (i : SubId) (s : State) (p : Packet) (q : Qp), s.rxFront i.val 7 p q ∧
    (s.sub (pathSub q p.path)).link = true :=
  ⟨0, packetIn qp0 (pkt0 7 []), pkt0 7 [], qp0, ⟨⟨false, 1, 200, [], rfl⟩, by decide +kernel,
  by decide +kernel, by decide +kernel, by decide +kernel, some_only { job0 with st := .running }
  (by decide +kernel) (by decide +kernel)⟩, by decide +kernel⟩

theorem witness_PacketsArrive_9 : ∃ (i : SubId) (s : State) (p : Packet) (q : Qp) (e : Nat × Nat × Nat),
    s.rxFront i.val 8 p q ∧ q.probes.find? (fun e => e.2.1 = leAt p.payload 0 8) = some e :=
  ⟨0, packetIn { qp0 with probes := [(0, 5, 0)], down := [0] } (pkt0 8 (natLE 8 5)), pkt0 8 (natLE 8 5),
  { qp0 with probes := [(0, 5, 0)], down := [0] }, (0, 5, 0), ⟨⟨false, 1, 200, [], rfl⟩, by decide +kernel,
  by decide +kernel, by decide +kernel, by decide +kernel, some_only { job0 with st := .running }
  (by decide +kernel) (by decide +kernel)⟩, by decide +kernel⟩

theorem witness_PacketsArrive_10 : ∃ (i : SubId) (s : State) (p : Packet) (q : Qp) (x : Job), s.rxFront i.val 9
    p q ∧ s.jobsRising ∧ s.job? q.job = some x :=
  ⟨0, packetIn qp0 (pkt0 9 (ctrlPayload 2 1 0 1 0 0 0)), pkt0 9 (ctrlPayload 2 1 0 1 0 0 0), qp0,
  { job0 with st := .running }, ⟨⟨false, 1, 200, [], rfl⟩, by decide +kernel, by decide +kernel,
  by decide +kernel, by decide +kernel, some_only { job0 with st := .running } (by decide +kernel)
  (by decide +kernel)⟩, by unfold State.jobsRising; decide +kernel, by decide +kernel⟩

theorem witness_TransportWork_1 : ∃ (n len m : Nat) (s : State) (q : Qp) (w : Wr), s.qp? n = some q ∧ q.st =
    .rts ∧ q.cached = true ∧ q.wrs = [w] ∧ w.started = false ∧ w.body = none ∧ wqeOk n w.w = true ∧ s.wqeLocal q
    w.w (!w.ring) = true ∧ wqOp w.w = 1 ∧ len = wq w.w 2 39 0 ∧ m = s.mtu q :=
  ⟨0, _, _, withQp { qp0 with wrs := [wr0] }, { qp0 with wrs := [wr0] }, wr0, by decide +kernel,
  by decide +kernel, by decide +kernel, by decide +kernel, by decide +kernel, by decide +kernel,
  by decide +kernel, by decide +kernel, by decide +kernel, rfl, rfl⟩

theorem witness_TransportWork_2 : ∃ (n : Nat) (s : State) (q : Qp) (w : Wr), s.qp? n = some q ∧ q.st = .rts ∧
    q.cached = true ∧ q.wrs = [w] ∧ q.dying = false ∧ w.started = false ∧ w.body = none ∧ wqeOk n w.w = true ∧
    s.wqeLocal q w.w (!w.ring) = true ∧ wqOp w.w = 0 ∧ w.w.getD 6 0 = 0 :=
  ⟨0, withQp { qp0 with wrs := [{ wr0 with w := [7 * 2 ^ 32 + 131072, 0, 0, 0, 0, 0, 0, 0] }] },
  { qp0 with wrs := [{ wr0 with w := [7 * 2 ^ 32 + 131072, 0, 0, 0, 0, 0, 0, 0] }] },
  { wr0 with w := [7 * 2 ^ 32 + 131072, 0, 0, 0, 0, 0, 0, 0] }, by decide +kernel, by decide +kernel,
  by decide +kernel, by decide +kernel, by decide +kernel, by decide +kernel, by decide +kernel,
  by decide +kernel, by decide +kernel, by decide +kernel, by decide +kernel⟩

theorem witness_TransportWork_3 : ∃ (n j off : Nat) (s : State) (q : Qp) (w : Wr) (p : Packet) (rest : List
    Packet) (bs : List Byte), s.qp? n = some q ∧ q.st = .rts ∧ q.cached = true ∧ s.nextPath q q.lastPath = some j ∧
    q.resp = [] ∧ q.wrs = [w] ∧ w.toSend = p :: rest ∧ q.unacked = [] ∧ p.typ = 1 ∧ w.body = none ∧ off = p.taddr -
    wq w.w 3 47 0 ∧ 0 < wq w.w 2 39 0 - off ∧ s.devRead (wq w.w 1 47 0 + off) (min (s.mtu q) (wq w.w 2 39 0 - off))
    = some bs :=
  ⟨0, 0, _, withQp
  { qp0 with wrs := [{ wr0 with started := true, toSend := [{ mkPkt 0 qp0 1 with taddr := 128 }] }] },
  { qp0 with wrs := [{ wr0 with started := true, toSend := [{ mkPkt 0 qp0 1 with taddr := 128 }] }] },
  { wr0 with started := true, toSend := [{ mkPkt 0 qp0 1 with taddr := 128 }] },
  { mkPkt 0 qp0 1 with taddr := 128 }, [], zeros 64, by decide +kernel, by decide +kernel, by decide +kernel,
  by decide +kernel, by decide +kernel, by decide +kernel, by decide +kernel, by decide +kernel,
  by decide +kernel, by decide +kernel, rfl, by decide +kernel, by decide +kernel⟩

theorem witness_TransportWork_4 : ∃ (n t0 i : Nat) (s : State) (q : Qp), s.qp? n = some q ∧ q.st = .rts ∧
    q.ackTick = some t0 ∧ t0 + 100 ≤ s.tick ∧ i = pathSub q (s.ctlPath q) ∧ (s.sub i).link = true :=
  ⟨0, 0, _, { withQp { qp0 with ackTick := some 0, newCnt := 1 } with tick := 100 },
  { qp0 with ackTick := some 0, newCnt := 1 }, by decide +kernel, by decide +kernel, by decide +kernel,
  by decide +kernel, rfl, by decide +kernel⟩

theorem witness_TransportWork_5 : ∃ (n j : Nat) (s : State) (q : Qp) (u : Unacked), s.qp? n = some q ∧ q.st =
    .rts ∧ q.unacked = [u] ∧ u.rto ≤ nsSince s.tick u.sentTick ∧ u.tries < s.retryLimit q ∧ q.strikes.contains
    u.path = false ∧ s.nextPath q u.path = some j :=
  ⟨0, 0, { withQp { qp0 with unacked := [un0] } with tick := 5000, cfg := [(regKey (.xp 0) 0, 0x07000000)] },
  { qp0 with unacked := [un0] }, un0, by decide +kernel, by decide +kernel, by decide +kernel,
  by decide +kernel, by decide +kernel, by decide +kernel, by decide +kernel⟩

theorem witness_TransportWork_6 : ∃ (n : Nat) (s : State) (q : Qp) (u : Unacked), s.qp? n = some q ∧ q.st =
    .rts ∧ q.unacked = [u] ∧ u.rto ≤ nsSince s.tick u.sentTick ∧ s.retryLimit q ≤ u.tries :=
  ⟨0,
  { withQp { qp0 with unacked := [{ un0 with tries := 7 }] } with tick := 5000, cfg := [(regKey (.xp 0) 0, 0x07000000)] },
  { qp0 with unacked := [{ un0 with tries := 7 }] }, { un0 with tries := 7 }, by decide +kernel,
  by decide +kernel, by decide +kernel, by decide +kernel, by decide +kernel⟩

theorem witness_TransportWork_7 : ∃ (n j : Nat) (s : State) (q : Qp), s.qp? n = some q ∧ q.st = .rts ∧ j <
    q.npath ∧ (s.pathDown q j = true ∨ q.unacked ≠ []) ∧ (∀ e ∈ q.probes, e.1 = j → e.2.2 + 10000 ≤ s.tick) :=
  ⟨0, 0, { withQp { qp0 with probes := [(0, 5, 0)], down := [0] } with tick := 10000 },
  { qp0 with probes := [(0, 5, 0)], down := [0] }, by decide +kernel, by decide +kernel, by decide +kernel,
  .inl (by decide +kernel), by decide +kernel⟩

theorem witness_TransportWork_8 : ∃ (n : Nat) (s : State) (q : Qp), s.qp? n = some q ∧ q.cached = false ∧
    s.cacheFull q.part = false ∧ s.xp.miss = [] :=
  ⟨0, withQp { qp0 with cached := false }, { qp0 with cached := false }, by decide +kernel, by decide +kernel,
  by decide +kernel, by decide +kernel⟩

theorem witness_TransportWork_9 : ∃ (n k : Nat) (s : State) (g : Trigger) (q : Qp), tabFind s.xp.triggers n =
    some g ∧ s.trigReady g = true ∧ (∀ e ∈ s.xp.triggers, e.1 < n → e.2.ctr = g.ctr → s.trigReady e.2 = false) ∧ k
    = wq g.w 7 47 32 ∧ s.qp? k = some q :=
  ⟨0, 0, { withQp qp0 with xp := { (withQp qp0).xp with triggers := [(0, trig0)] } }, trig0, qp0,
  by decide +kernel, by decide +kernel, by decide +kernel, by decide +kernel, by decide +kernel⟩

theorem witness_TransportWork_10 : ∃ (j peer rail n : Nat) (s : State) (x : Job) (q : Qp), s.job? j = some x ∧
    jobRuns x = true ∧ s.jobsRising ∧ (s.jobRails j).find? (fun r => r.1 = peer && r.2.1 = rail) = some (peer,
    rail, n) ∧ s.qp? n = some q ∧ q.job = j ∧ q.peer = peer ∧ tabGet x.startTick x.sentTick (peer * 16 + rail) +
    1000000 ≤ s.tick ∧ pathSub q (railPath q rail) = rail ∧ (s.sub rail).link = true :=
  ⟨0, 1, 0, 0, { withQp qp0 with tick := 1000000 }, { job0 with st := .running }, qp0, by decide +kernel,
  by decide +kernel, by unfold State.jobsRising; decide +kernel, by decide +kernel, by decide +kernel,
  by decide +kernel, by decide +kernel, by decide +kernel, by decide +kernel, by decide +kernel⟩

theorem witness_TransportWork_11 : ∃ (j peer : Nat) (s : State) (x : Job), s.job? j = some x ∧ jobRuns x = true
    ∧ (∃ e ∈ s.rtsQps j, e.2.peer = peer) ∧ max x.startTick (tabGet 0 x.heard peer) + s.rf (.xp j) 0x008 12 0 *
    100000 ≤ s.tick :=
  ⟨0, 1, { withQp qp0 with tick := 3000000, cfg := [(regKey (.xp 0) 8, 25)] }, { job0 with st := .running },
  by decide +kernel, by decide +kernel, ⟨(0, qp0), by decide +kernel, by decide +kernel⟩, by decide +kernel⟩

/-! ### Ports -/

/-- The module with one sub-port as given, enabled, its bay latched and lit. -/
def withSub (x : SubPort) : State :=
  { lit with subs := [(0, x)], bays := [(0, { present := true, latched := true, lit := true })], cfg := [(regKey (.sub 0) 0x800, 0x80002400), (regKey (.sub 0) 0x804, 64), (regKey (.sub 0) 0x80C, 0xFFFFFFFF), (regKey (.sub 0) 0x810, 0x00010002)] }
/-- A frame that passes every check. -/
def frame0 : Frame := { len := 100, fcsOk := true, tag := none, cast := 0, toMe := true, pfc := none, isTransport := true, ipv6 := true, ip4CsumOk := false, udpCsumZero := false, udpCsumOk := true, dscp := 8, ce := false, packet := some { version := 2, typ := 9, retx := false, rctrEn := false, path := 0, epoch := 0, dstQpn := 0, srcQpn := 0, psn := 0, msn := 0, msgPsn0 := 0, msgPkts := 1, rinc := 0, taddr := 0, rkey := 0, rctr := 0, txc := 0, payload := [] }, authentic := true }
/-- A frame that waits to be sent. -/
def txf0 : TxFrame := { len := 100, cls := 1 }

theorem witness_PortEvents_1 : ∃ (i : SubId) (s : State), (s.sub i.val).link = false ∧ s.subExists i.val = true
    ∧ s.subEnabled i.val = true ∧ (s.sub i.val).barred = false ∧ (s.bay (i.val / 4)).lit = true :=
  ⟨0, withSub {}, by decide +kernel, by decide +kernel, by decide +kernel, by decide +kernel,
  by decide +kernel⟩

theorem witness_PortEvents_2 : ∃ (i : SubId) (s : State), (s.sub i.val).link = true :=
  ⟨0, withSub { link := true }, by decide +kernel⟩

theorem witness_PortEvents_3 : ∃ (i : SubId) (lane : Fin 8) (s : State), (s.sub i.val).link = true :=
  ⟨0, 7, withSub { link := true }, by decide +kernel⟩

theorem witness_PortEvents_4 : ∃ (i : SubId) (s : State), s.subExists i.val = true :=
  ⟨14, lit, by decide +kernel⟩

theorem witness_PortEvents_5 : ∃ (i : SubId) (s : State), (s.sub i.val).link = true ∧ (s.sub
    i.val).degradedTick = none :=
  ⟨0, withSub { link := true }, by decide +kernel, by decide +kernel⟩

theorem witness_PortEvents_6 : ∃ (b : BayId) (s : State), (s.bay b.val).latched = true :=
  ⟨0, withSub { link := true }, by decide +kernel⟩

theorem witness_PortEvents_7 : ∃ (b : BayId) (genuine : Bool) (s : State), (s.bay b.val).latched = false :=
  ⟨3, false, lit, by decide +kernel⟩

theorem witness_PortEvents_8 : ∃ (b : BayId) (s : State), (s.bay b.val).present = true ∧ (s.bay b.val).faulted
    = false :=
  ⟨0, withSub { link := true }, by decide +kernel, by decide +kernel⟩

theorem witness_FrameMac_1 : ∃ (i : SubId) (s : State) (f : Frame) (p : Packet), (s.sub i.val).link = true ∧ 64
    ≤ f.len ∧ f.len ≤ s.rf (.sub i.val) 0x800 13 0 ∧ f.fcsOk = true ∧ f.pfc = none ∧ s.vlanOk i.val f = true ∧
    isTransportFrame f = true ∧ (f.ipv6 = true ∨ f.ip4CsumOk = true) ∧ (f.udpCsumZero = true → f.ipv6 = false) ∧
    (f.udpCsumZero = false → f.udpCsumOk = true) ∧ s.bufUsed i.val + f.len ≤ s.bufSize i.val ∧ f.packet = some p ∧
    p.version = 2 ∧ 1 ≤ p.typ ∧ p.typ ≤ 9 :=
  ⟨0, withSub { link := true }, frame0,
  { version := 2, typ := 9, retx := false, rctrEn := false, path := 0, epoch := 0, dstQpn := 0, srcQpn := 0, psn := 0, msn := 0, msgPsn0 := 0, msgPkts := 1, rinc := 0, taddr := 0, rkey := 0, rctr := 0, txc := 0, payload := [] },
  by decide +kernel, by decide +kernel, by decide +kernel, by decide +kernel, by decide +kernel,
  by decide +kernel, by decide +kernel, .inl rfl, by decide +kernel, by decide +kernel, by decide +kernel,
  by decide +kernel, by decide +kernel, by decide +kernel, by decide +kernel⟩

theorem witness_FrameMac_2 : ∃ (i : SubId) (s : State) (f : Frame), (s.sub i.val).link = true ∧ (f.len < 64 ∨
    f.fcsOk = false ∨ s.rf (.sub i.val) 0x800 13 0 < f.len ∨ (f.pfc = none ∧ (s.vlanOk i.val f = false ∨
    isTransportFrame f = false))) :=
  ⟨0, withSub { link := true }, { frame0 with len := 63 }, by decide +kernel, .inl (by decide +kernel)⟩

theorem witness_FrameMac_3 : ∃ (i : SubId) (s : State) (f : Frame) (en : BitVec 8) (q : List Nat), (s.sub
    i.val).link = true ∧ 64 ≤ f.len ∧ f.len ≤ s.rf (.sub i.val) 0x800 13 0 ∧ f.fcsOk = true ∧ f.pfc = some (en, q)
    :=
  ⟨0, withSub { link := true }, { frame0 with pfc := some (3, [5, 0]) }, 3, [5, 0], by decide +kernel,
  by decide +kernel, by decide +kernel, by decide +kernel, by decide +kernel⟩

theorem witness_FrameMac_4 : ∃ (i : SubId) (p : Fin 8) (s : State) (t0 : Nat), tabFind (s.sub i.val).paused
    p.val = some t0 :=
  ⟨0, 7, withSub { link := true, paused := [(7, 5000)] }, 5000, by decide +kernel⟩

theorem witness_FrameMac_5 : ∃ (i : SubId) (p : Fin 8) (s : State) (t0 q : Nat), tabFind (s.sub i.val).xoff
    p.val = some t0 ∧ (s.sub i.val).link = true ∧ q = s.rf (.sub i.val) 0x80C 31 16 ∧ (s.rf (.sub i.val) 0x80C 7
    0).testBit p.val = true ∧ s.rf (.sub i.val) 0x810 27 16 * 1024 ≤ s.bufOf i.val p.val ∧ t0 + s.quantaTicks i.val
    (q / 2) ≤ s.tick :=
  ⟨0, 7, { withSub { link := true, xoff := [(7, 0)], buf := [(7, 1024)] } with tick := 2098 }, 0, 65535,
  by decide +kernel, by decide +kernel, by decide +kernel, by decide +kernel, by decide +kernel,
  by decide +kernel⟩

theorem witness_FrameMac_6 : ∃ (i : SubId) (n : Nat) (s : State) (f : TxFrame) (rest : List TxFrame), (s.sub
    i.val).txQ = f :: rest ∧ s.txFree i.val f = true ∧ (s.sub i.val).link = true ∧ (s.sub i.val).tx = none ∧ min
    f.len (s.rf (.sub i.val) 0x804 13 0) ≤ n :=
  ⟨0, 64, withSub { link := true, txQ := [txf0] }, txf0, [], by decide +kernel, by decide +kernel,
  by decide +kernel, by decide +kernel, by decide +kernel⟩

theorem witness_FrameMac_7 : ∃ (i : SubId) (s : State) (f : TxFrame), (s.sub i.val).tx = some f ∧ (s.sub
    i.val).underrun = false ∧ s.rf (.sub i.val) 0x804 13 0 < f.len :=
  ⟨0, withSub { link := true, tx := some txf0 }, txf0, by decide +kernel, by decide +kernel, by decide +kernel⟩

theorem witness_FrameMac_8 : ∃ (i : SubId) (s : State) (f : TxFrame), (s.sub i.val).tx = some f ∧ (s.sub
    i.val).underrun = false :=
  ⟨0, withSub { link := true, tx := some txf0 }, txf0, by decide +kernel, by decide +kernel⟩

theorem witness_FrameMac_9 : ∃ (i : SubId) (s : State) (f : TxFrame), (s.sub i.val).tx = some f ∧ (s.sub
    i.val).underrun = true ∧ (∀ e ∈ s.pend, keyBlk e.1 ≠ blkNum (.sub i.val)) :=
  ⟨0, withSub { link := true, tx := some txf0, underrun := true }, txf0, by decide +kernel, by decide +kernel,
  by decide +kernel⟩

theorem witness_FrameMac_10 : ∃ (i : SubId) (tx : Bool) (s : State) (m v : Word), s.pend = [(regKey (.sub
    i.val) 0x804, (m, v))] ∧ m &&& 0x3FFF = m ∧ m ≠ 0 ∧ (s.sub i.val).rxVlan = none ∧ (s.sub i.val).tx = none :=
  ⟨0, true, { withSub { link := true } with pend := [(regKey (.sub 0) 0x804, (0x3FFF, 100))] }, 0x3FFF, 100,
  by decide +kernel, by decide +kernel, by decide +kernel, by decide +kernel, by decide +kernel⟩

/-! ### Bring-up -/

/-- The module with its link at full width, whose bring-up expects one step. -/
def bring (n : Nat) : State :=
  { State.reset with link := { up := true, width := 16, rate := 6 }, bu := { next := n }, power := { perst := false }, mem := { chanOk := 2 ^ 192 - 1, gen := 2 } }
/-- The entry of DL_REMOVE: a lane found by a training (R459). -/
def dle0 : Defect := mkDefect 3 6 1 [0, 1, 2]
/-- DL_REMOVE of that entry under key 7 (R464). -/
def rmArg : List Byte := dle0 ++ natLE 8 1 ++ natLE 4 7 ++ zeros 132
/-- The module with that entry and an enrolled key of every usage. -/
def rmState : State :=
  askArg { lit with sec := { keys := [⟨7, 255, 255, []⟩] }, defects := { list := [dle0] } } 0x0B10 [] rmArg
/-- The argument block is read back whole. -/
theorem rmState_arg : argOf rmState ((0 : MbId).val) = rmArg := by decide +kernel

theorem witness_BringupSteps_1 : ∃ (idOk bad0 bad1 : Bool) (s : State), s.buReady 1 :=
  ⟨true, false, true, bring 1, by unfold State.buReady; decide +kernel⟩

theorem witness_BringupSteps_2 : ∃ (o : LinkOutcome) (s : State), s.buReady 2 :=
  ⟨.ok, bring 2, by unfold State.buReady; decide +kernel⟩

theorem witness_BringupSteps_3 : ∃ (fab : BitVec 4) (s : State), s.buReady 3 :=
  ⟨8, bring 3, by unfold State.buReady; decide +kernel⟩

theorem witness_BringupSteps_4 : ∃ (g : BitVec 32) (d : BitVec 4) (s : State), s.buReady 4 :=
  ⟨0x80000000, 0, bring 4, by unfold State.buReady; decide +kernel⟩

theorem witness_BringupSteps_5 : ∃ (failed : List LaneLoc) (half : BitVec 4) (s : State), s.buReady 5 :=
  ⟨[⟨3, 11, 5⟩], 8, bring 5, by unfold State.buReady; decide +kernel⟩

theorem witness_BringupSteps_6 : ∃ (margins : List Nat) (s : State) (n : Nat), s.buReady 6 ∧ n = popcount
    (chanMask (fun c => 3 ≤ margins.getD c 0)) 192 :=
  ⟨List.replicate 191 3, bring 6, _, by unfold State.buReady; decide +kernel, rfl⟩

theorem witness_BringupSteps_7 : ∃ (mode : BitVec 4) (rows : List RowLoc) (s : State), s.buReady 7 :=
  ⟨2, [], bring 7, by unfold State.buReady; decide +kernel⟩

theorem witness_BringupSteps_8 : ∃ (fails : List (Nat × Nat)) (s : State), s.buReady 8 :=
  ⟨[(2303, 1)], bring 8, by unfold State.buReady; decide +kernel⟩

theorem witness_BringupSteps_9 : ∃ (s : State), s.buReady 9 :=
  ⟨bring 9, by unfold State.buReady; decide +kernel⟩

theorem witness_BringupSteps_10 : ∃ (fail : BitVec 8) (s : State) (down : Nat), s.buReady 10 ∧ down = ((upTo
    8).map (fun p => flagAt ((s.bay (p / 2)).latched && (s.bay (p / 2)).genuine && fail.getLsbD p) p)).foldl (· +
    ·) 0 :=
  ⟨255, bring 10, _, by unfold State.buReady; decide +kernel, rfl⟩

theorem witness_BringupSteps_11 : ∃ (ready : Bool) (s : State), s.buReady 11 :=
  ⟨true, bring 11, by unfold State.buReady; decide +kernel⟩

theorem witness_BringupSteps_12 : ∃ (o : LinkOutcome) (s : State), s.buReady 12 :=
  ⟨.ok, bring 12, by unfold State.buReady; decide +kernel⟩

theorem witness_BringupSteps_13 : ∃ (s : State), s.bu.result = 1 :=
  ⟨{ bring 3 with bu := { result := 1, step := 2 } }, by decide +kernel⟩

theorem witness_BringupSteps_14 : ∃ (s : State), s.bu.result = 1 ∧ (s.power.pwrbrk = false ∨ s.power.cp = true)
    ∧ s.bu.startTick + buBound s.bu.step * 100000000 < s.tick :=
  ⟨{ bring 3 with bu := { result := 1, step := 3 }, tick := 500000001 }, by decide +kernel, .inl rfl,
  by decide +kernel⟩

theorem witness_BringupSteps_15 : ∃ (c : Instr) (k : Nat) (s : State), (c, k) ∈ [(.powerHub true false false,
    1), (.loadFw .ok, 2), (.powerDies 0, 3), (.lockClocks 0 0, 4), (.trainSolder [] 0, 5), (.trainMemory [], 6),
    (.testMemory 0 [], 7), (.testCores [], 8), (.applyDefects, 9), (.startOptics 0, 10), (.startCp true, 11),
    (.attest .ok, 12)] ∧ s.link.up = true ∧ (s.bu.result = 1 ∨ s.bu.next ≠ k ∨ s.power.tripped = true ∨ s.power.v48
    = false) :=
  ⟨.attest .ok, 12, bring 3, by decide +kernel, by decide +kernel, .inr (.inl (by decide +kernel))⟩

theorem witness_DefectCommands_1 : ∃ (mb : MbId) (s q : State) (r : Req), s.front mb.val 0x0B01 1 true r ∧ q =
    s.takeReq mb.val ∧ r.w 0 % 64 = 0 ∧ q.outBad r (r.w 0) q.dlBytes.length = none :=
  ⟨0, ask lit 0x0B01 [0x40000], _, _, front_of (by decide +kernel), rfl, by decide +kernel, by decide +kernel⟩

theorem witness_DefectCommands_2
        (hs : serialBytes = zeros 16)
        (h : Config.ed448Verify [] (shake
    (rmArg.take 44)) ((rmArg.drop 44).take 114) = true) : ∃ (mb : MbId) (s : State) (r : Req) (a k : List Byte),
    s.frontArg mb.val 0x0B10 0 true r a ∧ a.length = 160 ∧ s.keyFor (leAt a 24 4) 3 none = some k ∧
    Config.ed448Verify k (shake (a.take 44)) ((a.drop 44).take 114) = true ∧ s.defects.removeSeq < leAt a 16 8 ∧
    (a.drop 28).take 16 = serialBytes ∧ (a.take 16) ∈ s.defects.list ∧ leAt a 0 1 ≠ 1 ∧ leAt a 1 1 ≠ 1 :=
  ⟨0, rmState, _, _, [], frontArg_of (by decide +kernel), by decide +kernel, by decide +kernel,
  (by rw [rmState_arg]; exact h), by decide +kernel, (by rw [hs]; decide +kernel), by decide +kernel,
  by decide +kernel, by decide +kernel⟩

theorem witness_DefectCommands_3 : ∃ (mb : MbId) (s : State) (r : Req) (a : List Byte), s.frontArg mb.val
    0x0B10 0 true r a ∧ a.length = 160 ∧ s.keyFor (leAt a 24 4) 3 none = none :=
  ⟨0, askArg lit 0x0B10 [] rmArg, _, _, frontArg_of (by decide +kernel), by decide +kernel, by decide +kernel⟩

theorem witness_DefectCommands_4 : ∃ (mb : MbId) (s : State) (r : Req) (c : Nat), s.front mb.val 0x0B20 1 false
    r ∧ c = bitsOf (r.w 0) 10 0 :=
  ⟨0, ask lit 0x0B20 [2047], _, _, front_of (by decide +kernel), rfl⟩

/-! ### Module -/

/-- The module with a retained region, running. -/
def warm0 : State :=
  { lit with mem := { lit.mem with regions := [(0, { base := 0x200000, len := 0x200000, part := some 0 })] } }
/-- The module in the state after a trip. -/
def tripped0 : State := { lit with power := { lit.power with tripped := true, therm := true } }

theorem witness_ModuleEvents_1 : ∃ (mv : Nat) (s : State), s.power.v48 = false ∧ 4200 ≤ mv ∧ mv ≤ 6000 ∧
    (s.power.overVolt = true → mv ≤ 5800) :=
  ⟨5900, { State.reset with power := { v48 := false } }, by decide +kernel, by decide +kernel,
  by decide +kernel, by decide +kernel⟩

theorem witness_ModuleEvents_2 : ∃ (mv : Nat) (s : State), (s.power.v48 = true ∨ mv < 4200 ∨ 6000 < mv ∨
    (s.power.overVolt = true ∧ 5800 < mv)) :=
  ⟨4199, { State.reset with power := { v48 := false } }, .inr (.inl (by decide +kernel))⟩

theorem witness_ModuleEvents_3 : ∃ (c : Instr) (ov : Bool) (s : State), (c, ov) ∈ [(.powerLoss, false),
    (.overvoltage, true)] :=
  ⟨.overvoltage, true, lit, by decide +kernel⟩

theorem witness_ModuleEvents_4 : ∃ (s : State), s.power.v48 = true ∧ s.power.tripped = false ∧ s.power.perst =
    false ∧ s.autoJobs = [] ∧ s.svcs = [] :=
  ⟨warm0, by decide +kernel, by decide +kernel, by decide +kernel, by decide +kernel, by decide +kernel⟩

theorem witness_ModuleEvents_5 : ∃ (s : State), s.power.v48 = true ∧ s.power.tripped = false ∧ s.power.perst =
    false ∧ (s.autoJobs ≠ [] ∨ s.svcs ≠ []) :=
  ⟨{ warm0 with svcs := [(63, svc0)] }, by decide +kernel, by decide +kernel, by decide +kernel, .inr
  (by decide +kernel)⟩

theorem witness_ModuleEvents_6 : ∃ (s : State), (s.power.v48 = false ∨ s.power.tripped = true ∨ s.power.perst =
    true) :=
  ⟨State.reset, .inr (.inr rfl)⟩

theorem witness_ModuleEvents_7 : ∃ (slot : Fin 8) (g1 : Bool) (s : State), s.power.v48 = true ∧ s.power.tripped
    = false ∧ s.power.perst = true ∧ s.power.linkOnly = false :=
  ⟨7, false, State.reset, by decide +kernel, by decide +kernel, by decide +kernel, by decide +kernel⟩

theorem witness_ModuleEvents_8 : ∃ (slot : Fin 8) (g1 : Bool) (s : State), s.power.v48 = true ∧ s.power.tripped
    = false ∧ s.power.perst = true ∧ s.power.linkOnly = true :=
  ⟨7, false, { State.reset with power := { linkOnly := true } }, by decide +kernel, by decide +kernel,
  by decide +kernel, by decide +kernel⟩

theorem witness_ModuleEvents_9 : ∃ (s : State), s.power.tripped = true ∧ (s.power.hub = true ∨ s.power.pdFab ≠
    0) :=
  ⟨tripped0, by decide +kernel, .inl rfl⟩

theorem witness_ModuleEvents_10 : ∃ (temp : Nat) (s : State), s.power.v48 = true :=
  ⟨281, lit, by decide +kernel⟩

theorem witness_SmbusReads_1 : ∃ (s : State), s.power.v48 = true :=
  ⟨State.reset, by decide +kernel⟩

theorem witness_SmbusReads_3 : ∃ (c : Instr) (s : State), c ∈ [.smbIdent, .smbStatus, .smbVin, .smbPin,
    .smbTjMax, .smbInlet, .smbAlertCause, .smbAlertResponse] ∧ s.power.v48 = false :=
  ⟨.smbIdent, { State.reset with power := { v48 := false } }, by decide +kernel, by decide +kernel⟩

/-! ### Tasks -/

/-- A task of job 0 of a kind, that any core may steal; its body words are given. -/
def tk (kind : Nat) (b : List Nat) : Task := { owner := .job 0, w := [kind + 3 * 2 ^ 7, 0, 0, 0, 0] ++ b }
/-- A job that runs, with one task in its list and one fetched. -/
def job1 : Job :=
  { job0 with st := .running, lists := [(0, 1)], walkers := [(0, { fetched := [tk 0 [0, 0, 0]] })], cplCount := 1, stallMs := 1 }
/-- The module whose cores are as given. -/
def withCores (x : Job) (l : Tab CoreS) : State := { withJob x with cores := l, tick := 300000000 }
/-- The module whose core 0 runs a task. -/
def onCore (t : Task) : State := withCores job1 [(0, { run := some { task := t, start := 0 } })]
/-- Its context. -/
def ctx0 : Ctx := ⟨0, 0, 0, false, none, []⟩
/-- The module whose core 0 hands over a ring shift of one member (R226). -/
def collTask : State :=
  { onCore (tk 7 [0x7000, 0, 0]) with
    devMem := ({} : Mem).writeL 0x7000 ([5, 64 * 2 ^ 24 + 12 * 2 ^ 16, 0x4000, 0x5000, 0x6000, 0, 3, 0].flatMap (natLE 8)) }
/-- The module whose core 0 has ended a task. -/
def ended (t : Task) (r : Result) : State := withCores job1 [(0, { run := some { task := t, start := 0, done := some r } })]

theorem witness_TaskEngine_1 : ∃ (j : Nat) (d : DieId) (s : State) (x : Job) (w : Walker) (l : Nat × Nat) (bs :
    List Byte), s.job? j = some x ∧ x.st = .running ∧ w = tabGet {} x.walkers d.val ∧ l = x.lists.getD d.val (0, 0)
    ∧ w.next < l.2 ∧ w.fetched.length < 1024 ∧ s.devRead (x.image + l.1 + 64 * w.next) 64 = some bs :=
  ⟨0, 0, withJob job1, job1, { fetched := [tk 0 [0, 0, 0]] }, (0, 1), zeros 64, by decide +kernel,
  by decide +kernel, by decide +kernel, by decide +kernel, by decide +kernel, by decide +kernel,
  by decide +kernel⟩

theorem witness_TaskEngine_2 : ∃ (j : Nat) (d : DieId) (s : State) (x : Job) (w : Walker) (k : Task) (rest :
    List Task), s.job? j = some x ∧ x.st = .running ∧ w = tabGet {} x.walkers d.val ∧ takeFirst (s.waitsOk x)
    w.fetched = some (k, rest) :=
  ⟨0, 0, withJob job1, job1, { fetched := [tk 0 [0, 0, 0]] }, tk 0 [0, 0, 0], [], by decide +kernel,
  by decide +kernel, by decide +kernel, by decide +kernel⟩

theorem witness_TaskEngine_3 : ∃ (c : CoreId) (s : State) (k : Task) (rest : List Task), (s.core c.val).svc =
    none ∧ s.coreIdle c.val = true ∧ popEntry (s.core c.val).deque = some (k, rest) :=
  ⟨0, withCores job1 [(0, { deque := [tk 0 [0, 0, 0]] })], tk 0 [0, 0, 0], [], by decide +kernel,
  by decide +kernel, by decide +kernel⟩

theorem witness_TaskEngine_4 : ∃ (c : CoreId) (s : State) (o v : Nat) (k : Task) (rest : List Task), (s.core
    c.val).svc = none ∧ s.coreIdle c.val = true ∧ (s.core c.val).deque = [] ∧ 1 ≤ o ∧ o ≤ 4 ∧ s.victim c.val o =
    some v ∧ (∀ p, 1 ≤ p → p < o → s.victim c.val p = none) ∧ takeLast (s.takeable c.val (min o 3)) (s.core
    v).deque = some (k, rest) :=
  ⟨0, withCores job1 [(1536, { deque := [tk 0 [0, 0, 0]] })], 4, 1536, tk 0 [0, 0, 0], [], by decide +kernel,
  by decide +kernel, by decide +kernel, by decide +kernel, by decide +kernel, by decide +kernel,
  fun p h1 h2 => by obtain rfl | rfl | rfl : p = 1 ∨ p = 2 ∨ p = 3 := (by omega) <;> decide +kernel,
  by decide +kernel⟩

theorem witness_TaskEngine_5 : ∃ (c : CoreId) (s : State) (run : Run) (r : Result) (j a : Nat) (x : Job) (k :
    Task), (s.core c.val).run = some run ∧ run.done = some r ∧ k = run.task ∧ k.owner = .job j ∧ k.sec = none ∧
    r.status = 0 ∧ s.job? j = some x ∧ x.st = .running ∧ x.named k = none ∧ a = x.cpl + 16 * bitsOf (k.word 3) 63
    48 ∧ badIn s.mem.badLines a 16 = none ∧ bitsOf (k.word 3) 63 48 < x.cplCount :=
  ⟨0, ended (tk 0 [0, 0, 0]) {}, { task := tk 0 [0, 0, 0], start := 0, done := some {} }, {}, 0, 0, job1, tk 0
  [0, 0, 0], by decide +kernel, by decide +kernel, by decide +kernel, by decide +kernel, by decide +kernel,
  by decide +kernel, by decide +kernel, by decide +kernel, by decide +kernel, by decide +kernel,
  by decide +kernel, by decide +kernel⟩

theorem witness_TaskEngine_6 : ∃ (c : CoreId) (s : State) (run : Run) (r : Result) (j : Nat) (x : Job),
    s.jobsRising ∧ (s.core c.val).run = some run ∧ run.done = some r ∧ run.task.owner = .job j ∧ run.task.sec =
    none ∧ r.status ≠ 0 ∧ s.job? j = some x ∧ jobRuns x = true :=
  ⟨0, ended (tk 0 [0, 0, 0]) { status := 2 },
  { task := tk 0 [0, 0, 0], start := 0, done := some { status := 2 } }, { status := 2 }, 0, job1,
  by unfold State.jobsRising; decide +kernel, by decide +kernel, by decide +kernel, by decide +kernel,
  by decide +kernel, by decide +kernel, by decide +kernel, by decide +kernel⟩

theorem witness_TaskEngine_7 : ∃ (c : CoreId) (s : State) (run : Run) (r : Result) (k : Nat) (v : Svc), (s.core
    c.val).run = some run ∧ run.done = some r ∧ run.task.owner = .svc k ∧ r.status = 0 ∧ s.svc? k = some v ∧ v.ph =
    .run ∧ 1 < v.tasksLeft :=
  ⟨8,
  { withSvc { svcIn .run with tasksLeft := 2 } with cores := [(8, { run := some { task := { owner := .svc 63, w := [9] }, start := 0, done := some {} } })] },
  { task := { owner := .svc 63, w := [9] }, start := 0, done := some {} }, {}, 63,
  { svcIn .run with tasksLeft := 2 }, by decide +kernel, by decide +kernel, by decide +kernel,
  by decide +kernel, by decide +kernel, by decide +kernel, by decide +kernel⟩

theorem witness_TaskEngine_8 : ∃ (c : CoreId) (s : State) (run : Run) (j : Nat) (x : Job), s.jobsRising ∧
    (s.core c.val).run = some run ∧ run.done = none ∧ run.start + second < s.tick ∧ run.task.owner = .job j ∧
    run.task.sec = none ∧ s.job? j = some x ∧ jobRuns x = true :=
  ⟨0, onCore (tk 0 [0, 0, 0]), { task := tk 0 [0, 0, 0], start := 0 }, 0, job1,
  by unfold State.jobsRising; decide +kernel, by decide +kernel, by decide +kernel, by decide +kernel,
  by decide +kernel, by decide +kernel, by decide +kernel, by decide +kernel⟩

theorem witness_TaskEngine_9 : ∃ (c : CoreId) (s : State) (run : Run), (s.core c.val).run = some run ∧ s.tick ≤
    run.start + second :=
  ⟨0, { onCore (tk 0 [0, 0, 0]) with tick := 100000000 }, { task := tk 0 [0, 0, 0], start := 0 },
  by decide +kernel, by decide +kernel⟩

theorem witness_TaskEngine_10 : ∃ (j : Nat) (s : State) (x : Job), s.job? j = some x ∧ x.st = .running ∧
    x.stallMs ≠ 0 ∧ x.unreleased = true ∧ s.jobBusy j x = false :=
  ⟨0, { withJob job1 with tick := 100000 }, job1, by decide +kernel, by decide +kernel, by decide +kernel,
  by decide +kernel, by decide +kernel⟩

theorem witness_TaskKinds_1 : ∃ (mk : CoreId → Instr) (k : Nat) (work : State → Ctx → Task → TRes (State ×
    NumStat)) (c : CoreId) (s : State) (x : Ctx) (t : Task), (mk, k, work) ∈ ([(.taskGemm, 0, State.gemmTask),
    (.taskGemmT, 1, State.gemmTask), (.taskGemmWg, 2, State.gemmTask), (.taskVec, 3, vecTaskRun), (.taskLoad, 4,
    loadTask), (.taskStore, 5, storeTask), (.taskGather, 6, gatherTask), (.taskSvc, 9, svcTaskRun)] : List ((CoreId
    → Instr) × Nat × (State → Ctx → Task → TRes (State × NumStat)))) ∧ s.running c.val = some (x, t) ∧ t.kind = k ∧
    t.sec = none :=
  ⟨.taskSvc, 9, svcTaskRun, 0, onCore (tk 9 [0, 0, 0]), ctx0, tk 9 [0, 0, 0], by simp, by decide +kernel,
  by decide +kernel, by decide +kernel⟩

theorem witness_TaskKinds_2 : ∃ (c : CoreId) (s : State) (x : Ctx) (t : Task) (m : Move) (bs : List Byte),
    s.running c.val = some (x, t) ∧ t.kind = 4 ∧ t.sec = none ∧ m = t.moveBody ∧ m.ok t = true ∧ s.wRead x m.dev 0
    m.len = .ok bs :=
  ⟨0, onCore (tk 4 [0x4000, 64 * 2 ^ 20, 0]), ctx0, tk 4 [0x4000, 64 * 2 ^ 20, 0], _, zeros 64,
  by decide +kernel, by decide +kernel, by decide +kernel, rfl, by decide +kernel, ok_eq [] (by decide +kernel)
  (by decide +kernel)⟩

theorem witness_TaskKinds_3 : ∃ (c : CoreId) (s : State) (x : Ctx) (t : Task) (m : Move) (a : Nat), s.running
    c.val = some (x, t) ∧ t.kind = 5 ∧ t.sec = none ∧ m = t.moveBody ∧ m.ok t = true ∧ ctxAddr x m.dev = (false, a)
    ∧ s.tSpan x a m.len true = .ok () :=
  ⟨0, onCore (tk 5 [0x4000, 64 * 2 ^ 20, 0]), ctx0, tk 5 [0x4000, 64 * 2 ^ 20, 0], _, 0x4000,
  by decide +kernel, by decide +kernel, by decide +kernel, rfl, by decide +kernel, by decide +kernel, ok_eq ()
  (by decide +kernel) (by decide +kernel)⟩

theorem witness_TaskKinds_4 : ∃ (mk : CoreId → Instr) (c : CoreId) (s : State) (x : Ctx) (t : Task), mk ∈
    ([.taskLoad, .taskStore, .taskGather] : List (CoreId → Instr)) ∧ s.running c.val = some (x, t) ∧ t.sec = none ∧
    (mk = .taskLoad → t.kind = 4) ∧ (mk = .taskStore → t.kind = 5) ∧ (mk = .taskGather → t.kind = 6) ∧
    t.moveBody.ok t = false :=
  ⟨.taskLoad, 0, onCore (tk 4 [0x4000, 0, 0]), ctx0, tk 4 [0x4000, 0, 0], by simp, by decide +kernel,
  by decide +kernel, fun _ => by decide +kernel, fun h => absurd (congrFun h 0) (by decide),
  fun h => absurd (congrFun h 0) (by decide), by decide +kernel⟩

theorem witness_TaskKinds_5 : ∃ (c : CoreId) (s s1 : State) (x : Ctx) (t : Task) (j : Nat) (bs : List Byte) (y
    : Job), s.running c.val = some (x, t) ∧ t.owner = .job j ∧ t.kind = 7 ∧ t.sec = none ∧ t.word 6 = 0 ∧ t.word 7
    = 0 ∧ s.wRead x (t.word 5) 48 8 = .ok bs ∧ s.job? j = some y ∧ tabFind y.colls (leNat bs) = none ∧ s.handOff x
    j (t.word 5) 0 false = .ok s1 :=
  ⟨0, collTask, okD lit (collTask.handOff ctx0 0 0x7000 0 false), ctx0, tk 7 [0x7000, 0, 0], 0, natLE 8 3,
  job1, by decide +kernel, by decide +kernel, by decide +kernel, by decide +kernel, by decide +kernel,
  by decide +kernel, ok_eq [] (by decide +kernel) (by decide +kernel), by decide +kernel, by decide +kernel,
  ok_of lit (by decide +kernel)⟩

theorem witness_TaskKinds_6 : ∃ (c : CoreId) (s : State) (x : Ctx) (t : Task) (j : Nat), s.running c.val = some
    (x, t) ∧ t.owner = .job j ∧ t.kind = 7 ∧ t.sec = none ∧ (t.word 6 ≠ 0 ∨ t.word 7 ≠ 0) :=
  ⟨0, onCore (tk 7 [0, 0, 1]), ctx0, tk 7 [0, 0, 1], 0, by decide +kernel, by decide +kernel,
  by decide +kernel, by decide +kernel, by decide +kernel⟩

/-! ### Vector unit -/

/-- Vector registers 0 to 3 hold numbers; the address registers point to the local store. -/
def vctx0 : VecCtx :=
  { z := (List.range 256).map (fun i => (i, BitVec.ofNat 32 (i + 1))), a := List.replicate 16 (2 ^ 63, 64) }
/-- A VEC task of four accumulator rows. -/
def vtask : Task := tk 3 [0, 0, 4 * 2 ^ 37 + 1]
/-- Core 0 runs that task and its program has begun. -/
def vecState : State := withCores job1 [(0, { run := some { task := vtask, start := 0 }, vec := vctx0 })]
/-- How far it has got. -/
def vrun0 : VecRun := ⟨ctx0, vtask.vecBody, vctx0, {}⟩
theorem vec0_at : vecState.vecAt ((0 : CoreId).val) vrun0 :=
  ⟨ctx0, vtask, by decide +kernel, by decide +kernel, by decide +kernel, rfl⟩

theorem witness_VectorRows_1 : ∃ (mk : CoreId → VecFields → Instr) (op : Nat) (c : CoreId) (f : VecFields) (s :
    State) (r : VecRun), (mk, op) ∈ ([(.vecAdd, 0x08), (.vecSub, 0x09), (.vecMul, 0x0A), (.vecFma, 0x0B), (.vecDiv,
    0x0C), (.vecMax, 0x0D), (.vecMin, 0x0E), (.vecAbs, 0x0F), (.vecSqrt, 0x10), (.vecRsqrt, 0x11), (.vecExp, 0x12),
    (.vecLog, 0x13), (.vecTanh, 0x14), (.vecSigmoid, 0x15), (.vecErf, 0x16)] : List ((CoreId → VecFields → Instr) ×
    Nat)) ∧ s.vecAt c.val r ∧ f.typ.val ≠ 3 :=
  ⟨.vecAdd, 0x08, 0, ⟨4, 0, 1, 2, 1, 0⟩, vecState, vrun0, by simp, vec0_at, by decide +kernel⟩

theorem witness_VectorRows_2 : ∃ (mk : CoreId → VecFields → Instr) (op : Nat) (c : CoreId) (f : VecFields) (s :
    State) (r : VecRun) (l : Nat) (a b : Word) (x : Int), (mk, op) ∈ ([(.vecAdd, 0x08), (.vecSub, 0x09), (.vecMul,
    0x0A)] : List ((CoreId → VecFields → Instr) × Nat)) ∧ s.vecAt c.val r ∧ f.typ.val = 2 ∧ l < 64 ∧ a = r.v.get
    f.za.val l ∧ b = r.v.get f.zb.val l ∧ x = (if op = 0x08 then a.toInt + b.toInt else if op = 0x09 then a.toInt -
    b.toInt else a.toInt * b.toInt) ∧ -2147483648 ≤ x ∧ x ≤ 2147483647 :=
  ⟨.vecSub, 0x09, 0, ⟨4, 0, 1, 2, 2, 0⟩, vecState, vrun0, 63, _, _, _, by simp, vec0_at, by decide +kernel,
  by decide +kernel, rfl, rfl, rfl, by decide +kernel, by decide +kernel⟩

theorem witness_VectorRows_3 : ∃ (c : CoreId) (f : VecFields) (s : State) (r : VecRun), s.vecAt c.val r ∧
    f.typ.val ≠ 3 :=
  ⟨0, ⟨4, 0, 1, 2, 0, 0⟩, vecState, vrun0, vec0_at, by decide +kernel⟩

theorem witness_VectorRows_4 : ∃ (c : CoreId) (f : VecFields) (s : State) (r : VecRun) (n : Nat) (p : Bool ×
    Nat) (bs : List Byte), s.vecAt c.val r ∧ f.typ.val ≠ 3 ∧ n = f.imm.toNat / 2 ^ 24 + 1 ∧ n ≤ 64 ∧ r.target s
    (f.zb.val % 16) (immOff f.imm) = .ok p ∧ s.tRead r.x p.1 p.2 (4 * n) = .ok bs :=
  ⟨0, ⟨4, 0, 1, 2, 0, 63 * 2 ^ 24⟩, vecState, vrun0, _, (true, 0), zeros 256, vec0_at, by decide +kernel, rfl,
  by decide +kernel, ok_eq (false, 0) (by decide +kernel) (by decide +kernel), ok_eq [] (by decide +kernel)
  (by decide +kernel)⟩

theorem witness_VectorRows_5 : ∃ (c : CoreId) (f : VecFields) (s : State) (r : VecRun) (n a : Nat), s.vecAt
    c.val r ∧ f.typ.val ≠ 3 ∧ n = f.imm.toNat / 2 ^ 24 + 1 ∧ n ≤ 64 ∧ r.target s (f.zb.val % 16) (immOff f.imm) =
    .ok (true, a) ∧ a + 4 * n ≤ stageBase :=
  ⟨0, ⟨4, 0, 1, 2, 0, 63 * 2 ^ 24⟩, vecState, vrun0, _, 0, vec0_at, by decide +kernel, rfl, by decide +kernel,
  ok_eq (false, 0) (by decide +kernel) (by decide +kernel), by decide +kernel⟩

theorem witness_VectorRows_6 : ∃ (c : CoreId) (f : VecFields) (s : State) (r : VecRun) (row e : Nat), s.vecAt
    c.val r ∧ f.typ.val ≠ 3 ∧ row = f.imm.toNat % 512 ∧ e = bitsOf f.imm.toNat 15 9 ∧ row < r.b.accRows ∧ e ≤ 16 :=
  ⟨0, ⟨4, 0, 1, 2, 0, 16 * 512 + 3⟩, vecState, vrun0, _, _, vec0_at, by decide +kernel, rfl, rfl,
  by decide +kernel, by decide +kernel⟩

theorem witness_VectorRows_7 : ∃ (c : CoreId) (f : VecFields) (s : State) (r : VecRun) (p : Bool × Nat) (bs :
    List Byte), s.vecAt c.val r ∧ f.typ.val ≠ 3 ∧ r.target s (f.zb.val % 16) (immOff f.imm) = .ok p ∧ s.tRead r.x
    p.1 p.2 4 = .ok bs :=
  ⟨0, ⟨4, 0, 1, 2, 0, 0⟩, vecState, vrun0, (true, 0), zeros 4, vec0_at, by decide +kernel, ok_eq (false, 0)
  (by decide +kernel) (by decide +kernel), ok_eq [] (by decide +kernel) (by decide +kernel)⟩

theorem witness_VectorRows_8 : ∃ (c : CoreId) (f : VecFields) (s : State) (r : VecRun), s.vecAt c.val r ∧
    f.typ.val ≠ 3 :=
  ⟨0, ⟨4, 0, 1, 2, 1, 5⟩, vecState, vrun0, vec0_at, by decide +kernel⟩

theorem witness_VectorRows_9 : ∃ (c : CoreId) (f : VecFields) (s : State) (r : VecRun) (la lb : List Word),
    s.vecAt c.val r ∧ f.typ.val ≠ 3 ∧ la = lanes f.typ.val (r.v.reg f.za.val) ∧ lb = lanes f.typ.val (r.v.reg
    f.zb.val) :=
  ⟨0, ⟨4, 0, 1, 2, 2, 0⟩, vecState, vrun0, _, _, vec0_at, by decide +kernel, rfl, rfl⟩

theorem witness_VectorRows_10 : ∃ (mk : CoreId → VecFields → Instr) (op : Nat) (c : CoreId) (f : VecFields) (s
    : State) (r : VecRun) (la : List Word), (mk, op) ∈ ([(.vecRsum, 0x08), (.vecRmax, 0x0D)] : List ((CoreId →
    VecFields → Instr) × Nat)) ∧ s.vecAt c.val r ∧ f.typ.val ≠ 3 ∧ la = lanes f.typ.val (r.v.reg f.za.val) :=
  ⟨.vecRsum, 0x08, 0, ⟨4, 0, 1, 2, 2, 0⟩, vecState, vrun0, _, by simp, vec0_at, by decide +kernel, rfl⟩

theorem witness_VectorRows_11 : ∃ (c : CoreId) (f : VecFields) (s : State) (r : VecRun), s.vecAt c.val r ∧
    (f.typ.val = 0 ∨ f.typ.val = 2) :=
  ⟨0, ⟨4, 0, 1, 2, 2, 11⟩, vecState, vrun0, vec0_at, .inr (by decide +kernel)⟩

theorem witness_VectorRows_12 : ∃ (c : CoreId) (f : VecFields) (s s1 s2 : State) (r : VecRun) (vs : List Word)
    (p q : Bool × Nat) (o : List Byte × List Byte × NumStat), s.vecAt c.val r ∧ f.typ.val = 0 ∧ isMx (f.imm.toNat %
    16) = true ∧ vs = r.v.reg f.za.val ∧ o = mxLine (f.imm.toNat % 16) (blocks32 vs) r.n ∧ r.target s (f.zb.val %
    16) 0 = .ok p ∧ r.target s (f.zc.val % 16) 0 = .ok q ∧ s.tWrite r.x p.1 p.2 o.1 = .ok s1 ∧ s1.tWrite r.x q.1
    q.2 o.2.1 = .ok s2 :=
  ⟨0, ⟨4, 0, 1, 2, 0, 5⟩, vecState, _, _, vrun0, _, (true, 0), (true, 0), _, vec0_at, by decide +kernel,
  by decide +kernel, rfl, rfl, ok_eq (false, 0) (by decide +kernel) (by decide +kernel), ok_eq (false, 0)
  (by decide +kernel) (by decide +kernel), ok_of lit (by decide +kernel), ok_of lit (by decide +kernel)⟩

theorem witness_VectorRows_13 : ∃ (c : CoreId) (f : VecFields) (s : State) (r : VecRun), s.vecAt c.val r ∧
    f.typ.val ≠ 3 ∧ isMx (f.imm.toNat % 16) = false :=
  ⟨0, ⟨4, 0, 1, 2, 0, 15⟩, vecState, vrun0, vec0_at, by decide +kernel, by decide +kernel⟩

theorem witness_VectorRows_14 : ∃ (c : CoreId) (f : VecFields) (s s1 : State) (r : VecRun) (p : Bool × Nat) (bs
    : List Byte) (m : Word), s.vecAt c.val r ∧ f.typ.val = 0 ∧ r.target s (f.zb.val % 16) (immOff f.imm) = .ok p ∧
    s.tRead r.x p.1 p.2 4 = .ok bs ∧ amaxOf (r.v.reg f.za.val) = some m ∧ s.tWrite r.x p.1 p.2 (natLE 4 (amaxMerge
    (BitVec.ofNat 32 (leAt bs 0 4)) (some m)).toNat) = .ok s1 :=
  ⟨0, ⟨4, 0, 1, 2, 0, 0⟩, vecState, _, vrun0, (true, 0), zeros 4, _, vec0_at, by decide +kernel, ok_eq (false,
  0) (by decide +kernel) (by decide +kernel), ok_eq [] (by decide +kernel) (by decide +kernel), some_of 0
  (by decide +kernel), ok_of lit (by decide +kernel)⟩

theorem witness_VectorRows_15 : ∃ (c : CoreId) (f : VecFields) (s : State) (r : VecRun), s.vecAt c.val r ∧
    f.typ.val ≠ 3 :=
  ⟨0, ⟨4, 0, 1, 2, 0, 0⟩, vecState, vrun0, vec0_at, by decide +kernel⟩

theorem witness_VectorRows_16 : ∃ (mk : CoreId → VecFields → Instr) (c : CoreId) (f : VecFields) (s : State) (r
    : VecRun), mk ∈ ([.vecNop, .vecLd, .vecSt, .vecLdacc, .vecBcast, .vecMovi, .vecAdd, .vecSub, .vecMul, .vecFma,
    .vecDiv, .vecMax, .vecMin, .vecAbs, .vecSqrt, .vecRsqrt, .vecExp, .vecLog, .vecTanh, .vecSigmoid, .vecErf,
    .vecCmplt, .vecSel, .vecRsum, .vecRmax, .vecCvt, .vecQmx, .vecAmax, .vecEnd] : List (CoreId → VecFields →
    Instr)) ∧ s.vecAt c.val r ∧ f.typ.val = 3 :=
  ⟨.vecEnd, 0, ⟨4, 0, 1, 2, 3, 0⟩, vecState, vrun0, by simp, vec0_at, by decide +kernel⟩

/-! ### Updates -/

/-- An update of layer 5 on core 0 of one section, with its record at 0x3000 and its program at 0x2000. -/
def upd0 : Upd :=
  { core := 0, record := 0x3000, prog := 0x2000, sections := 1, toPush := 0, outstanding := 1, t := 1, task := tk 8 [0x2000, 5, 0x3000] }
/-- A job with that update. -/
def jobU (u : Upd) : Job := { job1 with layers := [layer5], range := { seq := 1 }, upds := [(5, u)] }
/-- The record: one section of two FP32 elements (R179). -/
def rec0 : List Byte :=
  natLE 2 5 ++ natLE 2 1 ++ zeros 12 ++ natLE 8 0x3800 ++ zeros 40 ++ natLE 4 1 ++ natLE 4 2 ++ natLE 1 11 ++ zeros 15 ++
  [0x4000, 0x4100, 0x4200, 0x4300, 0x4400, 0x4500, 0x4600].flatMap (natLE 8) ++ zeros 48
/-- A program of one END (R182). -/
def prog0 : List Byte := zeros 6 ++ natLE 2 1 ++ zeros 56 ++ natLE 8 (0x3F * 2 ^ 56)
/-- Core 0 works on the section, or has not begun it. -/
def secState (u : UpdCtx) : State :=
  { withCores (jobU upd0) [(0, { run := some { task := sectionOf upd0 5 0, start := 0 }, upd := u })] with
    devMem := (({} : Mem).writeL 0x2000 prog0).writeL 0x3000 rec0 }
/-- Its registers: block register 0 holds ones. -/
def uctx0 : UpdCtx := { on := true, v := [(0, List.replicate 1024 0x3F800000)], p := List.replicate 32 0 }
/-- Some section run. -/
def anyRun : SecRun := ⟨ctx0, ⟨0, 0, 0, false, [], 0, [], 0, 0, 0, 0, []⟩, {}, 0, 0, 0, 0, false⟩
/-- How far the section has got. -/
def secRun0 : SecRun := (okD (lit, anyRun) ((secState uctx0).secRun ctx0 0 5 0)).2
theorem sec0_at : (secState uctx0).secAt ((0 : CoreId).val) secRun0 :=
  ⟨ctx0, 0, 5, 0, by decide +kernel, by decide +kernel, ok_eq (lit, anyRun) (by decide +kernel) (Prod.ext (by decide +kernel) rfl)⟩
/-- Core 0 runs the UPD task of layer 5. -/
def updTask : State := withCores { jobU upd0 with upds := [] } [(0, { run := some { task := upd0.task, start := 0 } })]

theorem witness_UpdateRows_1 : ∃ (mk : CoreId → UpdFields → Instr) (op : Nat) (c : CoreId) (f : UpdFields) (s :
    State) (r : SecRun), (mk, op) ∈ ([(.updAdd, 0x08), (.updSub, 0x09), (.updMul, 0x0A), (.updFma, 0x0B), (.updDiv,
    0x0C), (.updSqrt, 0x0D), (.updRsqrt, 0x0E), (.updAbs, 0x0F), (.updSign, 0x10), (.updMax, 0x11), (.updMin,
    0x12), (.updClamp, 0x13), (.updSel, 0x14), (.updExp, 0x15), (.updLog, 0x16)] : List ((CoreId → UpdFields →
    Instr) × Nat)) ∧ s.secAt c.val r ∧ updOk op f = true :=
  ⟨.updAdd, 0x08, 0, ⟨1, 0, 0, 0, 0⟩, secState uctx0, secRun0, by simp, sec0_at, by decide +kernel⟩

theorem witness_UpdateRows_2 : ∃ (c : CoreId) (f : UpdFields) (s : State) (r : SecRun), s.secAt c.val r ∧ updOk
    0x17 f = true :=
  ⟨0, ⟨1, 0, 0, 0, 6⟩, secState uctx0, secRun0, sec0_at, by decide +kernel⟩

theorem witness_UpdateRows_3 : ∃ (c : CoreId) (f : UpdFields) (s : State) (r : SecRun), s.secAt c.val r ∧ updOk
    0x00 f = true :=
  ⟨0, ⟨0, 0, 0, 0, 0⟩, secState uctx0, secRun0, sec0_at, by decide +kernel⟩

theorem witness_UpdateRows_4 : ∃ (c : CoreId) (f : UpdFields) (s : State) (r : SecRun) (bs : List Byte),
    s.secAt c.val r ∧ updOk 0x01 f = true ∧ s.wRead r.x (r.sec.plane (f.imm.toNat % 16)) (4096 * r.u.block) (4 *
    r.count) = .ok bs :=
  ⟨0, ⟨15, 0, 0, 0, 0⟩, secState uctx0, secRun0, zeros 8, sec0_at, by decide +kernel, ok_eq []
  (by decide +kernel) (by decide +kernel)⟩

theorem witness_UpdateRows_5 : ∃ (c : CoreId) (f : UpdFields) (s s1 : State) (r : SecRun) (code : Nat) (vs :
    List Word), s.secAt c.val r ∧ updOk 0x02 f = true ∧ code = f.imm.toNat % 16 ∧ code ≠ 7 ∧ vs = (r.src f
    f.a.val).take r.count ∧ s.wWrite r.x (r.sec.plane code) (4096 * r.u.block) (vs.flatMap (fun v => natLE 4
    v.toNat)) = .ok s1 :=
  ⟨0, ⟨0, 0, 0, 0, 6⟩, secState uctx0, _, secRun0, _, _, sec0_at, by decide +kernel, rfl, by decide +kernel,
  rfl, ok_of lit (by decide +kernel)⟩

theorem witness_UpdateRows_6 : ∃ (c : CoreId) (f : UpdFields) (s s1 : State) (r : SecRun) (vs : List Word),
    s.secAt c.val r ∧ updOk 0x02 f = true ∧ f.imm.toNat % 16 = 7 ∧ vs = (r.src f f.a.val).take r.count ∧
    (r.sec.cParts r.u.block vs).foldlM (fun st p => st.tWrite r.x false (r.dst + p.1) p.2) s = .ok s1 :=
  ⟨0, ⟨0, 0, 0, 0, 7⟩, secState uctx0, _, secRun0, _, sec0_at, by decide +kernel, by decide +kernel, rfl, ok_of
  lit (by decide +kernel)⟩

theorem witness_UpdateRows_7 : ∃ (mk : CoreId → UpdFields → Instr) (op : Nat) (c : CoreId) (f : UpdFields) (s :
    State) (r : SecRun) (acc : Word), (mk, op) ∈ ([(.updSumsq, 0x20), (.updNorm2, 0x21)] : List ((CoreId →
    UpdFields → Instr) × Nat)) ∧ s.secAt c.val r ∧ updOk op f = true ∧ acc = add32 r.u.acc (sumSq ((r.src f
    f.a.val).take r.count)) :=
  ⟨.updNorm2, 0x21, 0, ⟨47, 0, 0, 0, 0⟩, secState uctx0, secRun0, _, by simp, sec0_at, by decide +kernel, rfl⟩

theorem witness_UpdateRows_8 : ∃ (mk : CoreId → UpdFields → Instr) (op : Nat) (c : CoreId) (f : UpdFields) (s :
    State) (r : SecRun) (dst : Nat), (mk, op) ∈ ([(.mstepGram, 0x30), (.mstepOrth, 0x31), (.mstepInv, 0x32),
    (.mstepIroot, 0x33)] : List ((CoreId → UpdFields → Instr) × Nat)) ∧ s.secAt c.val r ∧ updOk op f = true ∧ dst =
    bitsOf f.imm.toNat 7 4 :=
  ⟨.mstepGram, 0x30, 0, ⟨0, 0, 0, 0, 0x80⟩, secState uctx0, secRun0, _, by simp, sec0_at, by decide +kernel,
  rfl⟩

theorem witness_UpdateRows_9 : ∃ (c : CoreId) (f : UpdFields) (s : State) (r : SecRun), s.secAt c.val r ∧ updOk
    0x3F f = true :=
  ⟨0, ⟨0, 0, 0, 0, 0⟩, secState uctx0, secRun0, sec0_at, by decide +kernel⟩

theorem witness_UpdateRows_10 : ∃ (mk : CoreId → UpdFields → Instr) (op : Nat) (c : CoreId) (f : UpdFields) (s
    : State) (r : SecRun), (mk, op) ∈ ([(.updNop, 0x00), (.updLd, 0x01), (.updSt, 0x02), (.updAdd, 0x08), (.updSub,
    0x09), (.updMul, 0x0A), (.updFma, 0x0B), (.updDiv, 0x0C), (.updSqrt, 0x0D), (.updRsqrt, 0x0E), (.updAbs, 0x0F),
    (.updSign, 0x10), (.updMax, 0x11), (.updMin, 0x12), (.updClamp, 0x13), (.updSel, 0x14), (.updExp, 0x15),
    (.updLog, 0x16), (.updCvt, 0x17), (.updSumsq, 0x20), (.updNorm2, 0x21), (.mstepGram, 0x30), (.mstepOrth, 0x31),
    (.mstepInv, 0x32), (.mstepIroot, 0x33), (.updEnd, 0x3F)] : List ((CoreId → UpdFields → Instr) × Nat)) ∧ s.secAt
    c.val r ∧ updOk op f = false :=
  ⟨.updAdd, 0x08, 0, ⟨16, 0, 0, 0, 0⟩, secState uctx0, secRun0, by simp, sec0_at, by decide +kernel⟩

theorem witness_UpdateLife_1 : ∃ (c : CoreId) (s : State) (x : Ctx) (k : Task) (j : Nat) (y : Job) (l : Layer),
    s.running c.val = some (x, k) ∧ k.owner = .job j ∧ k.kind = 8 ∧ k.sec = none ∧ s.job? j = some y ∧ jobRuns y =
    true ∧ y.layer? k.updLayer = some l :=
  ⟨0, updTask, ctx0, upd0.task, 0, { jobU upd0 with upds := [] }, layer5, by decide +kernel, by decide +kernel,
  by decide +kernel, by decide +kernel, by decide +kernel, by decide +kernel, by decide +kernel⟩

theorem witness_UpdateLife_2 : ∃ (c : CoreId) (s s1 : State) (x : Ctx) (j l i : Nat) (q : SecRun), s.onSection
    c.val = some (x, j, l, i) ∧ (s.core c.val).upd.on = false ∧ s.sectionRun { x with move := none } j l i = .ok
    (s1, q) :=
  ⟨0, secState {}, _, ctx0, 0, 5, 0, _, by decide +kernel, by decide +kernel, ok_of (lit, anyRun)
  (by decide +kernel)⟩

theorem witness_UpdateLife_3 : ∃ (c : CoreId) (s : State) (x : Ctx) (j l i : Nat), s.onSection c.val = some (x,
    j, l, i) ∧ (s.core c.val).upd.on = true :=
  ⟨0, secState uctx0, ctx0, 0, 5, 0, by decide +kernel, by decide +kernel⟩

theorem witness_UpdateLife_4 : ∃ (j n : Nat) (s s1 : State) (y : Job) (u : Upd) (l : Layer), s.job? j = some y
    ∧ tabFind y.upds n = some u ∧ y.layer? n = some l ∧ u.stalled = true ∧ jobRuns y = true :=
  ⟨0, 5, withJob (jobU { upd0 with stalled := true }), lit, jobU { upd0 with stalled := true },
  { upd0 with stalled := true }, layer5, by decide +kernel, by decide +kernel, by decide +kernel,
  by decide +kernel, by decide +kernel⟩

theorem witness_UpdateLife_5 : ∃ (j n : Nat) (s s1 : State) (y : Job) (u : Upd) (l : Layer) (hb : List Byte) (x
    : Ctx), s.job? j = some y ∧ tabFind y.upds n = some u ∧ y.layer? n = some l ∧ u.stalled = false ∧ u.toPush = 0
    ∧ u.outstanding = 0 ∧ y.st = .running ∧ x = { s.ctxOf u.core u.task with move := none } ∧ s.updRecord x u = .ok
    (s1, hb) ∧ leAt hb 24 8 = 0 ∧ u.task.cpl = false ∧ y.named u.task = none :=
  ⟨0, 5, { secState uctx0 with jobs := [(0, jobU { upd0 with outstanding := 0 })] }, _, jobU
  { upd0 with outstanding := 0 }, { upd0 with outstanding := 0 }, layer5, _, _, by decide +kernel,
  by decide +kernel, by decide +kernel, by decide +kernel, by decide +kernel, by decide +kernel,
  by decide +kernel, rfl, ok_of (lit, []) (by decide +kernel), by decide +kernel, by decide +kernel,
  by decide +kernel⟩

theorem witness_UpdateLife_6 : ∃ (j n : Nat) (s : State) (y : Job) (u : Upd), s.job? j = some y ∧ tabFind
    y.upds n = some u ∧ (u.stalled = true ∨ u.toPush ≠ 0 ∨ u.outstanding ≠ 0) :=
  ⟨0, 5, secState uctx0, jobU upd0, upd0, by decide +kernel, by decide +kernel, .inr (.inr
  (by decide +kernel))⟩

/-! ### Collectives -/

/-- A collective of two members of 64-byte parts, this member at position 0 or 1 (R226). -/
def coll0 (op self root : Nat) : Coll :=
  { w := [op + 256 + root * 2 ^ 14 + self * 2 ^ 20, 64 * 2 ^ 24 + 12 * 2 ^ 16 + 9, 0x4000, 0x5000, 0x6000, 0x7000, 3, 0], members := [⟨0, 0, 5, 64⟩, ⟨1, 0, 5, 64⟩] }
/-- The module with that collective as number 3 of job 0 and queue pair 0 in RTS. -/
def withColl (x : Job) : State :=
  { withQp qp0 with jobs := [(0, x)] }
/-- A running job with the collective. -/
def jobC (c : Coll) : Job := { job0 with st := .running, colls := [(3, c)], layers := [layer5] }
/-- A message of member 1 for it (R231). -/
def msg0 (op : Nat) (bs : List Byte) : CollMsg :=
  { epoch := 0, step := 0, layerId := 0, op := op, ovf := false, skip := false, counts := false, last := true, version := 0, collId := 3, sender := 1, chunkNo := 0, payload := bs, empty := false }

theorem witness_Collectives_1 : ∃ (mk : Nat → Nat → Instr) (op j n : Nat) (s : State) (x : Job) (c : Coll),
    (mk, op) ∈ ([(.reduceToOwner, 0), (.bcastFromOwner, 1), (.allGather, 2), (.reduceScatter, 3), (.allToAll, 4),
    (.ringShift, 5), (.layerGather, 6)] : List ((Nat → Nat → Instr) × Nat)) ∧ s.job? j = some x ∧ tabFind x.colls n
    = some c ∧ c.op = op ∧ (jobRuns x = false ∨ c.sent = true ∨ s.peersUp j c = false ∨ (op = 6 ∧ c.granted =
    false)) :=
  ⟨.layerGather, 6, 0, 3, withColl (jobC (coll0 6 0 1)), jobC (coll0 6 0 1), coll0 6 0 1, by simp,
  by decide +kernel, by decide +kernel, by decide +kernel, .inr (.inr (.inr (by decide +kernel)))⟩

theorem witness_Collectives_2 : ∃ (j n : Nat) (s : State) (x : Job) (c : Coll) (v : List Word), s.job? j = some
    x ∧ jobRuns x = true ∧ tabFind x.colls n = some c ∧ c.op = 0 ∧ c.sent = false ∧ s.peersUp j c = true ∧ c.self =
    c.root ∧ c.sum = [] ∧ s.ownSum c = some v :=
  ⟨0, 3, withColl (jobC (coll0 0 0 0)), jobC (coll0 0 0 0), coll0 0 0 0, _, by decide +kernel,
  by decide +kernel, by decide +kernel, by decide +kernel, by decide +kernel, by decide +kernel,
  by decide +kernel, by decide +kernel, some_of [] (by decide +kernel)⟩

theorem witness_Collectives_3 : ∃ (j n : Nat) (s : State) (x : Job) (c : Coll) (m : Member) (q : Qp) (bs : List
    Byte), s.job? j = some x ∧ jobRuns x = true ∧ tabFind x.colls n = some c ∧ c.op = 0 ∧ c.sent = false ∧
    s.peersUp j c = true ∧ c.self ≠ c.root ∧ 0 < c.len ∧ s.devRead c.src c.len = some bs ∧ c.members[c.root]? =
    some m ∧ s.qp? m.qpn = some q :=
  ⟨0, 3, withColl (jobC (coll0 0 0 1)), jobC (coll0 0 0 1), coll0 0 0 1, ⟨1, 0, 5, 64⟩, qp0, zeros 64,
  by decide +kernel, by decide +kernel, by decide +kernel, by decide +kernel, by decide +kernel,
  by decide +kernel, by decide +kernel, by decide +kernel, by decide +kernel, by decide +kernel,
  by decide +kernel⟩

theorem witness_Collectives_4 : ∃ (j n : Nat) (s : State) (x : Job) (c : Coll), s.job? j = some x ∧ jobRuns x =
    true ∧ tabFind x.colls n = some c ∧ c.op = 1 ∧ c.sent = false ∧ s.peersUp j c = true ∧ c.self = c.root ∧
    (c.skip = true ∨ c.len = 0 ∨ s.devRead (c.from x) c.len ≠ none) :=
  ⟨0, 3, withColl (jobC (coll0 1 0 0)), jobC (coll0 1 0 0), coll0 1 0 0, by decide +kernel, by decide +kernel,
  by decide +kernel, by decide +kernel, by decide +kernel, by decide +kernel, by decide +kernel, .inr (.inr
  (by decide +kernel))⟩

theorem witness_Collectives_5 : ∃ (j n : Nat) (s : State) (x : Job) (c : Coll) (bs : List Byte), s.job? j =
    some x ∧ jobRuns x = true ∧ tabFind x.colls n = some c ∧ c.op = 2 ∧ c.sent = false ∧ s.peersUp j c = true ∧ 0 <
    c.part c.self ∧ s.devRead c.src (c.part c.self) = some bs :=
  ⟨0, 3, withColl (jobC (coll0 2 1 0)), jobC (coll0 2 1 0), coll0 2 1 0, zeros 64, by decide +kernel,
  by decide +kernel, by decide +kernel, by decide +kernel, by decide +kernel, by decide +kernel,
  by decide +kernel, by decide +kernel⟩

theorem witness_Collectives_6 : ∃ (j n : Nat) (s : State) (x : Job) (c : Coll) (bs : List Byte) (v : List
    Word), s.job? j = some x ∧ jobRuns x = true ∧ tabFind x.colls n = some c ∧ c.op = 3 ∧ c.sent = false ∧
    s.peersUp j c = true ∧ 0 < c.offset c.n ∧ s.devRead c.src (c.offset c.n) = some bs ∧ c.sum = [] ∧ s.ownSum c =
    some v :=
  ⟨0, 3, withColl (jobC (coll0 3 0 0)), jobC (coll0 3 0 0), coll0 3 0 0, zeros 128, _, by decide +kernel,
  by decide +kernel, by decide +kernel, by decide +kernel, by decide +kernel, by decide +kernel,
  by decide +kernel, by decide +kernel, by decide +kernel, some_of [] (by decide +kernel)⟩

theorem witness_Collectives_7 : ∃ (j n a : Nat) (s : State) (x : Job) (c : Coll), s.job? j = some x ∧ jobRuns x
    = true ∧ tabFind x.colls n = some c ∧ c.op = 4 ∧ c.sent = false ∧ s.peersUp j c = true ∧ (c.offset c.n = 0 ∨
    s.devRead c.src (c.offset c.n) ≠ none) ∧ a = addrOf (c.w.getD 5 0) + 8 * (c.n + c.self) :=
  ⟨0, 3, _, withColl (jobC (coll0 4 0 0)), jobC (coll0 4 0 0), coll0 4 0 0, by decide +kernel,
  by decide +kernel, by decide +kernel, by decide +kernel, by decide +kernel, by decide +kernel, .inr
  (by decide +kernel), rfl⟩

theorem witness_Collectives_8 : ∃ (j n : Nat) (s : State) (x : Job) (c : Coll) (bs : List Byte), s.job? j =
    some x ∧ jobRuns x = true ∧ tabFind x.colls n = some c ∧ c.op = 5 ∧ c.sent = false ∧ s.peersUp j c = true ∧ 0 <
    c.part c.self ∧ s.devRead c.src (c.part c.self) = some bs :=
  ⟨0, 3, withColl (jobC (coll0 5 0 0)), jobC (coll0 5 0 0), coll0 5 0 0, zeros 64, by decide +kernel,
  by decide +kernel, by decide +kernel, by decide +kernel, by decide +kernel, by decide +kernel,
  by decide +kernel, by decide +kernel⟩

theorem witness_Collectives_9 : ∃ (j n : Nat) (s : State) (x : Job) (c : Coll) (m : Member) (q : Qp), s.job? j
    = some x ∧ jobRuns x = true ∧ tabFind x.colls n = some c ∧ c.op = 6 ∧ c.sent = false ∧ s.peersUp j c = true ∧
    c.granted = true ∧ c.members[c.root]? = some m ∧ s.qp? m.qpn = some q :=
  ⟨0, 3, withColl (jobC ({ coll0 6 0 1 with granted := true })), jobC ({ coll0 6 0 1 with granted := true }),
  { coll0 6 0 1 with granted := true }, ⟨1, 0, 5, 64⟩, qp0, by decide +kernel, by decide +kernel,
  by decide +kernel, by decide +kernel, by decide +kernel, by decide +kernel, by decide +kernel,
  by decide +kernel, by decide +kernel⟩

theorem witness_Collectives_10 : ∃ (j : Nat) (m : CollMsg) (s : State) (x : Job), s.job? j = some x ∧ jobRuns x
    = true :=
  ⟨0, msg0 2 (zeros 64), withColl (jobC (coll0 2 0 0)), jobC (coll0 2 0 0), by decide +kernel,
  by decide +kernel⟩

theorem witness_Collectives_11 : ∃ (j a p : Nat) (m : CollMsg) (s : State) (x : Job) (c : Coll), s.job? j =
    some x ∧ jobRuns x = true ∧ m.epoch = x.epoch ∧ tabFind x.colls m.collId = some c ∧ c.op = 2 ∧ m.op = 2 ∧
    c.grad = false ∧ c.layerbuf = false ∧ p = c.posOf m.sender ∧ c.expects m p = true ∧ a = c.dst + c.offset p +
    m.chunkNo * c.chunk ∧ s.extentBad x.part a m.payload.length = false :=
  ⟨0, 0x5040, 1, msg0 2 (List.replicate 64 7), withColl (jobC ({ coll0 2 0 0 with granted := true })), jobC
  ({ coll0 2 0 0 with granted := true }), { coll0 2 0 0 with granted := true }, by decide +kernel,
  by decide +kernel, by decide +kernel, by decide +kernel, by decide +kernel, by decide +kernel,
  by decide +kernel, by decide +kernel, by decide +kernel, by decide +kernel, by decide +kernel,
  by decide +kernel⟩

theorem witness_Collectives_12 : ∃ (j p : Nat) (m : CollMsg) (s : State) (x : Job) (c : Coll), s.job? j = some
    x ∧ jobRuns x = true ∧ m.epoch = x.epoch ∧ tabFind x.colls m.collId = some c ∧ (c.op = 0 ∨ c.op = 3) ∧ m.op =
    c.op ∧ c.grad = false ∧ c.layerbuf = false ∧ p = c.posOf m.sender ∧ c.expects m p = true ∧ c.sum ≠ [] :=
  ⟨0, 1, msg0 0 (natLE 4 0x3F800000), withColl (jobC
  ({ coll0 0 0 0 with granted := true, sum := List.replicate 16 0x3F800000 })), jobC
  ({ coll0 0 0 0 with granted := true, sum := List.replicate 16 0x3F800000 }),
  { coll0 0 0 0 with granted := true, sum := List.replicate 16 0x3F800000 }, by decide +kernel,
  by decide +kernel, by decide +kernel, by decide +kernel, .inl (by decide +kernel), by decide +kernel,
  by decide +kernel, by decide +kernel, by decide +kernel, by decide +kernel, by decide +kernel⟩

theorem witness_Collectives_13 : ∃ (j n snd id qpn : Nat) (s : State) (x : Job) (l : Layer) (rest : List (Nat ×
    Nat × Nat)) (q : Qp) (bs : List Byte), s.job? j = some x ∧ jobRuns x = true ∧ x.layer? n = some l ∧ takeFirst
    (fun q : Nat × Nat × Nat => decide (q.2.1 ≤ l.commits)) l.requests = some ((snd, l.commits, id), rest) ∧
    (s.xp.qps.find? (fun e => decide (e.2.job = j) && decide (e.2.peer = snd) && decide (e.2.st = .rts))).map (·.1)
    = some qpn ∧ s.qp? qpn = some q ∧ 0 < l.size ∧ s.devRead (l.buf l.version) l.size = some bs :=
  ⟨0, 5, 1, 7, 0, withColl { job0 with st := .running, layers := [{ layer5 with requests := [(1, 0, 7)] }] },
  { job0 with st := .running, layers := [{ layer5 with requests := [(1, 0, 7)] }] },
  { layer5 with requests := [(1, 0, 7)] }, [], qp0, zeros 4096, by decide +kernel, by decide +kernel,
  by decide +kernel, by decide +kernel, by decide +kernel, by decide +kernel, by decide +kernel,
  by decide +kernel⟩

theorem witness_Collectives_14 : ∃ (j n a inc : Nat) (s : State) (x : Job) (c : Coll), s.job? j = some x ∧
    jobRuns x = true ∧ tabFind x.colls n = some c ∧ s.collDone j n c = true ∧ (c.op = 1 ∨ c.op = 5) ∧ inc = bitsOf
    (c.w.getD 1 0) 15 0 ∧ a = x.ctrBase + bitsOf (c.w.getD 0 0) 55 42 ∧ s.jobsRising :=
  ⟨0, 3, 0, 9, withColl (jobC ({ coll0 5 0 0 with sent := true, got := [(1, 64)], lasts := [1] })), jobC
  ({ coll0 5 0 0 with sent := true, got := [(1, 64)], lasts := [1] }),
  { coll0 5 0 0 with sent := true, got := [(1, 64)], lasts := [1] }, by decide +kernel, by decide +kernel,
  by decide +kernel, by decide +kernel, .inr (by decide +kernel), by decide +kernel, by decide +kernel,
  by unfold State.jobsRising; decide +kernel⟩

theorem witness_Collectives_15 : ∃ (j n : Nat) (s : State) (x : Job) (c : Coll), s.job? j = some x ∧ tabFind
    x.colls n = some c ∧ s.collDone j n c = false :=
  ⟨0, 3, withColl (jobC (coll0 5 0 0)), jobC (coll0 5 0 0), coll0 5 0 0, by decide +kernel, by decide +kernel,
  by decide +kernel⟩

/-! ### Invar -/

/-- Invar runs: tracking and recalibration are on, retrain below 8, critical below 4. -/
def invar0 : State :=
  { lit with cfg := [(regKey .iv 0, 0xC0000804)], tick := 300000000, bays := [(0, { present := true, latched := true, lit := true })] }
/-- A module of bridge 3 whose lane 67 is under recalibration. -/
def recal0 : Invar := { bridges := [(3, { modules := [(11, { recal := some 67 })] })] }

theorem witness_InvarEvents_1 : ∃ (ch : ChanId) (centre margin : Int) (s : State) (x : Chan), s.chanRuns ch.val
    = true ∧ x = s.chan ch.val ∧ flag (s.reg .iv 0x000) 31 = true ∧ centre ≠ x.phase :=
  ⟨191, -5, -1, invar0, _, by decide +kernel, rfl, by decide +kernel, by decide +kernel⟩

theorem witness_InvarEvents_2 : ∃ (ch : ChanId) (m : Nat) (s : State), s.chanRuns ch.val = true ∧ s.retrainOk
    ch.val = true :=
  ⟨191, 3, invar0, by decide +kernel, by decide +kernel⟩

theorem witness_InvarEvents_3 : ∃ (ch : ChanId) (s : State) (t0 : Nat), s.chanRuns ch.val = true ∧ (s.chan
    ch.val).waiting = some t0 :=
  ⟨191, { invar0 with inv := { chans := [(191, { waiting := some 299000000 })] } }, 299000000,
  by decide +kernel, by decide +kernel⟩

theorem witness_InvarEvents_4 : ∃ (d : DieId) (s : State) (t0 : Nat), (s.die d.val).freezeUntil = some t0 ∧ t0
    ≤ s.tick ∧ (∀ g, g < 8 → (s.grp (8 * d.val + g)).change = none) :=
  ⟨3, { invar0 with dies := [(3, { freezeUntil := some 300000000 })] }, 300000000, by decide +kernel,
  by decide +kernel,
  fun g h => (by decide +kernel : ∀ g : Fin 8, (State.grp { invar0 with dies := [(3, { freezeUntil := some 300000000 })] } (8 * 3 + g.val)).change = none) ⟨g, h⟩⟩

theorem witness_InvarEvents_5 : ∃ (d : DieId) (s : State) (t0 : Nat), (s.die d.val).freezeUntil = some t0 ∧
    s.tick < t0 :=
  ⟨3, { invar0 with dies := [(3, { freezeUntil := some 300000001 })] }, 300000001, by decide +kernel,
  by decide +kernel⟩

theorem witness_InvarEvents_6 : ∃ (p : PortId) (lane : Fin 8) (s : State), s.optOn p.val = true :=
  ⟨7, 7, invar0, by decide +kernel⟩

theorem witness_InvarEvents_7 : ∃ (b : BayId) (out : Fin 16) (step : Int) (s : State), s.power.cp = true ∧
    (s.bay b.val).lit = true ∧ (tabFind (s.bay b.val).trimTick out.val = none ∨ ∃ t0, tabFind (s.bay
    b.val).trimTick out.val = some t0 ∧ t0 + 100000 ≤ s.tick) :=
  ⟨0, 15, -5, invar0, by decide +kernel, by decide +kernel, .inl (by decide +kernel)⟩

theorem witness_InvarEvents_8 : ∃ (d : DieId) (hs : List Nat) (s : State), s.power.cp = true :=
  ⟨3, [9], invar0, by decide +kernel⟩

theorem witness_InvarEvents_9 : ∃ (b : BridgeId) (m : Fin 12) (s : State), s.power.cp = true ∧ flag (s.reg .iv
    0x000) 30 = true ∧ (s.bridge b.val).out = false ∧ hasShadow (s.module b.val m.val) = true ∧ (s.module b.val
    m.val).recal = none :=
  ⟨3, 11, invar0, by decide +kernel, by decide +kernel, by decide +kernel, by decide +kernel,
  by decide +kernel⟩

theorem witness_InvarEvents_10 : ∃ (b : BridgeId) (m : Fin 12) (s : State) (l : Nat), (s.module b.val
    m.val).recal = some l :=
  ⟨3, 11, { invar0 with inv := recal0 }, 67, by decide +kernel⟩

theorem witness_InvarEvents_11 : ∃ (mk : BridgeId → Fin 12 → Fin 68 → Instr) (b : BridgeId) (m : Fin 12) (l :
    Fin 68) (s : State), mk ∈ ([.laneRetire, .laneFail] : List (BridgeId → Fin 12 → Fin 68 → Instr)) ∧ s.power.cp =
    true ∧ (s.bridge b.val).out = false ∧ l.val ∈ carriers (s.module b.val m.val) :=
  ⟨.laneFail, 3, 11, 63, invar0, by simp, by decide +kernel, by decide +kernel, by decide +kernel⟩

theorem witness_InvarEvents_12 : ∃ (g : GroupId) (n : Nat) (s : State), s.grpOn g.val = true :=
  ⟨31, 3, invar0, by decide +kernel⟩

/-! ### Frames -/

/-- A bring-up step is about to end. -/
def ending : State := { State.reset with bu := { result := 1, step := 3, next := 3 } }
/-- It has ended. -/
def ended3 : State := { ending with bu := { result := 2, step := 3, next := 4, progress := 100 } }
theorem exec_ending : exec .bringupStepEnd ending = .next ended3 := rfl

theorem witness_UnitFrame_1 : ∃ (c : Instr) (s t : State), exec c s = .next t :=
  ⟨.bringupStepEnd, ending, ended3, exec_ending⟩

theorem witness_UnitFrame_2 : ∃ (c : Instr) (s t : State), exec c s = .next t ∧ (∀ mv, c ≠ .powerOn mv) :=
  ⟨.bringupStepEnd, ending, ended3, exec_ending, fun mv h => nomatch h⟩

theorem witness_UnitFrame_3 : ∃ (c : Instr) (s t : State), exec c s = .next t ∧ c ≠ .tripPowerOff ∧ c ≠
    .perstAssert ∧ c ≠ .powerLoss ∧ c ≠ .overvoltage :=
  ⟨.bringupStepEnd, ending, ended3, exec_ending, by decide +kernel, by decide +kernel, by decide +kernel,
  by decide +kernel⟩

theorem witness_UnitFrame_4 : ∃ (c : Instr) (s t : State), exec c s = .next t ∧ mayAnswerBus c = false :=
  ⟨.bringupStepEnd, ending, ended3, exec_ending, by decide +kernel⟩

theorem witness_UnitFrame_5 : ∃ (c : Instr) (s t : State), exec c s = .next t ∧ mayLatch c = false :=
  ⟨.bringupStepEnd, ending, ended3, exec_ending, by decide +kernel⟩

theorem witness_UnitFrame_6 : ∃ (c : Instr) (s t : State), exec c s = .next t ∧ mayCompat c = false :=
  ⟨.bringupStepEnd, ending, ended3, exec_ending, by decide +kernel⟩

theorem witness_UnitFrame_7 : ∃ (c : Instr) (s t : State), exec c s = .next t ∧ mayRemap c = false :=
  ⟨.bringupStepEnd, ending, ended3, exec_ending, by decide +kernel⟩

theorem witness_UnitFrame_8 : ∃ (c : Instr) (s t : State), exec c s = .next t ∧ mayCountErr c = false :=
  ⟨.bringupStepEnd, ending, ended3, exec_ending, by decide +kernel⟩

theorem witness_UnitFrame_9 : ∃ (c : Instr) (s t : State), exec c s = .next t ∧ mayWstat c = false :=
  ⟨.bringupStepEnd, ending, ended3, exec_ending, by decide +kernel⟩

theorem witness_UnitFrame_10 : ∃ (c : Instr) (s t : State), exec c s = .next t ∧ mayCv c = false :=
  ⟨.bringupStepEnd, ending, ended3, exec_ending, by decide +kernel⟩

theorem witness_UnitFrame_11 : ∃ (c : Instr) (s t : State), exec c s = .next t ∧ mayCon c = false :=
  ⟨.bringupStepEnd, ending, ended3, exec_ending, by decide +kernel⟩

theorem witness_UnitFrame_12 : ∃ (c : Instr) (s t : State), exec c s = .next t ∧ mayDie c = false :=
  ⟨.bringupStepEnd, ending, ended3, exec_ending, by decide +kernel⟩

theorem witness_UnitFrame_13 : ∃ (c : Instr) (s t : State), exec c s = .next t ∧ mayGroup c = false :=
  ⟨.bringupStepEnd, ending, ended3, exec_ending, by decide +kernel⟩

theorem witness_UnitFrame_14 : ∃ (c : Instr) (s t : State), exec c s = .next t ∧ mayInv c = false :=
  ⟨.bringupStepEnd, ending, ended3, exec_ending, by decide +kernel⟩

theorem witness_UnitFrame_15 : ∃ (c : Instr) (s t : State), exec c s = .next t ∧ mayPort c = false :=
  ⟨.bringupStepEnd, ending, ended3, exec_ending, by decide +kernel⟩

theorem witness_UnitFrame_16 : ∃ (c : Instr) (s t : State), exec c s = .next t ∧ mayBay c = false :=
  ⟨.bringupStepEnd, ending, ended3, exec_ending, by decide +kernel⟩

theorem witness_MemoryFrame_1 : ∃ (c : Instr) (s t : State) (a : Nat), exec c s = .next t ∧ mayHostMem c =
    false :=
  ⟨.bringupStepEnd, ending, ended3, 5, exec_ending, by decide +kernel⟩

theorem witness_MemoryFrame_2 : ∃ (c : Instr) (s t : State) (a : Nat), exec c s = .next t ∧ mayDevMem c = false
    :=
  ⟨.bringupStepEnd, ending, ended3, 5, exec_ending, by decide +kernel⟩

theorem witness_MemoryFrame_3 : ∃ (c : Instr) (s t : State) (a : Nat), exec c s = .next t ∧ mayLocal c = false
    :=
  ⟨.bringupStepEnd, ending, ended3, 5, exec_ending, by decide +kernel⟩

theorem witness_MemoryFrame_4 : ∃ (c : Instr) (s t : State), exec c s = .next t ∧ mayAcc c = false :=
  ⟨.bringupStepEnd, ending, ended3, exec_ending, by decide +kernel⟩

theorem witness_MemoryFrame_5 : ∃ (c : Instr) (s t : State) (i : Nat), exec c s = .next t ∧ mayCtr c = false :=
  ⟨.bringupStepEnd, ending, ended3, 5, exec_ending, by decide +kernel⟩

theorem witness_MemoryFrame_6 : ∃ (c : Instr) (s t : State) (k : Nat), exec c s = .next t ∧ maySvc c = false :=
  ⟨.bringupStepEnd, ending, ended3, 5, exec_ending, by decide +kernel⟩

theorem witness_MemoryFrame_7 : ∃ (c : Instr) (s t : State), exec c s = .next t ∧ mayPewter c = false :=
  ⟨.bringupStepEnd, ending, ended3, exec_ending, by decide +kernel⟩

theorem witness_MemoryFrame_8 : ∃ (c : Instr) (s t : State), exec c s = .next t ∧ mayDefects c = false :=
  ⟨.bringupStepEnd, ending, ended3, exec_ending, by decide +kernel⟩

/-! ### The machine -/

/-- The module with an event queue of the operator of 16 entries, its producer as given. -/
def withEvq (e : EvQueue) : State := { lit with sec := { evqs := [(8, e)] } }

theorem witness_StepRunsFront_1 : ∃ (c : Instr) (cs : List Instr) (s : State), s.pending = c :: cs :=
  ⟨.smbIdent, [.smbVin], { State.reset with pending := [.smbIdent, .smbVin] }, by decide +kernel⟩

theorem witness_StepRunsFront_2 : ∃ (s : State), s.pending = [] :=
  ⟨State.reset, by decide +kernel⟩

theorem witness_StepKeepsInvariant_1 : ∃ (s t : State), s.memWf = true ∧ s.jobsRising ∧ step s = .next t :=
  ⟨{ ending with pending := [.bringupStepEnd] }, ended3, by decide +kernel,
  by unfold State.jobsRising; decide +kernel, rfl⟩

theorem witness_MessagesToHost_1 : ∃ (s : State) (mb tag status a : Nat) (noint : Bool) (res : List Byte),
    (s.mb mb).st ≠ .disabled ∧ s.rspFull mb = false ∧ flag (s.reg (.mb mb) 0x020) 29 = false ∧ s.link.up = true ∧
    res.length ≤ 56 ∧ a = s.ringBase mb 0x018 + 64 * ((s.mb mb).rspProd % 64) :=
  ⟨lit, 0, 5, 0, _, false, List.replicate 56 7, by decide +kernel, by decide +kernel, by decide +kernel,
  by decide +kernel, by decide +kernel, rfl⟩

theorem witness_MessagesToHost_2 : ∃ (s : State) (mb tag status a : Nat) (noint : Bool) (res : List Byte),
    (s.mb mb).st ≠ .disabled ∧ s.rspFull mb = false ∧ flag (s.reg (.mb mb) 0x020) 29 = true ∧ a = s.ringBase mb
    0x018 + 64 * ((s.mb mb).rspProd % 64) ∧ s.ringOk mb a 64 = true ∧ res.length ≤ 56 :=
  ⟨{ lit with cfg := (regKey (.mb 0) 0x020, 0xA0000000) :: lit.cfg.take 1 }, 0, 5, 0, _, false, [],
  by decide +kernel, by decide +kernel, by decide +kernel, rfl, by decide +kernel, by decide +kernel⟩

theorem witness_MessagesToHost_3 : ∃ (s : State) (mb tag status : Nat) (noint : Bool) (res : List Byte), (s.mb
    mb).st ≠ .disabled ∧ s.rspFull mb = true :=
  ⟨{ lit with mailboxes := [(0, { st := .idle, rspProd := 64 })] }, 0, 5, 0, false, [], by decide +kernel,
  by decide +kernel⟩

theorem witness_MessagesToHost_4 : ∃ (s : State) (q code part n a : Nat) (detail : List Byte) (e : EvQueue),
    tabFind s.sec.evqs q = some e ∧ e.set = true ∧ n = 2 ^ e.log2 ∧ (e.prod + 2 * n - s.rf (evqBlk q).1 (evqBlk
    q).2 12 0 % (2 * n)) % (2 * n) ≠ n ∧ a = e.base + 32 * (e.prod % n) ∧ r40Dev a = false ∧ s.link.up = true ∧
    detail.length ≤ 16 :=
  ⟨withEvq { set := true, base := 0x9000, prod := 31 }, 8, 0x1001, 255, 16, _, [1, 2, 3],
  { set := true, base := 0x9000, prod := 31 }, by decide +kernel, by decide +kernel, by decide +kernel,
  by decide +kernel, rfl, by decide +kernel, by decide +kernel, by decide +kernel⟩

theorem witness_MessagesToHost_5 : ∃ (s : State) (q code part n : Nat) (detail : List Byte) (e : EvQueue),
    tabFind s.sec.evqs q = some e ∧ e.set = true ∧ n = 2 ^ e.log2 ∧ (e.prod + 2 * n - s.rf (evqBlk q).1 (evqBlk
    q).2 12 0 % (2 * n)) % (2 * n) = n :=
  ⟨withEvq { set := true, base := 0x9000, prod := 16 }, 8, 0x1001, 255, 16, [],
  { set := true, base := 0x9000, prod := 16 }, by decide +kernel, by decide +kernel, by decide +kernel,
  by decide +kernel⟩

theorem witness_MessagesToHost_6 : ∃ (s : State) (a v : Nat) (bs : List Byte), s.link.up = false ∧ bs ≠ [] :=
  ⟨{ lit with link := {} }, 0x9000, 3, [1], by decide +kernel, by decide +kernel⟩

/-! ### Well-formedness: an ill-formed term for each check, refused -/

theorem test_wf_register_bar : (Instr.registerRead 4 0).wellFormed = false := by decide
theorem test_wf_register_word : (Instr.registerWrite 0 2 0).wellFormed = false := by decide
theorem test_wf_register_end : (Instr.registerRead 0 0x10000).wellFormed = false := by decide
theorem test_wf_train_memory : (Instr.trainMemory [3]).wellFormed = false := by decide
theorem test_wf_test_cores : (Instr.testCores [(2304, 0)]).wellFormed = false := by decide
theorem test_wf_train_solder : (Instr.trainSolder [⟨0, 0, 68⟩] 0).wellFormed = false := by decide
theorem test_wf_test_memory : (Instr.testMemory 0 [⟨192, 0, 0⟩]).wellFormed = false := by decide
theorem test_wf_thermal_sample : (Instr.thermalSample ⟨[1], [1]⟩).wellFormed = false := by decide
theorem test_wf_control_interval : (Instr.controlInterval ⟨100, []⟩).wellFormed = false := by decide
theorem test_wf_slew_budget : (Instr.slewBudgetUpdate 0 [20]).wellFormed = false := by decide
theorem test_wf_droop_recal : (Instr.droopRecal 0 17).wellFormed = false := by decide
theorem test_wf_frame_tag : (Instr.frameReceive 0 { frame0 with tag := some (4096, 0) }).wellFormed = false := by
  decide
theorem test_wf_frame_quanta : (Instr.frameReceive 0 { frame0 with pfc := some (1, [0]) }).wellFormed = false := by
  decide
theorem test_wf_pfc_frame : (Instr.pfcFrameReceive 0 frame0).wellFormed = false := by decide
theorem test_wf_keepalive : (Instr.keepalive 0 0 16).wellFormed = false := by decide
theorem test_wf_power_on : (Instr.powerOn 65536).wellFormed = false := by decide
theorem test_wf_accepts : (Instr.registerRead 0 0xFFFC).wellFormed = true := by decide

/-! ### The manual's own figures -/

/-- "123456789". -/
def digits : List Byte := [0x31, 0x32, 0x33, 0x34, 0x35, 0x36, 0x37, 0x38, 0x39]
/-- The check values of R441's table. -/
theorem test_crc32c_check : crcOut 0 (crcRun 0 (crcInit 0) digits) = 0xE3069283 := by decide +kernel
theorem test_crc32_check : crcOut 1 (crcRun 1 (crcInit 1) digits) = 0xCBF43926 := by decide +kernel
theorem test_crc64_check : crcOut 2 (crcRun 2 (crcInit 2) digits) = 0x6C40DF5F0B497347 := by decide +kernel
/-- R60: the largest finite numbers of FP8 E4M3, FP6 E3M2 and FP6 E2M3, and the smallest of E4M3. -/
theorem test_e4m3_max : convOut 6 one32 0x43E00000 = (0x7E, false, false) := by decide +kernel
theorem test_e4m3_min : decodeF (fmtOf 6) 1 = .fin false 1 (-9) := by decide +kernel
theorem test_e3m2_max : decodeF (fmtOf 2) 0x1F = .fin false 7 2 := by decide +kernel
/-- R76: 449 converts to 448 with no count; 465 is clamped to 448 and counted. -/
theorem test_e4m3_449 : convOut 6 one32 (ofInt32 449) = (0x7E, false, false) := by decide +kernel
theorem test_e4m3_465 : convOut 6 one32 (ofInt32 465) = (0x7E, true, false) := by decide +kernel
/-- R141: STEP_INC 40 and T = 40 wait for 40, 80 and 4,040 in steps 0, 1 and 100. -/
theorem test_threshold_steps :
    [0, 1, 100].map (fun n => effThreshold { job0 with incs := [40], step := n } (0, true, 40)) = [40, 80, 4040] := by
  decide +kernel
/-- R330: a pause of one quantum is 0.64 ns at 800 Gb/s. -/
theorem test_quanta : State.reset.quantaTicks 0 65535 = 4195 := by decide +kernel

/-! ### One step -/

/-- R244: an idle step counts one tick of AONCLK. -/
theorem test_idle : step State.reset = .next { State.reset with tick := 1 } := rfl
/-- R447: the first BU_STEP write must name step 0x01. -/
theorem test_bu_order : exec .applyDefects (bring 1) = .next ((bring 1).noteWrite .bu 0 stWrong) := rfl
/-- R291: no BAR4 register access exists. -/
theorem test_no_register : exec (.registerRead 4 0) State.reset = .fault .noSuchRegister := rfl
/-- R487: the part number is what IDENT answers first. -/
theorem test_ident : ∃ t, exec .smbIdent State.reset = .next t ∧ t.busOut.take 12 =
    [0x54, 0x53, 0x47, 0x32, 0x2D, 0x4D, 0x38, 0x36, 0x34, 0x2D, 0x41, 0x31] := ⟨_, rfl, by decide +kernel⟩

end Sys2Proof.Tests
end

section
/-! SUPPORT. Direct register accesses over BAR0 and BAR2 (R8, R10, R20, R47, R56, R57, R291): what each access
answers, and the proof of O5. -/

namespace Sys2Proof.Machine
set_option Elab.async false

/-! ### The commands -/

theorem exec_registerRead {bar off : Nat} (s : State) (h : barHas bar off = true) :
    exec (.registerRead bar off) s = .next (s.barRead bar off) := if_pos h

theorem exec_registerRead_fault {bar off : Nat} (s : State) (h : barHas bar off = false) :
    exec (.registerRead bar off) s = .fault .noSuchRegister := if_neg (by simp [h])

theorem exec_registerWrite {bar off : Nat} (v : Word) (s : State) (h : barHas bar off = true) :
    exec (.registerWrite bar off v) s = .next (s.barWrite bar off v) := if_pos h

theorem exec_registerWrite_fault {bar off : Nat} (v : Word) (s : State) (h : barHas bar off = false) :
    exec (.registerWrite bar off v) s = .fault .noSuchRegister := if_neg (by simp [h])

theorem exec_compatWrite (v : Word) (s : State) : exec (.compatWrite v) s = .next (s.barWrite 0 0x100 v) := rfl

/-! ### Accesses through a BAR -/

theorem State.barUp_zero (s : State) : s.barUp 0 = s.link.up := by simp [State.barUp]

theorem State.barRead_of_down {s : State} {bar : Nat} (off : Nat) (h : s.barUp bar = false) :
    s.barRead bar off = { s with busOut := [] } := by simp [State.barRead, h]

theorem State.barRead_of_barReg {s : State} {bar off o : Nat} {b : Blk} (hup : s.barUp bar = true)
    (h : barReg bar off = some (b, o)) :
    s.barRead bar off = { (s.readReg b o).2 with busOut := natLE 4 (s.readReg b o).1.toNat } := by
  simp [State.barRead, hup, h]

theorem State.barWrite_of_down {s : State} {bar : Nat} (off : Nat) (v : Word) (h : s.barUp bar = false) :
    s.barWrite bar off v = s := by simp [State.barWrite, h]

/-- The pages of the mailboxes lie at the start of BAR2, one behind the other (R292). -/
theorem barReg_mb_page {bar off n o : Nat} (h : barReg bar off = some (.mb n, o)) : o = off % 0x1000 := by
  unfold barReg bar2Reg at h
  split at h
  · split at h <;> simp at h
  · split at h
    · simp only [Option.some.injEq, Prod.mk.injEq] at h
      exact h.2.symm
    · dsimp only at h
      (repeat' split at h) <;> simp at h

theorem State.barWrite_of_barReg {s : State} {bar off o : Nat} {b : Blk} (v : Word) (hup : s.barUp bar = true)
    (h : barReg bar off = some (b, o)) (hmb : ∀ n, b = .mb n → n < 56) :
    s.barWrite bar off v = s.directWrite b o (off % 0x1000) v := by
  cases b with
  | mb n =>
    have hn : ¬ 56 ≤ n := Nat.not_le.2 (hmb n rfl)
    simp [State.barWrite, hup, h, hn, ← barReg_mb_page h]
  | _ => simp [State.barWrite, hup, h]

/-- The pages of the Pewter cluster's mailboxes (R25). -/
theorem State.barWrite_of_pewter {s : State} {bar off n o : Nat} (v : Word) (hup : s.barUp bar = true)
    (h : barReg bar off = some (.mb n, o)) (hn : 56 ≤ n) :
    s.barWrite bar off v = (s.countErr (.mb n)).noteWrite (.mb n) o stOk := by
  simp [State.barWrite, hup, h, hn]

theorem State.barWrite_of_barReg_none {s : State} {bar off : Nat} (v : Word) (hup : s.barUp bar = true)
    (h : barReg bar off = none) :
    s.barWrite bar off v =
      if bar = 2 ∧ 0x60000 ≤ off ∧ off < 0x61000 then
        { s with link := { s.link with msixTab := tabSet s.link.msixTab (off - 0x60000) v } }
      else s := by
  simp [State.barWrite, hup, h]

/-! ### Reading a register -/

/-- Reading clears counters; the latched words, the configuration, the memories and the mailboxes stay. -/
theorem State.rcClear_frame (s : State) (b : Blk) (off : Nat) :
    (s.rcClear b off).snap = s.snap ∧ (s.rcClear b off).cfg = s.cfg ∧ (s.rcClear b off).hostMem = s.hostMem ∧
    (s.rcClear b off).devMem = s.devMem ∧ (s.rcClear b off).mailboxes = s.mailboxes := by
  unfold State.rcClear
  (repeat' split) <;> exact ⟨rfl, rfl, rfl, rfl, rfl⟩

theorem State.readReg_of_high {s : State} {b : Blk} {off : Nat} (h : isHighWord b off = true) :
    s.readReg b off = (tabGet 0 s.snap (regKey b off), s) := by simp [State.readReg, h]

theorem State.readReg_value {s : State} {b : Blk} {off : Nat} (h : isHighWord b off = false) :
    (s.readReg b off).1 = s.shown b off := by simp [State.readReg, h]

/-- Reading a low word latches its high word (R20). -/
theorem State.readReg_latches {s : State} {b : Blk} {off : Nat} (hlow : isLowWord b off = true)
    (h : isHighWord b off = false) :
    tabGet (0 : Word) (s.readReg b off).2.snap (regKey b (off + 4)) = s.active b (off + 4) := by
  simp [State.readReg, h, hlow, State.rcClear_frame]

theorem State.readReg_frame (s : State) (b : Blk) (off : Nat) :
    (s.readReg b off).2.cfg = s.cfg ∧ (s.readReg b off).2.hostMem = s.hostMem ∧
    (s.readReg b off).2.devMem = s.devMem ∧ (s.readReg b off).2.mailboxes = s.mailboxes := by
  unfold State.readReg
  split
  · exact ⟨rfl, rfl, rfl, rfl⟩
  · simp only [State.rcClear_frame]
    split <;> exact ⟨rfl, rfl, rfl, rfl⟩

/-! ### Writing a register -/

theorem State.countErr_errcnt (s : State) (b : Blk) :
    tabGet 0 (s.countErr b).errcnt (blkPage b) = min 0xFFFF (tabGet 0 s.errcnt (blkPage b) + 1) := by
  simp [State.countErr, satAdd]

theorem State.noteWrite_wstat (s : State) (b : Blk) (off status : Nat) :
    tabGet (0, 0) (s.noteWrite b off status).wstat (blkPage b) = (off, status) := by simp [State.noteWrite]

@[simp] theorem State.noteWrite_compat (s : State) (b : Blk) (off status : Nat) :
    (s.noteWrite b off status).compat = s.compat := rfl
@[simp] theorem State.noteWrite_jobs (s : State) (b : Blk) (off status : Nat) :
    (s.noteWrite b off status).jobs = s.jobs := rfl
@[simp] theorem State.noteWrite_hostMem (s : State) (b : Blk) (off status : Nat) :
    (s.noteWrite b off status).hostMem = s.hostMem := rfl
@[simp] theorem State.noteWrite_mb (s : State) (b : Blk) (off status n : Nat) : (s.noteWrite b off status).mb n =
    s.mb n := rfl

/-- A register without a writable field ignores a write, and counts it (R47). -/
theorem State.directWrite_of_readOnly (s : State) {b : Blk} {off : Nat} (page : Nat) (v : Word)
    (h : writableMask b off = 0) : s.directWrite b off page v = (s.countErr b).noteWrite b page stOk := by
  simp [State.directWrite, h]

/-! ### COMPAT -/

theorem writableMask_compat : writableMask .bu 0x100 = 0xF := by decide

theorem State.regCheck_compat (s : State) (mask v : Word) :
    s.regCheck .bu 0x100 mask v = if s.compatOk then stOk else stStatic := if_pos ⟨rfl, rfl⟩

theorem State.countErr_compatOk (s : State) (b : Blk) : (s.countErr b).compatOk = s.compatOk := rfl

/-- A state whose page has counted a write of reserved bits, where there was one (R9). -/
def State.countReserved (s : State) (b : Blk) (off : Nat) (v : Word) : State :=
  if (v &&& ~~~(anyMask b off)) ≠ 0 then s.countErr b else s

theorem State.countReserved_frame (s : State) (b : Blk) (off : Nat) (v : Word) :
    (s.countReserved b off v).compat = s.compat ∧ (s.countReserved b off v).jobs = s.jobs ∧
    (s.countReserved b off v).hostMem = s.hostMem ∧ (s.countReserved b off v).mailboxes = s.mailboxes ∧
    (s.countReserved b off v).compatOk = s.compatOk := by
  unfold State.countReserved
  split
  · exact ⟨rfl, rfl, rfl, rfl, s.countErr_compatOk b⟩
  · exact ⟨rfl, rfl, rfl, rfl, rfl⟩

theorem State.directWrite_compat_ok {s : State} (page : Nat) (v : Word) (h : s.compatOk = true) :
    s.directWrite .bu 0x100 page v =
      ((s.countReserved .bu 0x100 v).compatSet (s.directMask .bu 0x100 v) v).noteWrite .bu page stOk := by
  by_cases hr : v &&& ~~~(anyMask .bu 0x100) = 0#32 <;>
    simp [State.directWrite, State.regIgnored, writableMask_compat, State.regCheck_compat,
      State.countErr_compatOk, State.regApply, State.countReserved, h, hr]

theorem State.directWrite_compat_refused {s : State} (page : Nat) (v : Word) (h : s.compatOk = false) :
    s.directWrite .bu 0x100 page v = (s.countErr .bu).noteWrite .bu page stStatic := by
  by_cases hr : v &&& ~~~(anyMask .bu 0x100) = 0#32 <;>
    simp [State.directWrite, State.regIgnored, writableMask_compat, State.regCheck_compat,
      State.countErr_compatOk, h, hr]

/-- Without a pending value a read of COMPAT shows COMPAT (R10). -/
theorem State.shown_compat {s : State} (h : s.pending? .bu 0x100 = (0, 0)) :
    s.shown .bu 0x100 = s.compat.setWidth 32 := by
  simp only [State.shown, State.active, h, and_self, if_true, mergeBits]
  simp only [BitVec.not_zero, BitVec.and_zero, BitVec.or_zero, BitVec.ofNat_eq_ofNat]
  exact BitVec.and_allOnes.trans (BitVec.ofNat_toNat _ _)

theorem fld_bit {n : Nat} (x : BitVec n) (i : Nat) : fld x i i = (x.getLsbD i).toNat := by
  simp [fld, bitsOf, BitVec.getLsbD, Nat.toNat_testBit, Nat.shiftRight_eq_div_pow]

theorem maskWhere_congr {p q : Fld → Bool} {fs : List Fld} (h : ∀ f ∈ fs, p f = q f) :
    maskWhere p fs = maskWhere q fs := by
  unfold maskWhere
  rw [List.map_congr_left (fun f hf => by rw [h f hf])]

/-- COMPAT has the writable one-bit fields 3, 2, 1 and 0. -/
theorem mem_fieldsOf_compat {f : Fld} (h : f ∈ fieldsOf .bu 0x100) : ∃ i < 4, f = fRw i i .s := by
  have hf : fieldsOf .bu 0x100 = [fRw 3 3 .s, fRw 2 2 .s, fRw 1 1 .s, fRw 0 0 .s] := by decide
  simp only [hf, List.mem_cons, List.not_mem_nil, or_false] at h
  obtain rfl | rfl | rfl | rfl := h
  · exact ⟨3, by decide, rfl⟩
  · exact ⟨2, by decide, rfl⟩
  · exact ⟨1, by decide, rfl⟩
  · exact ⟨0, by decide, rfl⟩

theorem maskWhere_compat (x : BitVec 4) :
    (BitVec.ofNat 32 (maskWhere (fun f => x.getLsbD f.lo) (fieldsOf .bu 0x100))).setWidth 4 = x := by
  revert x
  decide

/-- A write of COMPAT names the bits in which it differs from COMPAT (R47). -/
theorem State.directMask_compat {s : State} (v : Word) (h : s.pending? .bu 0x100 = (0, 0)) :
    (s.directMask .bu 0x100 v).setWidth 4 = v.setWidth 4 ^^^ s.compat := by
  rw [← maskWhere_compat (v.setWidth 4 ^^^ s.compat)]
  unfold State.directMask
  rw [State.shown_compat h, maskWhere_congr]
  intro f hf
  obtain ⟨i, hi, rfl⟩ := mem_fieldsOf_compat hf
  have h32 : i < 32 := by omega
  simp only [fRw, fld_bit, BitVec.getLsbD_setWidth, BitVec.getLsbD_xor, hi, h32, decide_true, Bool.true_and]
  cases v.getLsbD i <;> cases s.compat.getLsbD i <;> rfl

/-- The bits that differ, taken from the new value, give the new value. -/
theorem merge_of_xor {n : Nat} (old new : BitVec n) : (old &&& ~~~(new ^^^ old)) ||| ((new ^^^ old) &&& new) = new := by
  ext i hi
  simp only [BitVec.getElem_or, BitVec.getElem_and, BitVec.getElem_not, BitVec.getElem_xor]
  cases old[i] <;> cases new[i] <;> rfl

/-- Where the mask names the bits that change, COMPAT becomes the value written; a change of MB_V2 puts mailbox
0's indices back to 0 (R57). -/
theorem State.compatSet_of_named {s : State} {mask v : Word} (h : mask.setWidth 4 = v.setWidth 4 ^^^ s.compat) :
    s.compatSet mask v =
      if v.getLsbD 2 = s.compat.getLsbD 2 then { s with compat := v.setWidth 4 }
      else ({ s with compat := v.setWidth 4 }.setMb 0 { s.mb 0 with cmdCons := 0, prod := 0, rspProd := 0 }).setReg
        (.mb 0) 0x028 0 := by
  have hnew : (s.compat &&& ~~~(mask.setWidth 4)) ||| (mask &&& v).setWidth 4 = v.setWidth 4 := by
    rw [BitVec.setWidth_and, h, merge_of_xor]
  have hbit : (v.setWidth 4).getLsbD 2 = v.getLsbD 2 := by simp
  simp only [State.compatSet, hnew, hbit]
  rfl

theorem State.barWrite_compat {s : State} (v : Word) (hup : s.link.up = true) :
    s.barWrite 0 0x100 v = s.directWrite .bu 0x100 0x100 v :=
  State.barWrite_of_barReg v (s.barUp_zero.trans hup) rfl (fun n h => by cases h)

/-! ### The clauses -/

/-- An access that no BAR holds (R291). -/
theorem registerAccess_outside (bar off : Nat) (v : Word) (s : State) (h : barHas bar off = false) :
    exec (.registerRead bar off) s = .fault .noSuchRegister ∧
    exec (.registerWrite bar off v) s = .fault .noSuchRegister :=
  ⟨exec_registerRead_fault s h, exec_registerWrite_fault v s h⟩

/-- An access that the host's link does not carry. -/
theorem registerAccess_down {bar off : Nat} (v : Word) {s : State} (h : barHas bar off = true)
    (hup : s.barUp bar = false) :
    exec (.registerRead bar off) s = .next { s with busOut := [] } ∧ exec (.registerWrite bar off v) s = .next s ∧
    (s.link.up = false → exec (.compatWrite v) s = .next s) := by
  refine ⟨?_, ?_, fun hl => ?_⟩
  · rw [exec_registerRead s h, State.barRead_of_down off hup]
  · rw [exec_registerWrite v s h, State.barWrite_of_down off v hup]
  · rw [exec_compatWrite, State.barWrite_of_down 0x100 v (s.barUp_zero.trans hl)]

/-- A read of a register (R8, R10, R20). -/
theorem registerRead_of_barReg {bar off o : Nat} {b : Blk} {s : State} (h : barHas bar off = true)
    (hup : s.barUp bar = true) (hreg : barReg bar off = some (b, o)) :
    ∃ t : State, exec (.registerRead bar off) s = .next t ∧
      (isHighWord b o = false → t.busOut = natLE 4 (s.shown b o).toNat) ∧
      (isHighWord b o = true → t.busOut = natLE 4 (tabGet (0 : Word) s.snap (regKey b o)).toNat) ∧
      (isLowWord b o = true → isHighWord b o = false →
        tabGet (0 : Word) t.snap (regKey b (o + 4)) = s.active b (o + 4)) ∧
      t.cfg = s.cfg ∧ t.hostMem = s.hostMem ∧ t.devMem = s.devMem ∧ t.mailboxes = s.mailboxes := by
  refine ⟨_, (exec_registerRead s h).trans (congrArg _ (State.barRead_of_barReg hup hreg)), fun hh => ?_, fun hh => ?_,
    fun hl hh => State.readReg_latches hl hh, s.readReg_frame b o⟩
  · rw [State.readReg_value hh]
  · rw [State.readReg_of_high hh]

/-- A write of a register that the host may write completes; where nothing in it is writable the write counts
alone (R47). -/
theorem registerWrite_of_barReg {bar off o : Nat} {b : Blk} (v : Word) {s : State} (h : barHas bar off = true)
    (hup : s.barUp bar = true) (hreg : barReg bar off = some (b, o))
    (hmb : ∀ n, b = .mb n → n < 56) :
    ∃ t : State, exec (.registerWrite bar off v) s = .next t ∧
      (writableMask b o = 0 →
        t.cfg = s.cfg ∧ t.pend = s.pend ∧ t.mailboxes = s.mailboxes ∧ t.hostMem = s.hostMem ∧ t.devMem = s.devMem ∧
        tabGet 0 t.errcnt (blkPage b) = min 0xFFFF (tabGet 0 s.errcnt (blkPage b) + 1)) := by
  refine ⟨_, (exec_registerWrite v s h).trans (congrArg _ (State.barWrite_of_barReg v hup hreg hmb)), fun hro => ?_⟩
  rw [State.directWrite_of_readOnly s _ v hro]
  exact ⟨rfl, rfl, rfl, rfl, rfl, s.countErr_errcnt b⟩

/-- A write outside every register: the MSI-X table keeps it, anything else is lost (R291). -/
theorem registerWrite_of_barReg_none {bar off : Nat} (v : Word) {s : State} (h : barHas bar off = true)
    (hup : s.barUp bar = true) (hreg : barReg bar off = none) :
    ∃ t : State, exec (.registerWrite bar off v) s = .next t ∧ t.cfg = s.cfg ∧ t.pend = s.pend ∧
      (∀ k, k ≠ off - 0x60000 → tabGet (0 : Word) t.link.msixTab k = tabGet (0 : Word) s.link.msixTab k) ∧
      (bar = 2 → 0x60000 ≤ off → off < 0x61000 → tabGet (0 : Word) t.link.msixTab (off - 0x60000) = v) := by
  refine ⟨_, (exec_registerWrite v s h).trans (congrArg _ (State.barWrite_of_barReg_none v hup hreg)), ?_⟩
  split
  · exact ⟨rfl, rfl, fun k hk => tabGet_tabSet_ne _ _ _ hk, fun _ _ _ => tabGet_tabSet_same _ _ _ _⟩
  · next hout => exact ⟨rfl, rfl, fun _ _ => rfl, fun hb hlo hhi => absurd ⟨hb, hlo, hhi⟩ hout⟩

/-- An accepted write of COMPAT (R56, R57). -/
theorem compatWrite_accepted (v : Word) {s : State} (hup : s.link.up = true) (hok : s.compatOk = true)
    (hpend : s.pending? .bu 0x100 = (0, 0)) :
    ∃ t : State, exec (.compatWrite v) s = .next t ∧ t.compat = v.setWidth 4 ∧ t.jobs = s.jobs ∧
      t.hostMem = s.hostMem ∧
      (v.getLsbD 2 ≠ s.compat.getLsbD 2 → (t.mb 0).cmdCons = 0 ∧ (t.mb 0).prod = 0 ∧ (t.mb 0).rspProd = 0) ∧
      (v.getLsbD 2 = s.compat.getLsbD 2 → t.mailboxes = s.mailboxes) := by
  obtain ⟨hcompat, hjobs, hhost, hmbs, -⟩ := s.countReserved_frame .bu 0x100 v
  have hnamed : (s.directMask .bu 0x100 v).setWidth 4 = v.setWidth 4 ^^^ (s.countReserved .bu 0x100 v).compat := by
    rw [State.directMask_compat v hpend, hcompat]
  refine ⟨_, (exec_compatWrite v s).trans
    (congrArg _ ((State.barWrite_compat v hup).trans (State.directWrite_compat_ok 0x100 v hok))), ?_⟩
  rw [State.compatSet_of_named hnamed, hcompat]
  split
  · next heq => exact ⟨rfl, hjobs, hhost, fun hne => absurd heq hne, fun _ => hmbs⟩
  · next hne =>
    exact ⟨by simp, by simp [hjobs], by simp [hhost], fun _ => by simp, fun heq => absurd heq hne⟩

/-- A write of COMPAT while a mailbox is at work is refused with STATIC_FIELD_BUSY (R56). -/
theorem compatWrite_refused (v : Word) {s : State} (hup : s.link.up = true) (hbusy : s.compatOk = false) :
    ∃ t : State, exec (.compatWrite v) s = .next t ∧ t.compat = s.compat ∧ t.mailboxes = s.mailboxes ∧
      tabGet (0, 0) t.wstat (blkPage .bu) = (0x100, stStatic) := by
  refine ⟨(s.countErr .bu).noteWrite .bu 0x100 stStatic, ?_, rfl, rfl, State.noteWrite_wstat _ _ _ _⟩
  rw [exec_compatWrite, State.barWrite_compat v hup, State.directWrite_compat_refused 0x100 v hbusy]

/-- Settles O5, clause by clause: where the access lies, whether the link carries it, and what it names decide
its answer. -/
theorem registerAccess : Obligations.RegisterAccess := by
  unfold Obligations.RegisterAccess
  refine ⟨registerAccess_outside, fun _ _ v _ => registerAccess_down v, fun _ _ _ _ _ => registerRead_of_barReg,
    fun _ _ _ _ v _ => registerWrite_of_barReg v, fun off o n v s h hup hreg hn => ?_,
    fun _ _ v _ => registerWrite_of_barReg_none v, fun v _ => compatWrite_accepted v, fun v _ => compatWrite_refused v⟩
  rw [exec_registerWrite v s h, State.barWrite_of_pewter v hup hreg hn]

end Sys2Proof.Machine
end

section
/-! SUPPORT. The column groups that POWER_DIES powers while PWRBRK_N is asserted (R448, R485), with the refutation
of O54, and what reset leaves (R19, R56, R447, R482), with the proof of O57. -/

namespace Sys2Proof.Machine
set_option Elab.async false

/-! ### POWER_DIES under PWRBRK_N -/

/-- The state in which the body of a bring-up step begins, once its BU_STEP write is accepted (R447). -/
def State.buBegin (s : State) (code : Nat) : State :=
  let s1 := s.noteWrite .bu 0 stOk
  { s1 with bu := { s1.bu with result := 1, step := code, progress := 0, startTick := s1.tick } }

/-- An accepted step runs its body, and its outcome waits to be shown (R447, R449). -/
theorem State.buStep_of_ready {s : State} {code : Nat} (body : State → State × BuEnd) (h : s.buReady code) :
    s.buStep code body =
      { (body (s.buBegin code)).1 with
        bu := { (body (s.buBegin code)).1.bu with outcome := (body (s.buBegin code)).2 } } := by
  obtain ⟨hup, hidle, hnext, hcode, htrip, hv48⟩ := h
  simp [State.buStep, State.buBegin, hup, hidle, hnext, hcode, htrip, hv48]

/-- Hold a column group at duty 1 (R485). -/
def State.holdGrp (s : State) (g : Nat) : State := s.setGrp g { s.grp g with duty := 1, nextDuty := 1 }

theorem State.holdGrp_duty_same (s : State) (g : Nat) : ((s.holdGrp g).grp g).duty = 1 := by
  simp [State.holdGrp]

theorem State.holdGrp_keeps_held {s : State} {o : Nat} (g : Nat) (h : (s.grp o).duty = 1) :
    ((s.holdGrp g).grp o).duty = 1 := by
  by_cases ho : o = g
  · rw [ho, State.holdGrp_duty_same]
  · rw [State.holdGrp, State.setGrp_grp_ne _ _ _ ho, h]

/-- A round over groups holds each of them, and lets none go that is held. -/
theorem State.foldl_holdGrp_duty {l : List Nat} {s : State} {o : Nat} (h : o ∈ l ∨ (s.grp o).duty = 1) :
    ((l.foldl State.holdGrp s).grp o).duty = 1 := by
  induction l generalizing s with
  | nil => exact h.resolve_left List.not_mem_nil
  | cons g l ih =>
    refine ih ?_
    rcases h with hmem | hheld
    · rcases List.mem_cons.1 hmem with rfl | hl
      · exact .inr (s.holdGrp_duty_same o)
      · exact .inl hl
    · exact .inr (State.holdGrp_keeps_held g hheld)

theorem stepPowerDies_groups_of_pwrbrk (fab : BitVec 4) {s : State} (h : s.power.pwrbrk = true) :
    (stepPowerDies fab s).1.groups = ((upTo 32).foldl State.holdGrp s).groups := by
  simp only [stepPowerDies, h, if_true]
  rfl

/-- POWER_DIES while PWRBRK_N is asserted leaves every column group at duty 1 (R448, R485). -/
theorem powerDies_duty_of_pwrbrk (fab : BitVec 4) {s : State} (h : s.buReady 3) (hbrk : s.power.pwrbrk = true) :
    ∃ t : State, exec (.powerDies fab) s = .next t ∧ ∀ g, g < 32 → (t.grp g).duty = 1 := by
  refine ⟨_, congrArg Host.Outcome.next (State.buStep_of_ready (stepPowerDies fab) h), fun g hg => ?_⟩
  have hgroups := stepPowerDies_groups_of_pwrbrk fab (s := s.buBegin 3) hbrk
  have hheld : (((upTo 32).foldl State.holdGrp (s.buBegin 3)).grp g).duty = 1 :=
    State.foldl_holdGrp_duty (.inl (List.mem_range.2 hg))
  simpa [State.grp, hgroups] using hheld

/-- The module before POWER_DIES, its link up and PWRBRK_N asserted; every column group stands at full duty. -/
def brakedStart : State :=
  { State.reset with link := { up := true }, power := { perst := false, pwrbrk := true }, bu := { next := 3 } }

theorem brakedStart_ready : brakedStart.buReady 3 := ⟨rfl, by decide, rfl, by decide, rfl, rfl⟩

/-- Refutes O54: `mayGroup` does not name POWER_DIES, which holds every group it powers at duty 1 while PWRBRK_N
is asserted (R485), and so changes the groups of `brakedStart`. -/
theorem not_unitFrame : ¬ Obligations.UnitFrame := by
  unfold Obligations.UnitFrame
  rintro ⟨-, -, -, -, -, -, -, -, -, -, -, -, hgroups, -⟩
  obtain ⟨t, hexec, hduty⟩ := powerDies_duty_of_pwrbrk 0 brakedStart_ready rfl
  have hkept : t.groups = brakedStart.groups := hgroups _ _ _ hexec rfl
  have hfull : (t.grp 0).duty = 8 := by rw [State.grp, hkept]; rfl
  have hheld : (t.grp 0).duty = 1 := hduty 0 (by decide)
  omega

/-! ### Reset -/

/-- With no configuration word set, every register reads its reset value (R19). -/
theorem State.reg_of_cfg_nil {s : State} (h : s.cfg = []) (b : Blk) (off : Nat) : s.reg b off = regReset b off := by
  rw [State.reg, h]; rfl

theorem State.mb_of_mailboxes_nil {s : State} (h : s.mailboxes = []) (n : Nat) : s.mb n = {} := by
  rw [State.mb, h]; rfl

/-- A memory that lists no byte and no undefined range reads 0x00 everywhere (log 3). -/
theorem Mem.read_nil (a : Nat) : ({} : Mem).read a = 0 := rfl

/-- Settles O57: reset sets nothing but the undefined ranges of its memories, so every table reads its
default. -/
theorem resetValues : Obligations.ResetValues := by
  unfold Obligations.ResetValues
  exact ⟨rfl, rfl, rfl, rfl, State.reg_of_cfg_nil rfl, rfl, rfl, rfl, rfl, rfl, rfl, rfl, rfl, rfl, rfl,
    fun n => congrArg Mailbox.st (State.mb_of_mailboxes_nil rfl n), rfl, rfl, rfl, rfl, Mem.read_nil⟩

end Sys2Proof.Machine
end

section
/-! SUPPORT. The work of a task by its kind (R94, R96, R99, R124, R127 to R129, R237): how a core keeps the status
words of the work it ran, what LOAD and STORE move, what the hand-off of a collective leaves, and the proof of O48. -/

namespace Sys2Proof.Machine
set_option Elab.async false

/-! ### The task that a core runs -/

theorem State.running_run {s : State} {c : Nat} {x : Ctx} {t : Task} (h : s.running c = some (x, t)) :
    ∃ run, (s.core c).run = some run ∧ run.task = t := by
  unfold State.running at h
  split at h
  · cases h
  · next run hrun =>
    split at h
    · cases h
    · cases h
      exact ⟨run, hrun, rfl⟩

/-- The status words stand beside the task on its core (R144). -/
theorem State.setDone_run {s : State} {c : Nat} {run : Run} (r : Result) (h : (s.core c).run = some run) :
    ((s.setDone c r).core c).run = some { run with done := some r } := by
  simp [State.setDone, h]

@[simp] theorem State.setDone_devMem (s : State) (c : Nat) (r : Result) : (s.setDone c r).devMem = s.devMem := by
  unfold State.setDone; split <;> rfl
@[simp] theorem State.setDone_localMem (s : State) (c : Nat) (r : Result) : (s.setDone c r).localMem = s.localMem := by
  unfold State.setDone; split <;> rfl
@[simp] theorem State.setDone_hostMem (s : State) (c : Nat) (r : Result) : (s.setDone c r).hostMem = s.hostMem := by
  unfold State.setDone; split <;> rfl
@[simp] theorem State.setDone_counters (s : State) (c : Nat) (r : Result) : (s.setDone c r).counters = s.counters := by
  unfold State.setDone; split <;> rfl
@[simp] theorem State.setDone_jobs (s : State) (c : Nat) (r : Result) : (s.setDone c r).jobs = s.jobs := by
  unfold State.setDone; split <;> rfl

theorem State.runKind_of_running {s : State} {c k : Nat} {x : Ctx} {t : Task}
    (work : State → Ctx → Task → TRes (State × NumStat)) (h : s.running c = some (x, t)) (hk : t.kind = k)
    (hsec : t.sec = none) : s.runKind c k work = finishOn c (work s x t) := by
  simp [State.runKind, h, hk, hsec]

/-! ### The kinds that a core runs by itself -/

/-- The commands that run a task's work on its core, each with the task's KIND and the work of that kind (R124). -/
def taskWorks : List ((CoreId → Instr) × Nat × (State → Ctx → Task → TRes (State × NumStat))) :=
  [(.taskGemm, 0, State.gemmTask), (.taskGemmT, 1, State.gemmTask), (.taskGemmWg, 2, State.gemmTask),
    (.taskVec, 3, vecTaskRun), (.taskLoad, 4, loadTask), (.taskStore, 5, storeTask), (.taskGather, 6, gatherTask),
    (.taskSvc, 9, svcTaskRun)]

section Work
variable {mk : CoreId → Instr} {k : Nat} {work : State → Ctx → Task → TRes (State × NumStat)}

theorem exec_taskWork (c : CoreId) (s : State) (hmem : (mk, k, work) ∈ taskWorks) :
    exec (mk c) s = .next (s.runKind c.val k work) := by
  simp only [taskWorks, List.mem_cons, Prod.mk.injEq, List.not_mem_nil, or_false] at hmem
  obtain ⟨rfl, rfl, rfl⟩ | ⟨rfl, rfl, rfl⟩ | ⟨rfl, rfl, rfl⟩ | ⟨rfl, rfl, rfl⟩ | ⟨rfl, rfl, rfl⟩ | ⟨rfl, rfl, rfl⟩ |
    ⟨rfl, rfl, rfl⟩ | ⟨rfl, rfl, rfl⟩ := hmem <;> rfl

variable {c : CoreId} {s s1 : State} {x : Ctx} {t : Task}

/-- Work that succeeds leaves its NUMSTAT words and TSTATUS 0 (R79, R144). -/
theorem exec_taskWork_ok {n : NumStat} (hmem : (mk, k, work) ∈ taskWorks) (h : s.running c.val = some (x, t))
    (hk : t.kind = k) (hsec : t.sec = none) (hok : work s x t = .ok (s1, n)) :
    exec (mk c) s = .next (s1.setDone c.val { num0 := n.stat0, num1 := n.stat1 }) := by
  rw [exec_taskWork c s hmem, State.runKind_of_running work h hk hsec, hok]
  rfl

/-- Work that fails leaves its TSTATUS, and what it wrote before stands (log 42). -/
theorem exec_taskWork_error {e : Nat} (hmem : (mk, k, work) ∈ taskWorks) (h : s.running c.val = some (x, t))
    (hk : t.kind = k) (hsec : t.sec = none) (herr : work s x t = .error (s1, e)) :
    exec (mk c) s = .next (s1.setDone c.val { status := e }) := by
  rw [exec_taskWork c s hmem, State.runKind_of_running work h hk hsec, herr]
  rfl

end Work

/-! ### LOAD, STORE and GATHER bodies -/

/-- The limits of a body that the copies turn on (R128): whole lines of device memory, inside what a task may
address of its local store. -/
theorem Move.limits_of_ok {m : Move} {t : Task} (h : m.ok t = true) :
    m.dev.testBit 63 = false ∧ 64 ≤ m.len ∧ m.loc + m.len ≤ stageBase := by
  simp only [Move.ok, Bool.and_eq_true, decide_eq_true_eq, Bool.not_eq_true'] at h
  obtain ⟨⟨⟨⟨⟨⟨⟨⟨-, hspace⟩, -⟩, -⟩, hlen⟩, -⟩, -⟩, hend⟩, -⟩ := h
  exact ⟨hspace, hlen, hend⟩

theorem loadTask_of_bad {s : State} {x : Ctx} {t : Task} (h : t.moveBody.ok t = false) :
    loadTask s x t = .error (s, tsProgram) := by simp [loadTask, h]
theorem storeTask_of_bad {s : State} {x : Ctx} {t : Task} (h : t.moveBody.ok t = false) :
    storeTask s x t = .error (s, tsProgram) := by simp [storeTask, h]
theorem gatherTask_of_bad {s : State} {x : Ctx} {t : Task} (h : t.moveBody.ok t = false) :
    gatherTask s x t = .error (s, tsProgram) := by simp [gatherTask, h]

/-! ### What a task reads and writes -/

/-- A span of a given length reads back as it was written. -/
theorem Mem.readN_writeL_of_length {m : Mem} {a n : Nat} {bs : List Byte} (h : bs.length = n) :
    (m.writeL a bs).readN a n = bs := by rw [← h, Mem.readN_writeL_same]

theorem State.devRead_length {s : State} {a n : Nat} {bs : List Byte} (h : s.devRead a n = some bs) :
    bs.length = n := by
  unfold State.devRead at h
  split at h <;> split at h <;> cases h <;> exact Mem.readN_length ..

theorem State.tRead_length {s : State} {x : Ctx} {space : Bool} {a n : Nat} {bs : List Byte}
    (h : s.tRead x space a n = .ok bs) : bs.length = n := by
  unfold State.tRead at h
  split at h
  · next hn => cases h; exact hn.symm
  split at h
  · split at h <;> cases h
    exact Mem.readN_length ..
  split at h
  · cases h
  split at h
  · cases h
  next hread => cases h; exact State.devRead_length hread

theorem State.wRead_length {s : State} {x : Ctx} {w off n : Nat} {bs : List Byte}
    (h : s.wRead x w off n = .ok bs) : bs.length = n := State.tRead_length h

theorem State.tRead_local (s : State) (x : Ctx) {a n : Nat} (hn : n ≠ 0) (hend : a + n ≤ stageBase) :
    s.tRead x true a n = .ok (s.localMem.readN (localAt x.home a) n) := by
  simp [State.tRead, hn, hend]

theorem State.tWrite_local (s : State) (x : Ctx) {a : Nat} {bs : List Byte} (hbs : bs ≠ [])
    (hend : a + bs.length ≤ stageBase) :
    s.tWrite x true a bs = .ok { s with localMem := s.localMem.writeL (localAt x.home a) bs } := by
  simp [State.tWrite, hbs, hend]

theorem State.wWrite_device {s : State} {x : Ctx} {w a : Nat} {bs : List Byte} (hbs : bs ≠ [])
    (haddr : ctxAddr x w = (false, a)) (hspan : s.tSpan x a bs.length true = .ok ()) :
    s.wWrite x w 0 bs = .ok (s.devWrite a bs) := by
  simp [State.wWrite, State.tWrite, haddr, hbs, hspan]

theorem State.devWrite_devMem (s : State) (a : Nat) (bs : List Byte) :
    (s.devWrite a bs).devMem = s.devMem.writeL a bs := by
  unfold State.devWrite
  split
  · next h => rw [h]; rfl
  · rfl

/-- LOAD copies what it read to its place in the HOME's local store (R128). -/
theorem loadTask_of_read {s : State} {x : Ctx} {t : Task} {bs : List Byte} (hok : t.moveBody.ok t = true)
    (hread : s.wRead x t.moveBody.dev 0 t.moveBody.len = .ok bs) :
    loadTask s x t =
      .ok ({ s with localMem := s.localMem.writeL (localAt x.home t.moveBody.loc) bs }, {}) := by
  obtain ⟨-, hlen, hend⟩ := Move.limits_of_ok hok
  have hbs : bs.length = t.moveBody.len := State.wRead_length hread
  have hne : bs ≠ [] := List.ne_nil_of_length_pos (by omega)
  have hwrite := s.tWrite_local x hne (hbs ▸ hend)
  simp [loadTask, hok, hread, hwrite, bind, Except.bind]

/-- STORE copies a span of the HOME's local store to device memory (R128). -/
theorem storeTask_of_span {s : State} {x : Ctx} {t : Task} {a : Nat} (hok : t.moveBody.ok t = true)
    (haddr : ctxAddr x t.moveBody.dev = (false, a)) (hspan : s.tSpan x a t.moveBody.len true = .ok ()) :
    storeTask s x t =
      .ok (s.devWrite a (s.localMem.readN (localAt x.home t.moveBody.loc) t.moveBody.len), {}) := by
  obtain ⟨-, hlen, hend⟩ := Move.limits_of_ok hok
  have hread := s.tRead_local x (by omega) hend
  have hne : s.localMem.readN (localAt x.home t.moveBody.loc) t.moveBody.len ≠ [] :=
    List.ne_nil_of_length_pos (by rw [Mem.readN_length]; omega)
  have hwrite := State.wWrite_device hne haddr (by rw [Mem.readN_length]; exact hspan)
  simp [storeTask, hok, hread, hwrite, bind, Except.bind]

/-! ### The hand-off of a collective -/

@[simp] theorem State.onJob_devMem (s : State) (j : Nat) (f : Job → Job) : (s.onJob j f).devMem = s.devMem := by
  unfold State.onJob; split <;> rfl
@[simp] theorem State.onJob_hostMem (s : State) (j : Nat) (f : Job → Job) : (s.onJob j f).hostMem = s.hostMem := by
  unfold State.onJob; split <;> rfl
@[simp] theorem State.onJob_counters (s : State) (j : Nat) (f : Job → Job) : (s.onJob j f).counters = s.counters := by
  unfold State.onJob; split <;> rfl
@[simp] theorem State.onJob_cores (s : State) (j : Nat) (f : Job → Job) : (s.onJob j f).cores = s.cores := by
  unfold State.onJob; split <;> rfl

theorem ok_of_bind_ok {ε α β : Type} {e : Except ε α} {f : α → Except ε β} {b : β}
    (h : (e >>= f) = .ok b) : ∃ a, e = .ok a ∧ f a = .ok b := by
  cases e with
  | error _ => cases h
  | ok a => exact ⟨a, rfl, h⟩

/-- An accepted hand-off changes its job alone: the collective is entered there, and where its placement may not
start yet the layer or its gather record notes the wait (R161, R220, R229). -/
theorem State.handOff_changes_job {s s1 : State} {x : Ctx} {j a version : Nat} {skip : Bool}
    (h : s.handOff x j a version skip = .ok s1) :
    ∃ f, s1 = s.onJob j f ∨ ∃ g, s1 = (s.onJob j f).onJob j g := by
  unfold State.handOff at h
  split at h
  · cases h
  next y _ =>
    obtain ⟨desc, -, h⟩ := ok_of_bind_ok h
    dsimp only at h
    split at h
    · cases h
    · obtain ⟨members, -, h⟩ := ok_of_bind_ok h
      obtain ⟨lengths, -, h⟩ := ok_of_bind_ok h
      split at h
      · cases h
      · split at h
        · cases h
          exact ⟨_, .inl rfl⟩
        · split at h <;> cases h <;> exact ⟨_, .inr ⟨_, rfl⟩⟩

theorem State.handOff_frame {s s1 : State} {x : Ctx} {j a version : Nat} {skip : Bool}
    (h : s.handOff x j a version skip = .ok s1) :
    s1.devMem = s.devMem ∧ s1.hostMem = s.hostMem ∧ s1.counters = s.counters ∧ s1.cores = s.cores := by
  obtain ⟨f, rfl | ⟨g, rfl⟩⟩ := State.handOff_changes_job h <;> simp

section Coll
variable {c : CoreId} {s : State} {x : Ctx} {t : Task} {j : Nat}

theorem exec_taskColl_accepted {s1 : State} {bs : List Byte} {y : Job} (h : s.running c.val = some (x, t))
    (howner : t.owner = .job j) (hk : t.kind = 7) (hsec : t.sec = none) (h6 : t.word 6 = 0) (h7 : t.word 7 = 0)
    (hid : s.wRead x (t.word 5) 48 8 = .ok bs) (hj : s.job? j = some y) (hfree : tabFind y.colls (leNat bs) = none)
    (hoff : s.handOff x j (t.word 5) 0 false = .ok s1) :
    exec (.taskColl c) s = .next (s1.setDone c.val {}) := by
  change execTaskColl c s = _
  simp [execTaskColl, h, howner, hk, hsec, h6, h7, hid, hj, hfree, hoff]

theorem exec_taskColl_reserved (h : s.running c.val = some (x, t)) (howner : t.owner = .job j) (hk : t.kind = 7)
    (hsec : t.sec = none) (hres : t.word 6 ≠ 0 ∨ t.word 7 ≠ 0) :
    exec (.taskColl c) s = .next (s.setDone c.val { status := tsProgram }) := by
  change execTaskColl c s = _
  simp [execTaskColl, h, howner, hk, hsec, hres]

end Coll

/-! ### The clauses -/

theorem taskLoad_moves {c : CoreId} {s : State} {x : Ctx} {t : Task} {bs : List Byte}
    (h : s.running c.val = some (x, t)) (hk : t.kind = 4) (hsec : t.sec = none) (hok : t.moveBody.ok t = true)
    (hread : s.wRead x t.moveBody.dev 0 t.moveBody.len = .ok bs) :
    ∃ (u : State) (r : Run), exec (.taskLoad c) s = .next u ∧
      u.localMem.readN (localAt x.home t.moveBody.loc) bs.length = bs ∧
      (∀ b, b < localAt x.home t.moveBody.loc ∨ localAt x.home t.moveBody.loc + bs.length ≤ b →
        u.localMem.read b = s.localMem.read b) ∧
      (u.core c.val).run = some r ∧ r.task = t ∧ r.done = some {} ∧ u.devMem = s.devMem ∧ u.hostMem = s.hostMem ∧
      u.counters = s.counters ∧ u.jobs = s.jobs := by
  obtain ⟨run, hrun, htask⟩ := State.running_run h
  refine ⟨_, _, exec_taskWork_ok (by simp [taskWorks]) h hk hsec (loadTask_of_read hok hread), ?_, fun b hb => ?_,
    State.setDone_run _ hrun, htask, rfl, ?_, ?_, ?_, ?_⟩
  · rw [State.setDone_localMem, Mem.readN_writeL_same]
  · rw [State.setDone_localMem, Mem.read_writeL_outside _ _ _ _ hb]
  all_goals simp

theorem taskStore_moves {c : CoreId} {s : State} {x : Ctx} {t : Task} {a : Nat}
    (h : s.running c.val = some (x, t)) (hk : t.kind = 5) (hsec : t.sec = none) (hok : t.moveBody.ok t = true)
    (haddr : ctxAddr x t.moveBody.dev = (false, a)) (hspan : s.tSpan x a t.moveBody.len true = .ok ()) :
    ∃ (u : State) (r : Run), exec (.taskStore c) s = .next u ∧
      u.devMem.readN a t.moveBody.len = s.localMem.readN (localAt x.home t.moveBody.loc) t.moveBody.len ∧
      (∀ b, b < a ∨ a + t.moveBody.len ≤ b → u.devMem.read b = s.devMem.read b) ∧
      (u.core c.val).run = some r ∧ r.task = t ∧ r.done = some {} ∧ u.localMem = s.localMem ∧ u.hostMem = s.hostMem ∧
      u.counters = s.counters ∧ u.jobs = s.jobs := by
  obtain ⟨run, hrun, htask⟩ := State.running_run h
  have hlen := s.localMem.readN_length (localAt x.home t.moveBody.loc) t.moveBody.len
  refine ⟨_, _, exec_taskWork_ok (by simp [taskWorks]) h hk hsec (storeTask_of_span hok haddr hspan), ?_,
    fun b hb => ?_, State.setDone_run _ ((congrArg CoreS.run (State.devWrite_core ..)).trans hrun), htask, rfl,
    ?_, ?_, ?_, ?_⟩
  · rw [State.setDone_devMem, State.devWrite_devMem]
    exact Mem.readN_writeL_of_length hlen
  · rw [State.setDone_devMem, State.devWrite_devMem, Mem.read_writeL_outside _ _ _ _ (hlen.symm ▸ hb)]
  all_goals simp

/-- A body that breaks its limits fails the task with PROGRAM_FAULT before it moves anything (R128). -/
theorem taskMove_refused {mk : CoreId → Instr} {c : CoreId} {s : State} {x : Ctx} {t : Task}
    (hmk : mk ∈ ([.taskLoad, .taskStore, .taskGather] : List (CoreId → Instr)))
    (h : s.running c.val = some (x, t)) (hsec : t.sec = none) (hload : mk = .taskLoad → t.kind = 4)
    (hstore : mk = .taskStore → t.kind = 5) (hgather : mk = .taskGather → t.kind = 6)
    (hbad : t.moveBody.ok t = false) :
    exec (mk c) s = .next (s.setDone c.val { status := tsProgram }) := by
  simp only [List.mem_cons, List.not_mem_nil, or_false] at hmk
  obtain rfl | rfl | rfl := hmk
  · exact exec_taskWork_error (by simp [taskWorks]) h (hload rfl) hsec (loadTask_of_bad hbad)
  · exact exec_taskWork_error (by simp [taskWorks]) h (hstore rfl) hsec (storeTask_of_bad hbad)
  · exact exec_taskWork_error (by simp [taskWorks]) h (hgather rfl) hsec (gatherTask_of_bad hbad)

/-- Settles O48: every kind's command is its work followed by the status words, so the clauses on LOAD, STORE and
GATHER follow from what that work answers; COLL answers as its hand-off does. -/
theorem taskKinds : Obligations.TaskKinds := by
  unfold Obligations.TaskKinds
  refine ⟨fun mk k work c s x t hmem h hk hsec =>
      ⟨fun s1 n => exec_taskWork_ok hmem h hk hsec, fun s1 e => exec_taskWork_error hmem h hk hsec⟩,
    ?_, ?_, fun _ _ _ _ _ => taskMove_refused, ?_, fun _ _ _ _ _ => exec_taskColl_reserved⟩
  · rintro c s x t _ bs h hk hsec rfl hok hread
    exact taskLoad_moves h hk hsec hok hread
  · rintro c s x t _ a h hk hsec rfl hok haddr hspan
    exact taskStore_moves h hk hsec hok haddr hspan
  · intro c s s1 x t j bs y h howner hk hsec h6 h7 hid hj hfree hoff
    exact ⟨exec_taskColl_accepted h howner hk hsec h6 h7 hid hj hfree hoff, State.handOff_frame hoff⟩

end Sys2Proof.Machine
end

section
/-! SUPPORT. The update instructions and matrix steps (R183 to R190, R200, R202 to R207): what a core keeps of the
instruction it ran, what each instruction answers, and the proof of O50. -/

namespace Sys2Proof.Machine

/-! ### The rows -/

/-- The element instructions that work lane by lane, each with its opcode (R184). -/
def updLaneRows : List ((CoreId → UpdFields → Instr) × Nat) :=
  [(.updAdd, 0x08), (.updSub, 0x09), (.updMul, 0x0A), (.updFma, 0x0B), (.updDiv, 0x0C), (.updSqrt, 0x0D),
    (.updRsqrt, 0x0E), (.updAbs, 0x0F), (.updSign, 0x10), (.updMax, 0x11), (.updMin, 0x12), (.updClamp, 0x13),
    (.updSel, 0x14), (.updExp, 0x15), (.updLog, 0x16)]
/-- The reductions (R190). -/
def updSumRows : List ((CoreId → UpdFields → Instr) × Nat) := [(.updSumsq, 0x20), (.updNorm2, 0x21)]
/-- The matrix steps (R202). -/
def updMatrixRows : List ((CoreId → UpdFields → Instr) × Nat) :=
  [(.mstepGram, 0x30), (.mstepOrth, 0x31), (.mstepInv, 0x32), (.mstepIroot, 0x33)]
/-- The commands that run one instruction of an update's program. -/
def updRows : List ((CoreId → UpdFields → Instr) × Nat) :=
  [(.updNop, 0x00), (.updLd, 0x01), (.updSt, 0x02)] ++ updLaneRows ++ [(.updCvt, 0x17)] ++ updSumRows ++ updMatrixRows ++
    [(.updEnd, 0x3F)]

theorem updLaneRows_opcode : ∀ p ∈ updLaneRows, 0x08 ≤ p.2 ∧ p.2 ≤ 0x16 := by decide
theorem updSumRows_opcode : ∀ p ∈ updSumRows, p.2 = 0x20 ∨ p.2 = 0x21 := by decide
theorem updMatrixRows_opcode : ∀ p ∈ updMatrixRows, 0x30 ≤ p.2 ∧ p.2 ≠ 0x3F := by decide

theorem exec_updRow {mk : CoreId → UpdFields → Instr} {op : Nat} (c : CoreId) (f : UpdFields) (s : State)
    (hmem : (mk, op) ∈ updRows) : exec (mk c f) s = .next (s.updRow c.val op f) := by
  have hall : ∀ p ∈ updRows, exec (p.1 c f) s = .next (s.updRow c.val p.2 f) := by
    simp only [updRows, updLaneRows, updSumRows, updMatrixRows, List.cons_append, List.nil_append,
      List.forall_mem_cons, List.not_mem_nil, false_implies, implies_true, and_true]
    and_intros <;> rfl
  exact hall _ hmem

/-! ### The section that a core runs -/

theorem State.ctxOf_core (s : State) (c : Nat) (t : Task) : (s.ctxOf c t).core = c := by
  unfold State.ctxOf
  split <;> split <;> rfl

theorem State.onSection_running {s : State} {c j l i : Nat} {x : Ctx} (h : s.onSection c = some (x, j, l, i)) :
    ∃ t, s.running c = some (x, t) := by
  unfold State.onSection at h
  split at h
  · cases h
  next x' t hrun =>
    split at h <;> cases h
    exact ⟨t, hrun⟩

theorem State.running_core {s : State} {c : Nat} {x : Ctx} {t : Task} (h : s.running c = some (x, t)) :
    x.core = c := by
  unfold State.running at h
  split at h
  · cases h
  split at h <;> cases h
  exact s.ctxOf_core c _

/-- A section that has begun goes on from its core's registers, slots and place (R186). -/
theorem State.secRun_begun {s s1 : State} {x : Ctx} {j l i : Nat} {r : SecRun}
    (hon : (s.core x.core).upd.on = true) (h : s.secRun x j l i = .ok (s1, r)) :
    r.u = (s.core x.core).upd ∧ r.fin = false := by
  unfold State.secRun at h
  dsimp only at h
  split at h
  · cases h
  · obtain ⟨eb, -, h⟩ := ok_of_bind_ok h
    obtain ⟨hb, -, h⟩ := ok_of_bind_ok h
    obtain ⟨pb, -, h⟩ := ok_of_bind_ok h
    rw [if_pos hon, if_pos hon] at h
    cases h
    exact ⟨rfl, rfl⟩

/-- The state that keeps on a core how far its section has got. -/
def State.keepSec (s : State) (c : Nat) (u : UpdCtx) : State := s.setCore c { s.core c with upd := u }

@[simp] theorem State.keepSec_upd (s : State) (c : Nat) (u : UpdCtx) : ((s.keepSec c u).core c).upd = u := by
  simp [State.keepSec]
@[simp] theorem State.keepSec_run (s : State) (c : Nat) (u : UpdCtx) :
    ((s.keepSec c u).core c).run = (s.core c).run := by simp [State.keepSec]
@[simp] theorem State.keepSec_devMem (s : State) (c : Nat) (u : UpdCtx) : (s.keepSec c u).devMem = s.devMem := rfl
@[simp] theorem State.keepSec_localMem (s : State) (c : Nat) (u : UpdCtx) : (s.keepSec c u).localMem = s.localMem := rfl
@[simp] theorem State.keepSec_jobs (s : State) (c : Nat) (u : UpdCtx) : (s.keepSec c u).jobs = s.jobs := rfl
@[simp] theorem State.keepSec_counters (s : State) (c : Nat) (u : UpdCtx) : (s.keepSec c u).counters = s.counters := rfl

section SecAt
variable {s s1 : State} {c : Nat} {r q : SecRun}

theorem State.secAt_run (h : s.secAt c r) : ∃ run, (s.core c).run = some run := by
  obtain ⟨x, j, l, i, hsec, -, -⟩ := h
  obtain ⟨t, hrun⟩ := State.onSection_running hsec
  obtain ⟨run, hr, -⟩ := State.running_run hrun
  exact ⟨run, hr⟩

theorem State.secAt_begun (h : s.secAt c r) : r.u = (s.core c).upd ∧ r.fin = false := by
  obtain ⟨x, j, l, i, hsec, hon, hr⟩ := h
  obtain ⟨t, hrun⟩ := State.onSection_running hsec
  obtain rfl := State.running_core hrun
  exact State.secRun_begun hon hr

theorem State.updRow_of_secAt (op : Nat) (f : UpdFields) (h : s.secAt c r) :
    s.updRow c op f = secNote c (r.step s op f) := by
  obtain ⟨x, j, l, i, hsec, -, hr⟩ := h
  simp [State.updRow, hsec, hr]

theorem State.keepSec_of_begun (h : s.secAt c r) : (s.keepSec c r.u).core c = s.core c := by
  obtain ⟨hu, -⟩ := State.secAt_begun h
  simp [State.keepSec, hu]

theorem secNote_of_going (h : q.fin = false) : secNote c (.ok (s1, q)) = s1.keepSec c q.u := by
  simp [secNote, h, State.keepSec]

theorem secNote_of_ended (h : q.fin = true) : secNote c (.ok (s1, q)) = (s1.keepSec c q.u).setDone c {} := by
  simp [secNote, h, State.keepSec]

end SecAt

section Exec
variable {mk : CoreId → UpdFields → Instr} {op : Nat} {c : CoreId} {f : UpdFields} {s s1 : State} {r q : SecRun}

theorem exec_updRow_of_secAt (hmem : (mk, op) ∈ updRows) (h : s.secAt c.val r) :
    exec (mk c f) s = .next (secNote c.val (r.step s op f)) := by
  rw [exec_updRow c f s hmem, State.updRow_of_secAt op f h]

theorem exec_updRow_going (hmem : (mk, op) ∈ updRows) (h : s.secAt c.val r) (hstep : r.step s op f = .ok (s1, q))
    (hfin : q.fin = false) : exec (mk c f) s = .next (s1.keepSec c.val q.u) := by
  rw [exec_updRow_of_secAt hmem h, hstep, secNote_of_going hfin]

theorem exec_updRow_ended (hmem : (mk, op) ∈ updRows) (h : s.secAt c.val r) (hstep : r.step s op f = .ok (s1, q))
    (hfin : q.fin = true) : exec (mk c f) s = .next ((s1.keepSec c.val q.u).setDone c.val {}) := by
  rw [exec_updRow_of_secAt hmem h, hstep, secNote_of_ended hfin]

end Exec

/-! ### Block registers -/

/-- An element instruction has written a block register (R186). -/
def UpdCtx.setReg (u : UpdCtx) (d : Nat) (vs : List Word) : UpdCtx := { u with v := tabSet u.v d vs, elems := true }

@[simp] theorem UpdCtx.setReg_reg_same (u : UpdCtx) (d : Nat) (vs : List Word) : (u.setReg d vs).reg d = vs := by
  simp [UpdCtx.reg, UpdCtx.setReg]
theorem UpdCtx.setReg_reg_ne (u : UpdCtx) {d z : Nat} (vs : List Word) (h : z ≠ d) :
    (u.setReg d vs).reg z = u.reg z := by
  simp [UpdCtx.reg, UpdCtx.setReg, tabFind_tabSet_ne _ _ h]

/-! ### What an instruction answers -/

section Step
variable {op : Nat} {f : UpdFields} {s s1 : State} {r : SecRun}

theorem SecRun.step_of_bad (h : updOk op f = false) : r.step s op f = .error (s, tsProgram) := by
  simp [SecRun.step, h]

theorem SecRun.step_nop (h : updOk 0x00 f = true) : r.step s 0x00 f = .ok (s, r) := by simp [SecRun.step, h]

/-- The values that a lane-by-lane instruction gives (R184). -/
def SecRun.laneValues (r : SecRun) (op : Nat) (f : UpdFields) : List Word :=
  (upTo 1024).map (fun l => updLane op ((r.src f f.a.val).getD l 0) ((r.src f f.b.val).getD l 0)
    ((r.src f f.c.val).getD l 0))

theorem SecRun.laneValues_getElem (r : SecRun) (op : Nat) (f : UpdFields) {l : Nat} (h : l < 1024) :
    (r.laneValues op f)[l]? = some (updLane op ((r.src f f.a.val).getD l 0) ((r.src f f.b.val).getD l 0)
      ((r.src f f.c.val).getD l 0)) := by
  simp [SecRun.laneValues, upTo, h]

theorem SecRun.step_lanes (hlo : 0x08 ≤ op) (hhi : op ≤ 0x16) (h : updOk op f = true) :
    r.step s op f = .ok (s, { r with u := r.u.setReg f.d.val (r.laneValues op f) }) := by
  have h0 : op ≠ 0 := by omega
  have hmem : ¬(op = 1 ∨ op = 2) := by omega
  have hsum : ¬(op = 0x20 ∨ op = 0x21) := by omega
  have hmat : ¬0x30 ≤ op := by omega
  have hcvt : op ≠ 0x17 := by omega
  simp [SecRun.step, h, h0, hmem, hsum, hmat, hcvt, UpdCtx.setReg, SecRun.laneValues]

theorem SecRun.step_cvt (h : updOk 0x17 f = true) : r.step s 0x17 f =
    .ok (s, { r with u := r.u.setReg f.d.val (updCvtLanes (f.imm.toNat % 16) (r.src f f.a.val)) }) := by
  simp [SecRun.step, h, UpdCtx.setReg]

theorem SecRun.step_ld {bs : List Byte} (h : updOk 0x01 f = true)
    (hread : s.wRead r.x (r.sec.plane (f.imm.toNat % 16)) (4096 * r.u.block) (4 * r.count) = .ok bs) :
    r.step s 0x01 f =
      .ok (s, { r with u := r.u.setReg f.d.val (wordsLE bs r.count ++ List.replicate (1024 - r.count) 0) }) := by
  simp [SecRun.step, h, SecRun.ldst, hread, bind, Except.bind, Except.map, UpdCtx.setReg]

/-- ST has stored values of which `n` are not finite and count (R189). -/
def UpdCtx.stored (u : UpdCtx) (n : Nat) : UpdCtx := { u with nonfin := u.nonfin + n, elems := true }

theorem UpdCtx.stored_reg (u : UpdCtx) (n z : Nat) : (u.stored n).reg z = u.reg z := rfl

theorem SecRun.step_st_plane {vs : List Word} (h : updOk 0x02 f = true) (hcode : f.imm.toNat % 16 ≠ 7)
    (hvs : vs = (r.src f f.a.val).take r.count)
    (hwrite : s.wWrite r.x (r.sec.plane (f.imm.toNat % 16)) (4096 * r.u.block)
      (vs.flatMap (fun v => natLE 4 v.toNat)) = .ok s1) :
    r.step s 0x02 f =
      .ok (s1, { r with u := r.u.stored (if f.imm.toNat % 16 = 0 then countNonfin vs else 0) }) := by
  subst hvs
  by_cases h0 : f.imm.toNat % 16 = 0
  · rw [h0] at hwrite
    simp [SecRun.step, h, SecRun.ldst, h0, hwrite, bind, Except.bind, Except.map, UpdCtx.stored]
  · simp [SecRun.step, h, SecRun.ldst, hcode, h0, hwrite, bind, Except.bind, Except.map, UpdCtx.stored]

theorem SecRun.step_st_layer {vs : List Word} (h : updOk 0x02 f = true) (hcode : f.imm.toNat % 16 = 7)
    (hvs : vs = (r.src f f.a.val).take r.count)
    (hwrite : (r.sec.cParts r.u.block vs).foldlM (fun st p => st.tWrite r.x false (r.dst + p.1) p.2) s = .ok s1) :
    r.step s 0x02 f = .ok (s1, { r with u := r.u.stored (countNonfin vs) }) := by
  subst hvs
  simp [SecRun.step, h, SecRun.ldst, hcode, hwrite, bind, Except.bind, Except.map, UpdCtx.stored]

/-- A reduction before the section's last block adds the block's sum and goes on (R190; log 53). -/
theorem SecRun.step_sum_going (hop : op = 0x20 ∨ op = 0x21) (h : updOk op f = true) (hlast : r.lastBlock = false) :
    r.step s op f = .ok (SecRun.nextBlock
      { r with u := { r.u with acc := add32 r.u.acc (sumSq ((r.src f f.a.val).take r.count)), elems := true } } s) := by
  rcases hop with rfl | rfl <;> simp [SecRun.step, h, hlast]

/-- After the last block it writes its slot, SUMSQ the sum and NORM2 its root (R190; log 53). -/
theorem SecRun.step_sum_last {acc : Word} (hop : op = 0x20 ∨ op = 0x21) (h : updOk op f = true)
    (hlast : r.lastBlock = true) (hacc : acc = add32 r.u.acc (sumSq ((r.src f f.a.val).take r.count))) :
    r.step s op f = .ok (SecRun.endSweep
      { r with u := { r.u with acc := 0, p := r.u.p.set (f.d.val - 16) (if op = 0x21 then sqrt32 acc else acc) } }
      s) := by
  subst hacc
  rcases hop with rfl | rfl <;> simp [SecRun.step, h, hlast]

/-- A matrix step or END that closes a block of elements goes on to the next block (R186). -/
theorem SecRun.step_closing_block (hop : 0x30 ≤ op) (h : updOk op f = true) (helems : r.u.elems = true)
    (hlast : r.lastBlock = false) : r.step s op f = .ok (r.nextBlock s) := by
  have h0 : op ≠ 0 := by omega
  have hmem : ¬(op = 1 ∨ op = 2) := by omega
  have hsum : ¬(op = 0x20 ∨ op = 0x21) := by omega
  simp [SecRun.step, h, h0, hmem, hsum, hop, helems, hlast]

/-- A matrix step with no element instruction before it acts at once (R202; log 34). -/
theorem SecRun.step_matrix (hop : 0x30 ≤ op) (hend : op ≠ 0x3F) (h : updOk op f = true)
    (helems : r.u.elems = false) : r.step s op f = r.matrix s op f := by
  have h0 : op ≠ 0 := by omega
  have hmem : ¬(op = 1 ∨ op = 2) := by omega
  have hsum : ¬(op = 0x20 ∨ op = 0x21) := by omega
  simp [SecRun.step, h, h0, hmem, hsum, hop, hend, helems]

theorem SecRun.matrix_of_some {ys : List Word} (hres : r.matrixOf s op f = .ok (some ys))
    (hwrite : r.writePlane s (bitsOf f.imm.toNat 7 4) ys = .ok s1) :
    r.matrix s op f =
      .ok (s1, { r with u := { r.u with secflags := r.u.secflags ||| 2 ^ bitsOf f.imm.toNat 7 4 } }) := by
  simp [SecRun.matrix, hres, hwrite, bind, Except.bind]

/-- The fallback onto a destination that was written before leaves the planes as they are (R207). -/
theorem SecRun.matrix_of_none (hres : r.matrixOf s op f = .ok none)
    (hset : r.u.secflags.testBit (bitsOf f.imm.toNat 7 4) = true) :
    r.matrix s op f = .ok (s, { r with u :=
      { r.u with secflags := r.u.secflags ||| 2 ^ 15, lastFb := true, fallbacks := r.u.fallbacks + 1 } }) := by
  simp [SecRun.matrix, hres, hset, bind, Except.bind]

/-- END after the last block, or with no element instruction before it, ends the section (R186; log 34). -/
theorem SecRun.step_end_done (h : updOk 0x3F f = true) (hdone : r.u.elems = false ∨ r.lastBlock = true) :
    ∃ s1 q, r.step s 0x3F f = .ok (s1, q) ∧ q.fin = true ∧ s1.cores = s.cores ∧ s1.devMem = s.devMem ∧
      s1.localMem = s.localMem ∧ s1.jobs = s.jobs := by
  cases helems : r.u.elems with
  | false => exact ⟨s, { r with fin := true }, by simp [SecRun.step, h, helems], rfl, rfl, rfl, rfl, rfl⟩
  | true =>
    have hlast : r.lastBlock = true := hdone.resolve_left (by simp [helems])
    exact ⟨(r.endSweep s).1, { (r.endSweep s).2 with fin := true },
      by simp [SecRun.step, h, helems, hlast], rfl, rfl, rfl, rfl, rfl⟩

end Step

/-! ### What a store leaves unchanged -/

theorem State.tWrite_counters {s s1 : State} {x : Ctx} {space : Bool} {a : Nat} {bs : List Byte}
    (h : s.tWrite x space a bs = .ok s1) : s1.counters = s.counters := by
  unfold State.tWrite at h
  split at h
  · cases h; rfl
  split at h
  · split at h <;> cases h
    rfl
  split at h <;> cases h
  exact s.devWrite_counters a bs

theorem State.wWrite_counters {s s1 : State} {x : Ctx} {w off : Nat} {bs : List Byte}
    (h : s.wWrite x w off bs = .ok s1) : s1.counters = s.counters := State.tWrite_counters h

theorem State.tWrites_counters {x : Ctx} {dst : Nat} {ps : List (Nat × List Byte)} {s s1 : State}
    (h : ps.foldlM (fun st p => st.tWrite x false (dst + p.1) p.2) s = .ok s1) : s1.counters = s.counters := by
  induction ps generalizing s with
  | nil => cases h; rfl
  | cons p ps ih =>
    rw [List.foldlM_cons] at h
    obtain ⟨s2, hp, hps⟩ := ok_of_bind_ok h
    exact (ih hps).trans (State.tWrite_counters hp)

/-! ### The clauses -/

section Clauses
variable {mk : CoreId → UpdFields → Instr} {op : Nat} {c : CoreId} {f : UpdFields} {s s1 : State} {r : SecRun}

/-- An instruction that answers a block register changes that register and nothing else that it shows. -/
theorem updRow_writes_reg {vs : List Word} (hmem : (mk, op) ∈ updRows) (h : s.secAt c.val r)
    (hstep : r.step s op f = .ok (s, { r with u := r.u.setReg f.d.val vs })) :
    ∃ t : State, exec (mk c f) s = .next t ∧ (t.core c.val).upd.reg f.d.val = vs ∧
      (∀ z, z ≠ f.d.val → (t.core c.val).upd.reg z = r.u.reg z) ∧ (t.core c.val).upd.p = r.u.p ∧
      (t.core c.val).upd.block = r.u.block ∧ (t.core c.val).upd.elems = true ∧ (t.core c.val).run = (s.core c.val).run ∧
      t.devMem = s.devMem ∧ t.localMem = s.localMem ∧ t.jobs = s.jobs ∧ t.counters = s.counters := by
  obtain ⟨-, hfin⟩ := State.secAt_begun h
  refine ⟨_, exec_updRow_going hmem h hstep hfin, ?_, fun z hz => ?_, ?_, ?_, ?_, s.keepSec_run _ _, rfl, rfl, rfl, rfl⟩
  · rw [State.keepSec_upd, UpdCtx.setReg_reg_same]
  · rw [State.keepSec_upd, UpdCtx.setReg_reg_ne _ _ hz]
  all_goals rw [State.keepSec_upd]; rfl

/-- ST shows what its write left, and counts what is not finite. -/
theorem updSt_stores {n : Nat} (h : s.secAt c.val r) (hstep : r.step s 0x02 f = .ok (s1, { r with u := r.u.stored n }))
    (hctr : s1.counters = s.counters) :
    ∃ t : State, exec (.updSt c f) s = .next t ∧ t.devMem = s1.devMem ∧ t.localMem = s1.localMem ∧
      (∀ z, (t.core c.val).upd.reg z = r.u.reg z) ∧ (t.core c.val).upd.nonfin = r.u.nonfin + n ∧
      (t.core c.val).upd.block = r.u.block ∧ t.counters = s.counters := by
  obtain ⟨-, hfin⟩ := State.secAt_begun h
  refine ⟨_, exec_updRow_going (by simp [updRows]) h hstep hfin, rfl, rfl, fun z => ?_, ?_, ?_, hctr⟩
  · rw [State.keepSec_upd, UpdCtx.stored_reg]
  all_goals rw [State.keepSec_upd]; rfl

theorem updSum_adds {acc : Word} (hmem : (mk, op) ∈ updSumRows) (h : s.secAt c.val r) (hok : updOk op f = true)
    (hacc : acc = add32 r.u.acc (sumSq ((r.src f f.a.val).take r.count))) :
    ∃ t : State, exec (mk c f) s = .next t ∧ t.devMem = s.devMem ∧ t.localMem = s.localMem ∧ t.jobs = s.jobs ∧
      (r.lastBlock = false → (t.core c.val).upd.acc = acc ∧ (t.core c.val).upd.block = r.u.block + 1 ∧
        (t.core c.val).upd.p = r.u.p) ∧
      (r.lastBlock = true → (t.core c.val).upd.acc = 0 ∧ (t.core c.val).upd.block = 0 ∧
        (t.core c.val).upd.p = r.u.p.set (f.d.val - 16) (if op = 0x21 then sqrt32 acc else acc)) := by
  obtain ⟨-, hfin⟩ := State.secAt_begun h
  have hrow : (mk, op) ∈ updRows := by simp [updRows, hmem]
  have hop := updSumRows_opcode _ hmem
  cases hlast : r.lastBlock with
  | false =>
    refine ⟨_, exec_updRow_going hrow h (SecRun.step_sum_going hop hok hlast) hfin, rfl, rfl, rfl, fun _ => ?_, nofun⟩
    rw [State.keepSec_upd, hacc]
    exact ⟨rfl, rfl, rfl⟩
  | true =>
    refine ⟨_, exec_updRow_going hrow h (SecRun.step_sum_last hop hok hlast hacc) hfin, rfl, rfl, rfl, nofun, fun _ => ?_⟩
    rw [State.keepSec_upd]
    exact ⟨rfl, rfl, rfl⟩

theorem updRow_closes_block (hmem : (mk, op) ∈ updRows) (hop : 0x30 ≤ op) (h : s.secAt c.val r)
    (hok : updOk op f = true) (helems : r.u.elems = true) (hlast : r.lastBlock = false) :
    ∃ t : State, exec (mk c f) s = .next t ∧ (t.core c.val).upd.block = r.u.block + 1 ∧
      (t.core c.val).run = (s.core c.val).run ∧ t.devMem = s.devMem ∧ t.localMem = s.localMem ∧ t.jobs = s.jobs := by
  obtain ⟨-, hfin⟩ := State.secAt_begun h
  refine ⟨_, exec_updRow_going hmem h (SecRun.step_closing_block hop hok helems hlast) hfin, ?_, ?_, rfl, rfl, rfl⟩
  · exact congrArg UpdCtx.block (State.keepSec_upd ..)
  · exact State.keepSec_run ..

theorem updMatrix_writes {ys : List Word} (hmem : (mk, op) ∈ updMatrixRows) (h : s.secAt c.val r)
    (hok : updOk op f = true) (helems : r.u.elems = false) (hres : r.matrixOf s op f = .ok (some ys))
    (hwrite : r.writePlane s (bitsOf f.imm.toNat 7 4) ys = .ok s1) :
    ∃ t : State, exec (mk c f) s = .next t ∧ t.devMem = s1.devMem ∧ t.localMem = s1.localMem ∧
      (t.core c.val).upd.secflags = r.u.secflags ||| 2 ^ bitsOf f.imm.toNat 7 4 ∧
      (t.core c.val).upd.fallbacks = r.u.fallbacks := by
  obtain ⟨hop, hend⟩ := updMatrixRows_opcode _ hmem
  obtain ⟨-, hfin⟩ := State.secAt_begun h
  have hstep := (SecRun.step_matrix hop hend hok helems).trans (SecRun.matrix_of_some hres hwrite)
  refine ⟨_, exec_updRow_going (by simp [updRows, hmem]) h hstep hfin, rfl, rfl, ?_⟩
  rw [State.keepSec_upd]
  exact ⟨rfl, rfl⟩

theorem updMatrix_falls_back (hmem : (mk, op) ∈ updMatrixRows) (h : s.secAt c.val r)
    (hok : updOk op f = true) (helems : r.u.elems = false) (hres : r.matrixOf s op f = .ok none)
    (hset : r.u.secflags.testBit (bitsOf f.imm.toNat 7 4) = true) :
    ∃ t : State, exec (mk c f) s = .next t ∧ t.devMem = s.devMem ∧ t.localMem = s.localMem ∧
      (t.core c.val).upd.secflags = r.u.secflags ||| 2 ^ 15 ∧ (t.core c.val).upd.lastFb = true ∧
      (t.core c.val).upd.fallbacks = r.u.fallbacks + 1 := by
  obtain ⟨hop, hend⟩ := updMatrixRows_opcode _ hmem
  obtain ⟨-, hfin⟩ := State.secAt_begun h
  have hstep := (SecRun.step_matrix hop hend hok helems).trans (SecRun.matrix_of_none hres hset)
  refine ⟨_, exec_updRow_going (by simp [updRows, hmem]) h hstep hfin, rfl, rfl, ?_⟩
  rw [State.keepSec_upd]
  exact ⟨rfl, rfl, rfl⟩

theorem updEnd_ends (h : s.secAt c.val r) (hok : updOk 0x3F f = true)
    (hdone : r.u.elems = false ∨ r.lastBlock = true) :
    ∃ t : State, exec (.updEnd c f) s = .next t ∧ t.devMem = s.devMem ∧ t.localMem = s.localMem ∧ t.jobs = s.jobs ∧
      (t.core c.val).run.bind (fun x => x.done) = some {} := by
  obtain ⟨s1, q, hstep, hfin, hcores, hdev, hloc, hjobs⟩ := SecRun.step_end_done (s := s) hok hdone
  obtain ⟨run, hrun⟩ := State.secAt_run h
  have hrun1 : ((s1.keepSec c.val q.u).core c.val).run = some run := by
    rw [State.keepSec_run, State.core, hcores]
    exact hrun
  refine ⟨_, exec_updRow_ended (by simp [updRows]) h hstep hfin, by simp [hdev], by simp [hloc], by simp [hjobs], ?_⟩
  rw [State.setDone_run {} hrun1]
  rfl

/-- An instruction that breaks a limit ends the section with PROGRAM_FAULT (R183 to R185; log 32). -/
theorem updRow_refused (hmem : (mk, op) ∈ updRows) (h : s.secAt c.val r) (hbad : updOk op f = false) :
    exec (mk c f) s = .next (s.setDone c.val { status := tsProgram }) := by
  rw [exec_updRow_of_secAt hmem h, SecRun.step_of_bad hbad]
  rfl

end Clauses

/-- Settles O50: a row runs one instruction on the section of its core and keeps what that instruction answers, so
each clause is what the instruction answers. -/
theorem updateRows : Obligations.UpdateRows := by
  unfold Obligations.UpdateRows
  refine ⟨?lanes, ?cvt, ?nop, ?ld, ?stPlane, ?stLayer, ?sum, ?matrix, ?ending, ?refused⟩
  case lanes =>
    intro mk op c f s r hmem h hok
    obtain ⟨hlo, hhi⟩ := updLaneRows_opcode _ hmem
    have hrow : (mk, op) ∈ updRows := by simp [updRows, show (mk, op) ∈ updLaneRows from hmem]
    obtain ⟨t, hexec, hreg, hrest⟩ := updRow_writes_reg hrow h (SecRun.step_lanes hlo hhi hok)
    exact ⟨t, hexec, fun l hl => by rw [hreg, SecRun.laneValues_getElem r op f hl], hrest⟩
  case cvt =>
    intro c f s r h hok
    obtain ⟨t, hexec, hreg, hregs, -, -, -, -, hdev, hloc, hjobs, -⟩ :=
      updRow_writes_reg (mk := .updCvt) (by simp [updRows]) h (SecRun.step_cvt hok)
    exact ⟨t, hexec, hreg, hregs, hdev, hloc, hjobs⟩
  case nop =>
    intro c f s r h hok
    obtain ⟨-, hfin⟩ := State.secAt_begun h
    exact ⟨_, exec_updRow_going (by simp [updRows]) h (SecRun.step_nop hok) hfin, State.keepSec_of_begun h, rfl, rfl, rfl⟩
  case ld =>
    intro c f s r bs h hok hread
    obtain ⟨t, hexec, hreg, hregs, -, hblock, -, -, hdev, hloc, hjobs, -⟩ :=
      updRow_writes_reg (mk := .updLd) (by simp [updRows]) h (SecRun.step_ld hok hread)
    exact ⟨t, hexec, hreg, hregs, hblock, hdev, hloc, hjobs⟩
  case stPlane =>
    rintro c f s s1 r _ vs h hok rfl hcode hvs hwrite
    exact updSt_stores h (SecRun.step_st_plane hok hcode hvs hwrite) (State.wWrite_counters hwrite)
  case stLayer =>
    intro c f s s1 r vs h hok hcode hvs hwrite
    obtain ⟨t, hexec, hdev, hloc, hregs, hnonfin, -, hctr⟩ :=
      updSt_stores h (SecRun.step_st_layer hok hcode hvs hwrite) (State.tWrites_counters hwrite)
    exact ⟨t, hexec, hdev, hloc, hregs, hnonfin, hctr⟩
  case sum => exact fun _ _ _ _ _ _ _ => updSum_adds
  case matrix =>
    rintro mk op c f s r _ hmem h hok rfl
    refine ⟨fun helems hlast => ?_, fun _ _ => updMatrix_writes hmem h hok, updMatrix_falls_back hmem h hok⟩
    have hrow : (mk, op) ∈ updRows := by simp [updRows, show (mk, op) ∈ updMatrixRows from hmem]
    obtain ⟨t, hexec, hblock, -, hdev, hloc, -⟩ :=
      updRow_closes_block hrow (updMatrixRows_opcode _ hmem).1 h hok helems hlast
    exact ⟨t, hexec, hblock, hdev, hloc⟩
  case ending =>
    intro c f s r h hok
    by_cases hdone : r.u.elems = false ∨ r.lastBlock = true
    · obtain ⟨t, hexec, hdev, hloc, hjobs, hrun⟩ := updEnd_ends h hok hdone
      refine ⟨t, hexec, hdev, hloc, hjobs, fun helems hlast => ?_, fun _ => hrun⟩
      simp [helems, hlast] at hdone
    · obtain ⟨helems, hlast⟩ : r.u.elems = true ∧ r.lastBlock = false := by simpa using hdone
      obtain ⟨t, hexec, hblock, hrun, hdev, hloc, hjobs⟩ :=
        updRow_closes_block (mk := .updEnd) (by simp [updRows]) (by decide) h hok helems hlast
      exact ⟨t, hexec, hdev, hloc, hjobs, fun _ _ => ⟨hblock, hrun⟩, fun hd => absurd hd hdone⟩
  case refused => exact fun _ _ _ _ _ _ => updRow_refused

end Sys2Proof.Machine
end

section
/-! SUPPORT. The collective engine (R216, R217, R225 to R233): what posted messages put on a queue pair and leave
alone, a member's own part of each operation, arrivals, gathers, completion, and the proof of O52. -/

namespace Sys2Proof.Machine

/-! ### What the engine leaves alone -/

/-- A state without its transport and its jobs: the part that sending and the engine's own records leave alone. -/
def State.offEngine (s : State) : State := { s with xp := {}, jobs := [] }

section OffEngine
variable {s u : State}

theorem State.memories_of_offEngine (h : u.offEngine = s.offEngine) :
    u.devMem = s.devMem ∧ u.hostMem = s.hostMem ∧ u.counters = s.counters :=
  ⟨(congrArg State.devMem h :), (congrArg State.hostMem h :), (congrArg State.counters h :)⟩

theorem State.devRead_of_offEngine (a n : Nat) (h : u.offEngine = s.offEngine) : u.devRead a n = s.devRead a n :=
  (congrArg (State.devRead · a n) h :)

theorem State.ownSum_of_offEngine (c : Coll) (h : u.offEngine = s.offEngine) : u.ownSum c = s.ownSum c :=
  (congrArg (State.ownSum · c) h :)

theorem State.devWrite_offEngine_congr (a : Nat) (bs : List Byte) (h : u.offEngine = s.offEngine) :
    (u.devWrite a bs).offEngine = (s.devWrite a bs).offEngine := by
  have hout (v : State) : (v.devWrite a bs).offEngine = v.offEngine.devWrite a bs := by
    unfold State.devWrite; split <;> rfl
  rw [hout, hout, h]

/-- The memories and counters of a state that differs from another by one write to device memory. -/
theorem State.memories_of_devWrite {a : Nat} {bs : List Byte} (h : u.offEngine = (s.devWrite a bs).offEngine) :
    u.devMem.readN a bs.length = bs ∧
      (∀ b, b < a ∨ a + bs.length ≤ b → u.devMem.read b = s.devMem.read b) ∧ u.hostMem = s.hostMem ∧
      u.counters = s.counters := by
  obtain ⟨hdev, hhost, hctr⟩ := State.memories_of_offEngine h
  rw [State.devWrite_devMem] at hdev
  refine ⟨?_, fun b hb => ?_, by simpa using hhost, by simpa using hctr⟩
  · rw [hdev, Mem.readN_writeL_same]
  · rw [hdev, Mem.read_writeL_outside _ _ _ _ hb]

end OffEngine

@[simp] theorem State.onJob_offEngine (s : State) (j : Nat) (f : Job → Job) :
    (s.onJob j f).offEngine = s.offEngine := by unfold State.onJob; split <;> rfl
@[simp] theorem State.onJob_xp (s : State) (j : Nat) (f : Job → Job) : (s.onJob j f).xp = s.xp := by
  unfold State.onJob; split <;> rfl
@[simp] theorem State.onJob_qp (s : State) (j : Nat) (f : Job → Job) (q : Nat) : (s.onJob j f).qp? q = s.qp? q := by
  simp [State.qp?]
@[simp] theorem State.onJob_job (s : State) (j : Nat) (f : Job → Job) : (s.onJob j f).job? j = (s.job? j).map f := by
  unfold State.onJob
  split
  · next h => simp [h]
  · next h => simp [h]

/-! ### A collective of a job -/

/-- Collective `n` of job `j` stands as `c`. -/
def State.holdsColl (s : State) (j n : Nat) (c : Coll) : Prop :=
  ∃ y, s.job? j = some y ∧ tabFind y.colls n = some c

/-- Enter a collective of a job. -/
def State.setColl (s : State) (j n : Nat) (c : Coll) : State :=
  s.onJob j (fun y => { y with colls := tabSet y.colls n c })

/-- A member has done its own part. -/
def State.noteSent (s : State) (j n : Nat) : State := s.mapColl j n (fun d => { d with sent := true })

@[simp] theorem State.setColl_offEngine (s : State) (j n : Nat) (c : Coll) :
    (s.setColl j n c).offEngine = s.offEngine := s.onJob_offEngine ..
@[simp] theorem State.mapColl_offEngine (s : State) (j n : Nat) (f : Coll → Coll) :
    (s.mapColl j n f).offEngine = s.offEngine := s.onJob_offEngine ..
@[simp] theorem State.noteSent_offEngine (s : State) (j n : Nat) : (s.noteSent j n).offEngine = s.offEngine :=
  s.onJob_offEngine ..
@[simp] theorem State.mapColl_xp (s : State) (j n : Nat) (f : Coll → Coll) : (s.mapColl j n f).xp = s.xp := s.onJob_xp ..
@[simp] theorem State.noteSent_xp (s : State) (j n : Nat) : (s.noteSent j n).xp = s.xp := s.onJob_xp ..
@[simp] theorem State.mapColl_qp (s : State) (j n : Nat) (f : Coll → Coll) (q : Nat) :
    (s.mapColl j n f).qp? q = s.qp? q := s.onJob_qp ..
@[simp] theorem State.noteSent_qp (s : State) (j n q : Nat) : (s.noteSent j n).qp? q = s.qp? q := s.onJob_qp ..

section CollAt
variable {s u : State} {j n : Nat} {c : Coll}

theorem State.holdsColl_of_jobs (hjobs : u.jobs = s.jobs) (h : s.holdsColl j n c) : u.holdsColl j n c := by
  obtain ⟨y, hy, hc⟩ := h
  exact ⟨y, (congrArg (tabFind · j) hjobs).trans hy, hc⟩

theorem State.holdsColl_setColl {y : Job} (d : Coll) (h : s.job? j = some y) : (s.setColl j n d).holdsColl j n d :=
  ⟨{ y with colls := tabSet y.colls n d }, by simp [State.setColl, h], tabFind_tabSet_same ..⟩

theorem State.holdsColl_mapColl (f : Coll → Coll) (h : s.holdsColl j n c) : (s.mapColl j n f).holdsColl j n (f c) := by
  obtain ⟨y, hy, hc⟩ := h
  exact ⟨{ y with colls := tabSet y.colls n (f c) }, by simp [State.mapColl, hy, hc], tabFind_tabSet_same ..⟩

theorem State.holdsColl_noteSent (h : s.holdsColl j n c) : (s.noteSent j n).holdsColl j n { c with sent := true } :=
  State.holdsColl_mapColl _ h

/-- What a clause shows of a command that leaves a collective as `c` and the memories and counters as they were. -/
theorem exists_next_of_holdsColl {i : Instr} (hexec : exec i s = .next u) (h : u.holdsColl j n c)
    (hoff : u.offEngine = s.offEngine) :
    ∃ (t : State) (y : Job), exec i s = .next t ∧ t.job? j = some y ∧ tabFind y.colls n = some c ∧
      t.devMem = s.devMem ∧ t.hostMem = s.hostMem ∧ t.counters = s.counters := by
  obtain ⟨y, hy, hc⟩ := h
  exact ⟨u, y, hexec, hy, hc, State.memories_of_offEngine hoff⟩

end CollAt

/-! ### Posting a message (R231) -/

section Post
variable {s : State} {qpn : Nat} {q : Qp}

@[simp] theorem State.postMsg_offEngine (s : State) (qpn rkey addr : Nat) (body : List Byte) (coll : Option Nat)
    (reads : Option (Nat × Nat)) : (s.postMsg qpn rkey addr body coll reads).offEngine = s.offEngine := by
  unfold State.postMsg; split <;> rfl

@[simp] theorem State.postMsg_jobs (s : State) (qpn rkey addr : Nat) (body : List Byte) (coll : Option Nat)
    (reads : Option (Nat × Nat)) : (s.postMsg qpn rkey addr body coll reads).jobs = s.jobs := by
  unfold State.postMsg; split <;> rfl

@[simp] theorem State.postMsg_job (s : State) (qpn rkey addr : Nat) (body : List Byte) (coll : Option Nat)
    (reads : Option (Nat × Nat)) (i : Nat) : (s.postMsg qpn rkey addr body coll reads).job? i = s.job? i := by
  simp [State.job?]

theorem State.postMsg_qp_ne (rkey addr : Nat) (body : List Byte) (coll : Option Nat) (reads : Option (Nat × Nat))
    {e : Nat} (h : e ≠ qpn) : (s.postMsg qpn rkey addr body coll reads).qp? e = s.qp? e := by
  unfold State.postMsg
  split
  · rfl
  · exact s.setQp_qp_ne _ _ h

/-- A message is one more work request of its queue pair. -/
theorem State.postMsg_qp_same (rkey addr : Nat) (body : List Byte) (coll : Option Nat) (reads : Option (Nat × Nat))
    (h : s.qp? qpn = some q) : ∃ q2 w, (s.postMsg qpn rkey addr body coll reads).qp? qpn = some q2 ∧
      q2.wrs = q.wrs ++ [w] ∧ w.body = some body ∧ w.coll = coll ∧ w.reads = reads := by
  simp [State.postMsg, h]

/-- Messages posted one after another on a queue pair stand behind its work requests in that order. -/
theorem State.foldl_postMsg_qp {α : Type} (rkey : Nat) (addr : α → Nat) (body : α → List Byte) (coll : Option Nat)
    (l : List α) (h : s.qp? qpn = some q) :
    ∃ q2 ws, (l.foldl (fun st e => st.postMsg qpn rkey (addr e) (body e) coll none) s).qp? qpn = some q2 ∧
      q2.wrs = q.wrs ++ ws ∧ ws.map (fun w => (w.body, w.coll)) = l.map (fun e => (some (body e), coll)) := by
  induction l generalizing s q with
  | nil => exact ⟨q, [], h, by simp, rfl⟩
  | cons e l ih =>
    obtain ⟨q1, w, hq1, hw1, hbody, hcoll, -⟩ := s.postMsg_qp_same rkey (addr e) (body e) coll none h
    obtain ⟨q2, ws, hq2, hw2, hws⟩ := ih hq1
    exact ⟨q2, w :: ws, hq2, by rw [hw2, hw1, List.append_assoc]; rfl, by simp [hbody, hcoll, hws]⟩

end Post

/-! ### Sending data to members (R229, R231) -/

section Send
variable {s : State} {x : Job} {n pos : Nat} {c : Coll} {m : Member} {bs : List Byte}

@[simp] theorem State.collSend_offEngine (s : State) (x : Job) (n : Nat) (c : Coll) (pos : Nat) (bs : List Byte) :
    (s.collSend x n c pos bs).offEngine = s.offEngine := by
  unfold State.collSend
  split
  · rfl
  · exact foldl_keeps State.offEngine _ _ _ (fun _ _ => State.postMsg_offEngine ..)

@[simp] theorem State.collSend_jobs (s : State) (x : Job) (n : Nat) (c : Coll) (pos : Nat) (bs : List Byte) :
    (s.collSend x n c pos bs).jobs = s.jobs := by
  unfold State.collSend
  split
  · rfl
  · exact foldl_keeps State.jobs _ _ _ (fun _ _ => State.postMsg_jobs ..)

theorem State.collSend_qp_ne {e : Nat} (hm : c.members[pos]? = some m) (h : e ≠ m.qpn) :
    (s.collSend x n c pos bs).qp? e = s.qp? e := by
  simp only [State.collSend, hm]
  exact foldl_keeps (State.qp? · e) _ _ _ (fun _ _ => State.postMsg_qp_ne _ _ _ _ _ h)

/-- Each chunk is one work request of the member's queue pair, in the order of the chunks (R231). -/
theorem State.collSend_qp_same {q : Qp} (hm : c.members[pos]? = some m) (hq : s.qp? m.qpn = some q) :
    ∃ q2 ws, (s.collSend x n c pos bs).qp? m.qpn = some q2 ∧ q2.wrs = q.wrs ++ ws ∧
      ws.length = (cutChunks c.chunk bs).length ∧
      ∀ k, k < (cutChunks c.chunk bs).length → (ws[k]?).map (fun w => (w.body, w.coll)) =
        some (some (collHeader x c.op c.layer n x.step (c.flags x (k + 1 = (cutChunks c.chunk bs).length)) c.version k ++
          c.wire ((cutChunks c.chunk bs).getD k [])), some n) := by
  simp only [State.collSend, hm]
  obtain ⟨q2, ws, hq2, hwrs, hws⟩ := State.foldl_postMsg_qp m.rkey _ _ (some n) (cutChunks c.chunk bs).zipIdx hq
  refine ⟨q2, ws, hq2, hwrs, by simpa using congrArg List.length hws, fun k hk => ?_⟩
  rw [← List.getElem?_map, hws]
  simp [hk]

/-- Every other member is sent its data. -/
def State.sendAll (s : State) (x : Job) (n : Nat) (c : Coll) (f : Nat → List Byte) : State :=
  c.others.foldl (fun st i => st.collSend x n c i (f i)) s

@[simp] theorem State.sendAll_offEngine (s : State) (x : Job) (n : Nat) (c : Coll) (f : Nat → List Byte) :
    (s.sendAll x n c f).offEngine = s.offEngine :=
  foldl_keeps State.offEngine _ _ _ (fun _ _ => State.collSend_offEngine ..)
@[simp] theorem State.sendAll_jobs (s : State) (x : Job) (n : Nat) (c : Coll) (f : Nat → List Byte) :
    (s.sendAll x n c f).jobs = s.jobs := foldl_keeps State.jobs _ _ _ (fun _ _ => State.collSend_jobs ..)

/-- ALL_TO_ALL tells a member how much data it will be sent (R227). -/
def State.sendCount (s : State) (x : Job) (n : Nat) (c : Coll) (i : Nat) : State :=
  match c.members[i]? with
  | none => s
  | some m => s.postMsg m.qpn m.rkey m.addr (collHeader x 4 c.layer n x.step 4 0 (c.part i)) (some n) none
/-- Every other member is told. -/
def State.sendCounts (s : State) (x : Job) (n : Nat) (c : Coll) : State :=
  c.others.foldl (fun st i => st.sendCount x n c i) s

@[simp] theorem State.sendCounts_offEngine (s : State) (x : Job) (n : Nat) (c : Coll) :
    (s.sendCounts x n c).offEngine = s.offEngine :=
  foldl_keeps State.offEngine _ _ _ (fun _ _ => by unfold State.sendCount; split <;> simp)
@[simp] theorem State.sendCounts_jobs (s : State) (x : Job) (n : Nat) (c : Coll) :
    (s.sendCounts x n c).jobs = s.jobs :=
  foldl_keeps State.jobs _ _ _ (fun _ _ => by unfold State.sendCount; split <;> simp)

end Send

/-! ### A member's own part (R225 to R229) -/

/-- Where ALL_TO_ALL writes the count of a member's own data (R227). -/
def Coll.ownCountAt (c : Coll) : Nat := addrOf (c.w.getD 5 0) + 8 * (c.n + c.self)
/-- The part of the data read for a member, as it goes to that member. -/
def Coll.partOf (c : Coll) (bs : List Byte) (i : Nat) : List Byte := (bs.drop (c.offset i)).take (c.part i)
/-- ALL_TO_ALL knows the count of a position (R227). -/
def Coll.noteCount (c : Coll) (pos n : Nat) : Coll := { c with counts := tabSet c.counts pos n }

theorem State.collRead_of_data {s : State} {j a n : Nat} {bs : List Byte} (k : List Byte → State) (hn : 0 < n)
    (h : s.devRead a n = some bs) : s.collRead j a n k = k bs := by
  simp [State.collRead, h, Nat.ne_of_gt hn]

/-- A read of nothing, or one that meets no uncorrectable line, goes on. -/
theorem State.collRead_goes_on {s : State} {a n : Nat} (j : Nat) (h : n = 0 ∨ s.devRead a n ≠ none) :
    ∃ bs, ∀ k, s.collRead j a n k = k bs := by
  by_cases hn : n = 0
  · exact ⟨[], fun k => by simp [State.collRead, hn]⟩
  · obtain ⟨bs, hbs⟩ := Option.ne_none_iff_exists'.mp (h.resolve_left hn)
    exact ⟨bs, fun k => State.collRead_of_data k (Nat.pos_of_ne_zero hn) hbs⟩

section Act
variable {s : State} {j n : Nat} {x : Job} {c : Coll} {bs : List Byte}

theorem State.collAct_reduce_root {v : List Word} (hop : c.op = 0) (hroot : c.self = c.root) (hsum : c.sum = [])
    (hown : s.ownSum c = some v) :
    s.collAct j n x c = (s.mapColl j n (fun d => { d with sum := v })).noteSent j n := by
  simp [State.collAct, hop, hroot, hsum, hown, State.noteSent]

theorem State.collAct_reduce_member (hop : c.op = 0) (hroot : c.self ≠ c.root) :
    s.collAct j n x c = s.collRead j c.src c.len (fun bs => (s.collSend x n c c.root bs).noteSent j n) := by
  simp [State.collAct, hop, hroot, State.noteSent]

theorem State.collAct_bcast (hop : c.op = 1) (hroot : c.self = c.root)
    (h : c.skip = true ∨ c.len = 0 ∨ s.devRead (c.from x) c.len ≠ none) :
    ∃ bs, s.collAct j n x c = (s.sendAll x n c (fun _ => bs)).noteSent j n := by
  by_cases hskip : c.skip = true
  · exact ⟨[], by simp [State.collAct, hop, hroot, hskip, State.noteSent, State.sendAll]⟩
  · obtain ⟨bs, hread⟩ := State.collRead_goes_on j (h.resolve_left hskip)
    exact ⟨bs, by simp [State.collAct, hop, hroot, hskip, hread, State.noteSent, State.sendAll]⟩

theorem State.collAct_allGather (hop : c.op = 2) (hlen : 0 < c.part c.self)
    (hread : s.devRead c.src (c.part c.self) = some bs) :
    s.collAct j n x c = ((s.devWrite (c.dst + c.offset c.self) bs).sendAll x n c (fun _ => bs)).noteSent j n := by
  simp [State.collAct, hop, State.collRead_of_data _ hlen hread, State.noteSent, State.sendAll]

theorem State.collAct_reduceScatter {v : List Word} (hop : c.op = 3) (hlen : 0 < c.offset c.n)
    (hread : s.devRead c.src (c.offset c.n) = some bs) (hsum : c.sum = []) (hown : s.ownSum c = some v) :
    s.collAct j n x c =
      ((s.sendAll x n c (c.partOf bs)).mapColl j n (fun d => { d with sum := v })).noteSent j n := by
  have hown' : (s.sendAll x n c (c.partOf bs)).ownSum c = some v := by
    rw [State.ownSum_of_offEngine (s := s) c (by simp), hown]
  simp only [State.sendAll, Coll.partOf] at hown'
  simp [State.collAct, hop, State.collRead_of_data _ hlen hread, hsum, hown', State.noteSent, State.sendAll, Coll.partOf]

theorem State.collAct_allToAll (hop : c.op = 4) (h : c.offset c.n = 0 ∨ s.devRead c.src (c.offset c.n) ≠ none) :
    ∃ f, s.collAct j n x c = ((((s.sendCounts x n c).sendAll x n c f).devWrite c.ownCountAt
      (natLE 8 (c.part c.self))).mapColl j n (fun d => d.noteCount c.self (c.part c.self))).noteSent j n := by
  obtain ⟨bs, hread⟩ := State.collRead_goes_on j h
  refine ⟨c.partOf bs, ?_⟩
  simp only [State.collAct, hop, hread]
  rfl

theorem State.collAct_ringShift (hop : c.op = 5) (hlen : 0 < c.part c.self)
    (hread : s.devRead c.src (c.part c.self) = some bs) :
    s.collAct j n x c = (if c.n = 1 then s.devWrite c.dst bs
      else s.collSend x n c ((c.self + 1) % c.n) bs).noteSent j n := by
  simp only [State.collAct, hop, State.collRead_of_data _ hlen hread, State.noteSent]
  split <;> rfl

theorem State.collAct_layerGather {m : Member} (hop : c.op = 6) (hm : c.members[c.root]? = some m) :
    s.collAct j n x c =
      (s.postMsg m.qpn m.rkey m.addr (collHeader x 6 c.layer n x.step 8 0 0) (some n) none).mapColl j n
        (fun d => { d with sent := true, step := x.step }) := by
  simp [State.collAct, hop, hm]

end Act

/-! ### The operations' commands (R225) -/

/-- The commands of the operations, each with its OP. -/
def collRows : List ((Nat → Nat → Instr) × Nat) :=
  [(.reduceToOwner, 0), (.bcastFromOwner, 1), (.allGather, 2), (.reduceScatter, 3), (.allToAll, 4), (.ringShift, 5),
    (.layerGather, 6)]

section Rows
variable {mk : Nat → Nat → Instr} {op j n : Nat} {s : State} {x : Job} {c : Coll}

theorem exec_collRow (j n : Nat) (s : State) (hmem : (mk, op) ∈ collRows) :
    exec (mk j n) s = .next (s.collRow op j n) := by
  have hall : ∀ p ∈ collRows, exec (p.1 j n) s = .next (s.collRow p.2 j n) := by
    simp only [collRows, List.forall_mem_cons, List.not_mem_nil, false_implies, implies_true, and_true]
    and_intros <;> rfl
  exact hall _ hmem

/-- A member waits for its connections, a gather for its buffer, and neither acts twice (R161, R162, R220). -/
theorem exec_collRow_waits (hmem : (mk, op) ∈ collRows) (hj : s.job? j = some x) (hc : tabFind x.colls n = some c)
    (hop : c.op = op)
    (h : jobRuns x = false ∨ c.sent = true ∨ s.peersUp j c = false ∨ (op = 6 ∧ c.granted = false)) :
    exec (mk j n) s = .next s := by
  rw [exec_collRow j n s hmem]
  simp only [State.collRow, hj, hc]
  rw [if_pos]
  obtain h | h | h | ⟨h, hg⟩ := h <;> simp [*]

/-- A collective whose member is to do its own part now (R229): the job runs, the part is not done, and the
connections that the member sends on are up. -/
def State.collReady (s : State) (j n : Nat) (x : Job) (c : Coll) : Prop :=
  s.job? j = some x ∧ jobRuns x = true ∧ tabFind x.colls n = some c ∧ c.sent = false ∧ s.peersUp j c = true

theorem State.holdsColl_of_ready (h : s.collReady j n x c) : s.holdsColl j n c := by
  obtain ⟨hj, -, hc, -⟩ := h
  exact ⟨x, hj, hc⟩

theorem exec_collRow_acts (hmem : (mk, op) ∈ collRows) (h : s.collReady j n x c) (hop : c.op = op)
    (hgrant : op = 6 → c.granted = true) : exec (mk j n) s = .next (s.collAct j n x c) := by
  obtain ⟨hj, hruns, hc, hsent, hup⟩ := h
  rw [exec_collRow j n s hmem]
  simp only [State.collRow, hj, hc]
  rw [if_neg]
  simpa [hruns, hop, hsent, hup] using hgrant

end Rows

/-! ### What each operation's command shows -/

section Shows
variable {j n : Nat} {s : State} {x : Job} {c : Coll} {bs : List Byte}

theorem natLE_length (n v : Nat) : (natLE n v).length = n := by
  induction n generalizing v with
  | zero => rfl
  | succ n ih => simp [natLE, ih]

theorem reduceToOwner_at_root {v : List Word} (h : s.collReady j n x c) (hop : c.op = 0) (hroot : c.self = c.root)
    (hsum : c.sum = []) (hown : s.ownSum c = some v) :
    ∃ (t : State) (y : Job), exec (.reduceToOwner j n) s = .next t ∧ t.job? j = some y ∧
      tabFind y.colls n = some { c with sum := v, sent := true } ∧ t.xp = s.xp ∧ t.devMem = s.devMem ∧
      t.hostMem = s.hostMem ∧ t.counters = s.counters := by
  have hexec := exec_collRow_acts (mk := .reduceToOwner) (by simp [collRows]) h hop nofun
  rw [State.collAct_reduce_root hop hroot hsum hown] at hexec
  obtain ⟨y, hy, hc⟩ := State.holdsColl_noteSent
    (State.holdsColl_mapColl (fun d => { d with sum := v }) (State.holdsColl_of_ready h))
  exact ⟨_, y, hexec, hy, hc, by simp, State.memories_of_offEngine (by simp)⟩

theorem reduceToOwner_at_member {m : Member} {q : Qp} (h : s.collReady j n x c) (hop : c.op = 0)
    (hroot : c.self ≠ c.root) (hlen : 0 < c.len) (hread : s.devRead c.src c.len = some bs)
    (hm : c.members[c.root]? = some m) (hq : s.qp? m.qpn = some q) :
    ∃ (t : State) (y : Job) (q2 : Qp), exec (.reduceToOwner j n) s = .next t ∧ t.job? j = some y ∧
      tabFind y.colls n = some { c with sent := true } ∧ t.qp? m.qpn = some q2 ∧
      q2.wrs.length = q.wrs.length + (cutChunks c.chunk bs).length ∧ q2.wrs.take q.wrs.length = q.wrs ∧
      (∀ k, k < (cutChunks c.chunk bs).length → (q2.wrs[q.wrs.length + k]?).map (fun w => (w.body, w.coll)) =
        some (some (collHeader x 0 c.layer n x.step (c.flags x (k + 1 = (cutChunks c.chunk bs).length)) c.version k ++
          c.wire ((cutChunks c.chunk bs).getD k [])), some n)) ∧
      (∀ e, e ≠ m.qpn → t.qp? e = s.qp? e) ∧ t.devMem = s.devMem ∧ t.hostMem = s.hostMem ∧
      t.counters = s.counters := by
  have hexec := exec_collRow_acts (mk := .reduceToOwner) (by simp [collRows]) h hop nofun
  rw [State.collAct_reduce_member hop hroot, State.collRead_of_data _ hlen hread] at hexec
  obtain ⟨y, hy, hc⟩ := State.holdsColl_noteSent (State.holdsColl_of_jobs (u := s.collSend x n c c.root bs) (by simp)
    (State.holdsColl_of_ready h))
  obtain ⟨q2, ws, hq2, hwrs, hlen2, hws⟩ := State.collSend_qp_same (x := x) (n := n) (bs := bs) hm hq
  refine ⟨_, y, q2, hexec, hy, hc, by simpa using hq2, by simp [hwrs, hlen2], by simp [hwrs], fun k hk => ?_,
    fun e he => ?_, State.memories_of_offEngine (by simp)⟩
  · rw [hwrs, List.getElem?_append_right (Nat.le_add_right ..), Nat.add_sub_cancel_left, hws k hk, hop]
  · rw [State.noteSent_qp, State.collSend_qp_ne hm he]

theorem bcastFromOwner_sends (h : s.collReady j n x c) (hop : c.op = 1) (hroot : c.self = c.root)
    (hread : c.skip = true ∨ c.len = 0 ∨ s.devRead (c.from x) c.len ≠ none) :
    ∃ (t : State) (y : Job), exec (.bcastFromOwner j n) s = .next t ∧ t.job? j = some y ∧
      tabFind y.colls n = some { c with sent := true } ∧ t.devMem = s.devMem ∧ t.hostMem = s.hostMem ∧
      t.counters = s.counters := by
  have hexec := exec_collRow_acts (mk := .bcastFromOwner) (by simp [collRows]) h hop nofun
  obtain ⟨bs, hact⟩ := State.collAct_bcast (j := j) (n := n) hop hroot hread
  rw [hact] at hexec
  exact exists_next_of_holdsColl hexec
    (State.holdsColl_noteSent (State.holdsColl_of_jobs (by simp) (State.holdsColl_of_ready h))) (by simp)

theorem allGather_places_own (h : s.collReady j n x c) (hop : c.op = 2) (hlen : 0 < c.part c.self)
    (hread : s.devRead c.src (c.part c.self) = some bs) :
    ∃ (t : State) (y : Job), exec (.allGather j n) s = .next t ∧ t.job? j = some y ∧
      tabFind y.colls n = some { c with sent := true } ∧
      t.devMem.readN (c.dst + c.offset c.self) bs.length = bs ∧
      (∀ b, b < c.dst + c.offset c.self ∨ c.dst + c.offset c.self + bs.length ≤ b →
        t.devMem.read b = s.devMem.read b) ∧ t.hostMem = s.hostMem ∧ t.counters = s.counters := by
  have hexec := exec_collRow_acts (mk := .allGather) (by simp [collRows]) h hop nofun
  rw [State.collAct_allGather hop hlen hread] at hexec
  obtain ⟨y, hy, hc⟩ := State.holdsColl_noteSent (State.holdsColl_of_jobs
    (u := (s.devWrite (c.dst + c.offset c.self) bs).sendAll x n c (fun _ => bs)) (by simp) (State.holdsColl_of_ready h))
  exact ⟨_, y, hexec, hy, hc, State.memories_of_devWrite (by simp)⟩

theorem reduceScatter_sends {v : List Word} (h : s.collReady j n x c) (hop : c.op = 3) (hlen : 0 < c.offset c.n)
    (hread : s.devRead c.src (c.offset c.n) = some bs) (hsum : c.sum = []) (hown : s.ownSum c = some v) :
    ∃ (t : State) (y : Job), exec (.reduceScatter j n) s = .next t ∧ t.job? j = some y ∧
      tabFind y.colls n = some { c with sum := v, sent := true } ∧ t.devMem = s.devMem ∧ t.hostMem = s.hostMem ∧
      t.counters = s.counters := by
  have hexec := exec_collRow_acts (mk := .reduceScatter) (by simp [collRows]) h hop nofun
  rw [State.collAct_reduceScatter hop hlen hread hsum hown] at hexec
  exact exists_next_of_holdsColl hexec (State.holdsColl_noteSent (State.holdsColl_mapColl _
    (State.holdsColl_of_jobs (by simp) (State.holdsColl_of_ready h)))) (by simp)

theorem allToAll_sends (h : s.collReady j n x c) (hop : c.op = 4)
    (hread : c.offset c.n = 0 ∨ s.devRead c.src (c.offset c.n) ≠ none) :
    ∃ (t : State) (y : Job), exec (.allToAll j n) s = .next t ∧ t.job? j = some y ∧
      tabFind y.colls n = some { c with counts := tabSet c.counts c.self (c.part c.self), sent := true } ∧
      t.devMem.readN c.ownCountAt 8 = natLE 8 (c.part c.self) ∧
      (∀ b, b < c.ownCountAt ∨ c.ownCountAt + 8 ≤ b → t.devMem.read b = s.devMem.read b) ∧
      t.hostMem = s.hostMem ∧ t.counters = s.counters := by
  have hexec := exec_collRow_acts (mk := .allToAll) (by simp [collRows]) h hop nofun
  obtain ⟨f, hact⟩ := State.collAct_allToAll (x := x) (j := j) (n := n) hop hread
  rw [hact] at hexec
  generalize hu : (s.sendCounts x n c).sendAll x n c f = u at hexec
  have huc : (u.devWrite c.ownCountAt (natLE 8 (c.part c.self))).holdsColl j n c :=
    State.holdsColl_of_jobs (by simp [← hu]) (State.holdsColl_of_ready h)
  obtain ⟨y, hy, hc⟩ := State.holdsColl_noteSent (State.holdsColl_mapColl
    (fun d => d.noteCount c.self (c.part c.self)) huc)
  have hmem := State.memories_of_devWrite (s := s) (a := c.ownCountAt) (bs := natLE 8 (c.part c.self))
    (u := ((u.devWrite c.ownCountAt (natLE 8 (c.part c.self))).mapColl j n
      (fun d => d.noteCount c.self (c.part c.self))).noteSent j n)
    (by simpa using State.devWrite_offEngine_congr _ _ (by simp [← hu]))
  rw [natLE_length] at hmem
  exact ⟨_, y, hexec, hy, hc, hmem⟩

theorem ringShift_passes_on (h : s.collReady j n x c) (hop : c.op = 5) (hlen : 0 < c.part c.self)
    (hread : s.devRead c.src (c.part c.self) = some bs) :
    ∃ (t : State) (y : Job), exec (.ringShift j n) s = .next t ∧ t.job? j = some y ∧
      tabFind y.colls n = some { c with sent := true } ∧ (c.n ≠ 1 → t.devMem = s.devMem) ∧
      (c.n = 1 → t.xp = s.xp ∧ t.devMem.readN c.dst bs.length = bs) ∧ t.hostMem = s.hostMem ∧
      t.counters = s.counters := by
  have hexec := exec_collRow_acts (mk := .ringShift) (by simp [collRows]) h hop nofun
  rw [State.collAct_ringShift hop hlen hread] at hexec
  by_cases hn : c.n = 1
  · rw [if_pos hn] at hexec
    obtain ⟨y, hy, hc⟩ := State.holdsColl_noteSent (State.holdsColl_of_jobs (u := s.devWrite c.dst bs) (by simp)
      (State.holdsColl_of_ready h))
    obtain ⟨hread2, -, hhost, hctr⟩ := State.memories_of_devWrite (s := s) (a := c.dst) (bs := bs)
      (u := (s.devWrite c.dst bs).noteSent j n) (by simp)
    exact ⟨_, y, hexec, hy, hc, absurd hn, fun _ => ⟨by simp, hread2⟩, hhost, hctr⟩
  · rw [if_neg hn] at hexec
    obtain ⟨t, y, hexec, hy, hc, hdev, hhost, hctr⟩ := exists_next_of_holdsColl hexec
      (State.holdsColl_noteSent (State.holdsColl_of_jobs (by simp) (State.holdsColl_of_ready h))) (by simp)
    exact ⟨t, y, hexec, hy, hc, fun _ => hdev, fun h1 => absurd h1 hn, hhost, hctr⟩

theorem layerGather_requests {m : Member} {q : Qp} (h : s.collReady j n x c) (hop : c.op = 6)
    (hgrant : c.granted = true) (hm : c.members[c.root]? = some m) (hq : s.qp? m.qpn = some q) :
    ∃ (t : State) (y : Job) (q2 : Qp) (w : Wr), exec (.layerGather j n) s = .next t ∧ t.job? j = some y ∧
      tabFind y.colls n = some { c with sent := true, step := x.step } ∧ t.qp? m.qpn = some q2 ∧
      q2.wrs = q.wrs ++ [w] ∧ w.body = some (collHeader x 6 c.layer n x.step 8 0 0) ∧ w.coll = some n ∧
      (∀ e, e ≠ m.qpn → t.qp? e = s.qp? e) ∧ t.devMem = s.devMem ∧ t.hostMem = s.hostMem ∧
      t.counters = s.counters := by
  have hexec := exec_collRow_acts (mk := .layerGather) (by simp [collRows]) h hop (fun _ => hgrant)
  rw [State.collAct_layerGather hop hm] at hexec
  generalize collHeader x 6 c.layer n x.step 8 0 0 = body at hexec ⊢
  obtain ⟨y, hy, hc⟩ := State.holdsColl_mapColl (fun d => { d with sent := true, step := x.step })
    (State.holdsColl_of_jobs (State.postMsg_jobs s m.qpn m.rkey m.addr body (some n) none) (State.holdsColl_of_ready h))
  obtain ⟨q2, w, hq2, hwrs, hbody, hcoll, -⟩ := State.postMsg_qp_same m.rkey m.addr body (some n) none hq
  refine ⟨_, y, q2, w, hexec, hy, hc, by simpa using hq2, hwrs, hbody, hcoll, fun e he => ?_,
    State.memories_of_offEngine (by simp)⟩
  rw [State.mapColl_qp, State.postMsg_qp_ne _ _ _ _ _ he]

end Shows

/-! ### Arriving messages (R232) -/

theorem exec_collMessageReceive (j : Nat) (m : CollMsg) (s : State) :
    exec (.collMessageReceive j m) s = .next (s.collReceive j m) := rfl

theorem Coll.op_of_expects {c : Coll} {m : CollMsg} {pos : Nat} (h : c.expects m pos = true) : c.op = m.op := by
  simp only [Coll.expects, Bool.and_eq_true, decide_eq_true_eq] at h
  obtain ⟨⟨⟨⟨⟨-, hop⟩, -⟩, -⟩, -⟩, -⟩ := h
  exact hop

section Receive
variable {j : Nat} {m : CollMsg} {s : State} {x : Job} {c : Coll}

theorem State.collReceive_of_other_epoch (hj : s.job? j = some x) (hruns : jobRuns x = true) (h : m.epoch ≠ x.epoch) :
    s.collReceive j m = s.setJob j { x with epochDrop := satAdd 0xFF x.epochDrop 1 } := by
  simp [State.collReceive, hj, hruns, h]

theorem State.collReceive_of_unknown (hj : s.job? j = some x) (hruns : jobRuns x = true) (hepoch : m.epoch = x.epoch)
    (hop : m.op ≠ 6) (hc : tabFind x.colls m.collId = none) : s.collReceive j m = s.fence j 0x07 0 0 0 0 := by
  simp [State.collReceive, hj, hruns, hepoch, hc, hop]

theorem State.collReceive_of_unexpected (hj : s.job? j = some x) (hruns : jobRuns x = true)
    (hepoch : m.epoch = x.epoch) (hop : m.op ≠ 6) (hc : tabFind x.colls m.collId = some c)
    (hexp : c.expects m (c.posOf m.sender) = false) : s.collReceive j m = s.fence j 0x07 0 0 0 0 := by
  simp [State.collReceive, hj, hruns, hepoch, hc, hop, hexp]

/-- A message that carries no layer's data is taken without a check of its step (R232). -/
theorem State.collReceive_of_expected (hj : s.job? j = some x) (hruns : jobRuns x = true) (hepoch : m.epoch = x.epoch)
    (hc : tabFind x.colls m.collId = some c) (hop : c.op ≠ 6) (hgrad : c.grad = false) (hbuf : c.layerbuf = false)
    (hexp : c.expects m (c.posOf m.sender) = true) :
    s.collReceive j m = s.collTake j m.collId x c m (c.posOf m.sender) := by
  have hmop : m.op ≠ 6 := Coll.op_of_expects hexp ▸ hop
  simp [State.collReceive, hj, hruns, hepoch, hc, hop, hmop, hgrad, hbuf, hexp]

/-- FP32 words go on the wire as they are (R230). -/
theorem Coll.bf16_of_not_grad (h : c.grad = false) : c.bf16 = false := by simp [Coll.bf16, h]

theorem State.collTake_allGather {id p : Nat} (hop : c.op = 2) (hgrad : c.grad = false)
    (hext : s.extentBad x.part (c.dst + c.offset p + m.chunkNo * c.chunk) m.payload.length = false) :
    s.collTake j id x c m p = (s.devWrite (c.dst + c.offset p + m.chunkNo * c.chunk) m.payload).setColl j id
      (c.note p m.payload.length m.last) := by
  simp [State.collTake, hop, Coll.bf16_of_not_grad hgrad, State.collPlace, hext, State.setColl]

theorem State.collTake_reduction {id p : Nat} (hop : c.op = 0 ∨ c.op = 3) (hsum : c.sum ≠ []) :
    s.collTake j id x c m p = s.setColl j id { c.note p (4 * (c.unwire m.payload).length) m.last with
      sum := addFrom c.sum (m.chunkNo * c.chunk / 4) (c.unwire m.payload) } := by
  obtain hop | hop := hop <;> simp [State.collTake, hop, hsum, State.setColl]

theorem allGather_chunk_placed {a : Nat} (hj : s.job? j = some x) (hruns : jobRuns x = true)
    (hepoch : m.epoch = x.epoch) (hc : tabFind x.colls m.collId = some c) (hop : c.op = 2) (hgrad : c.grad = false)
    (hbuf : c.layerbuf = false) (hexp : c.expects m (c.posOf m.sender) = true)
    (ha : a = c.dst + c.offset (c.posOf m.sender) + m.chunkNo * c.chunk)
    (hext : s.extentBad x.part a m.payload.length = false) :
    ∃ (t : State) (y : Job) (d : Coll), exec (.collMessageReceive j m) s = .next t ∧
      t.devMem.readN a m.payload.length = m.payload ∧
      (∀ b, b < a ∨ a + m.payload.length ≤ b → t.devMem.read b = s.devMem.read b) ∧ t.job? j = some y ∧
      tabFind y.colls m.collId = some d ∧
      tabGet 0 d.got (c.posOf m.sender) = tabGet 0 c.got (c.posOf m.sender) + m.payload.length ∧
      (m.last = true → d.lasts.contains (c.posOf m.sender) = true) ∧ t.hostMem = s.hostMem ∧
      t.counters = s.counters := by
  subst ha
  have hexec := exec_collMessageReceive j m s
  rw [State.collReceive_of_expected hj hruns hepoch hc (by simp [hop]) hgrad hbuf hexp,
    State.collTake_allGather hop hgrad hext] at hexec
  generalize c.dst + c.offset (c.posOf m.sender) + m.chunkNo * c.chunk = a at hexec ⊢
  generalize hd : c.note (c.posOf m.sender) m.payload.length m.last = d at hexec
  obtain ⟨y, hy, hd2⟩ := State.holdsColl_setColl (n := m.collId) d
    ((State.devWrite_job s a m.payload j).trans hj)
  obtain ⟨hread, hframe, hhost, hctr⟩ := State.memories_of_devWrite (s := s) (a := a) (bs := m.payload)
    (u := (s.devWrite a m.payload).setColl j m.collId d) (by simp)
  refine ⟨_, y, d, hexec, hread, hframe, hy, hd2, ?_, fun hlast => ?_, hhost, hctr⟩
  · rw [← hd, Coll.note, tabGet_tabSet_same]
  · simp [← hd, Coll.note, hlast]

theorem reduction_chunk_added (hj : s.job? j = some x) (hruns : jobRuns x = true) (hepoch : m.epoch = x.epoch)
    (hc : tabFind x.colls m.collId = some c) (hop : c.op = 0 ∨ c.op = 3) (hgrad : c.grad = false)
    (hbuf : c.layerbuf = false) (hexp : c.expects m (c.posOf m.sender) = true) (hsum : c.sum ≠ []) :
    ∃ (t : State) (y : Job) (d : Coll), exec (.collMessageReceive j m) s = .next t ∧ t.job? j = some y ∧
      tabFind y.colls m.collId = some d ∧ d.sum = addFrom c.sum (m.chunkNo * c.chunk / 4) (c.unwire m.payload) ∧
      t.devMem = s.devMem ∧ t.hostMem = s.hostMem ∧ t.counters = s.counters := by
  have hexec := exec_collMessageReceive j m s
  rw [State.collReceive_of_expected hj hruns hepoch hc (by omega) hgrad hbuf hexp,
    State.collTake_reduction hop hsum] at hexec
  obtain ⟨t, y, hexec, hy, hd, hmem⟩ := exists_next_of_holdsColl hexec (State.holdsColl_setColl _ hj) (by simp)
  exact ⟨t, y, _, hexec, hy, hd, rfl, hmem⟩

end Receive

/-! ### Gathers served (R216) -/

theorem Job.layer?_mapLayer (x : Job) (n : Nat) {f : Layer → Layer} (hf : ∀ l, (f l).id = l.id) :
    (x.mapLayer n f).layer? n = (x.layer? n).map f := by
  have hid (l : Layer) : (if l.id = n then f l else l).id = l.id := by split <;> simp [hf]
  simp only [Job.mapLayer, Job.layer?, List.find?_map, Function.comp_def, hid]
  cases hl : x.layers.find? (fun l => decide (l.id = n)) with
  | none => rfl
  | some l =>
    have hln : l.id = n := by simpa using List.find?_some hl
    simp [hln]

/-- A layer with the gather requests that are left (R216). -/
def Layer.keepRequests (rest : List (Nat × Nat × Nat)) (l : Layer) : Layer := { l with requests := rest }

@[simp] theorem State.mapLayer_offEngine (s : State) (j n : Nat) (f : Layer → Layer) :
    (s.mapLayer j n f).offEngine = s.offEngine := s.onJob_offEngine ..
@[simp] theorem State.mapLayer_qp (s : State) (j n : Nat) (f : Layer → Layer) (q : Nat) :
    (s.mapLayer j n f).qp? q = s.qp? q := s.onJob_qp ..
@[simp] theorem State.mapLayer_job (s : State) (j n : Nat) (f : Layer → Layer) :
    (s.mapLayer j n f).job? j = (s.job? j).map (fun x => x.mapLayer n f) := s.onJob_job ..

section Serve
variable {j n snd id qpn : Nat} {s : State} {x : Job} {l : Layer} {rest : List (Nat × Nat × Nat)} {q : Qp}
  {bs : List Byte}

/-- A request for the version that the source now has is answered with it, on the lowest queue pair in RTS to the
one that asked (log 30). -/
theorem exec_gatherRequestServe_current (hj : s.job? j = some x) (hruns : jobRuns x = true) (hl : x.layer? n = some l)
    (hreq : takeFirst (fun q : Nat × Nat × Nat => decide (q.2.1 ≤ l.commits)) l.requests =
      some ((snd, l.commits, id), rest))
    (hqpn : (s.xp.qps.find? (fun e => decide (e.2.job = j) && decide (e.2.peer = snd) && decide (e.2.st = .rts))).map
      (·.1) = some qpn)
    (hsize : 0 < l.size) (hread : s.devRead (l.buf l.version) l.size = some bs) :
    exec (.gatherRequestServe j n) s = .next ((s.mapLayer j n (Layer.keepRequests rest)).postMsg qpn 0 0
      (collHeader x 6 n id l.commits 8 l.version 0 ++ bs) none (some (n, l.bufNo l.version))) := by
  obtain ⟨e, he, rfl⟩ := Option.map_eq_some_iff.mp hqpn
  have hread' : (s.mapLayer j n (Layer.keepRequests rest)).devRead (l.buf l.version) l.size = some bs := by
    rw [State.devRead_of_offEngine (s := s) _ _ (by simp), hread]
  change execGatherRequestServe j n s = _
  unfold Layer.keepRequests at hread' ⊢
  simp [execGatherRequestServe, hj, hl, hreq, he, hruns, State.collRead_of_data _ hsize hread']

theorem gatherRequestServe_answers (hj : s.job? j = some x) (hruns : jobRuns x = true) (hl : x.layer? n = some l)
    (hreq : takeFirst (fun q : Nat × Nat × Nat => decide (q.2.1 ≤ l.commits)) l.requests =
      some ((snd, l.commits, id), rest))
    (hqpn : (s.xp.qps.find? (fun e => decide (e.2.job = j) && decide (e.2.peer = snd) && decide (e.2.st = .rts))).map
      (·.1) = some qpn)
    (hq : s.qp? qpn = some q) (hsize : 0 < l.size) (hread : s.devRead (l.buf l.version) l.size = some bs) :
    ∃ (t : State) (y : Job) (q2 : Qp) (w : Wr), exec (.gatherRequestServe j n) s = .next t ∧ t.job? j = some y ∧
      (y.layer? n).map (·.requests) = some rest ∧ t.qp? qpn = some q2 ∧ q2.wrs = q.wrs ++ [w] ∧
      w.body = some (collHeader x 6 n id l.commits 8 l.version 0 ++ bs) ∧ w.reads = some (n, l.bufNo l.version) ∧
      t.devMem = s.devMem ∧ t.hostMem = s.hostMem ∧ t.counters = s.counters := by
  have hexec := exec_gatherRequestServe_current hj hruns hl hreq hqpn hsize hread
  generalize collHeader x 6 n id l.commits 8 l.version 0 ++ bs = body at hexec ⊢
  obtain ⟨q2, w, hq2, hwrs, hbody, -, hreads⟩ := State.postMsg_qp_same
    (s := s.mapLayer j n (Layer.keepRequests rest)) 0 0 body none (some (n, l.bufNo l.version))
    (by simpa using hq)
  refine ⟨_, x.mapLayer n (Layer.keepRequests rest), q2, w, hexec, by simp [hj], ?_, hq2, hwrs, hbody, hreads,
    State.memories_of_offEngine (by simp)⟩
  rw [Job.layer?_mapLayer x n (f := Layer.keepRequests rest) (fun _ => rfl), hl]
  rfl

end Serve

/-! ### Completion (R225, R233) -/

theorem tabFind_tabDel_ne {α : Type} (t : Tab α) {i k : Nat} (h : k ≠ i) : tabFind (tabDel t i) k = tabFind t k := by
  induction t with
  | nil => rfl
  | cons e t ih =>
    obtain ⟨a, v⟩ := e
    by_cases ha : a = i
    · subst ha
      simpa [tabDel, tabFind, Ne.symm h] using ih
    · simp only [tabDel, List.filter_cons, ha, ne_eq, not_false_eq_true, decide_true, if_true, tabFind] at ih ⊢
      rw [ih]

theorem State.onJob_job_ne (s : State) {j i : Nat} (f : Job → Job) (h : i ≠ j) : (s.onJob j f).job? i = s.job? i := by
  unfold State.onJob
  split
  · rfl
  · exact s.setJob_job_ne _ _ h

/-- A counter has been added to, and the services have seen it (R140, R247). -/
def State.bumpCtr (s : State) (a inc : Nat) : State :=
  { s.setCtr a (s.ctr a + BitVec.ofNat 64 inc) with
    svcs := tabMap (fun _ v => v.seeInput a (s.ctr a + BitVec.ofNat 64 inc).toNat s.tick) s.svcs }

/-- Beside that, an addition only notes that a job has moved on (R133). -/
theorem State.addCtr_cases (s : State) (a inc : Nat) : s.addCtr a inc = s.bumpCtr a inc ∨
    ∃ i tick, s.addCtr a inc = (s.bumpCtr a inc).onJob i (fun x => { x with lastMove := tick }) := by
  unfold State.addCtr
  dsimp only
  split
  · exact .inl rfl
  · next i _ => exact .inr ⟨i, s.tick, rfl⟩

section AddCtr
variable {s : State} {a inc : Nat}

@[simp] theorem State.addCtr_devMem (s : State) (a inc : Nat) : (s.addCtr a inc).devMem = s.devMem := by
  obtain h | ⟨i, k, h⟩ := s.addCtr_cases a inc <;> rw [h]
  · rfl
  · exact State.onJob_devMem ..
@[simp] theorem State.addCtr_hostMem (s : State) (a inc : Nat) : (s.addCtr a inc).hostMem = s.hostMem := by
  obtain h | ⟨i, k, h⟩ := s.addCtr_cases a inc <;> rw [h]
  · rfl
  · exact State.onJob_hostMem ..
@[simp] theorem State.addCtr_xp (s : State) (a inc : Nat) : (s.addCtr a inc).xp = s.xp := by
  obtain h | ⟨i, k, h⟩ := s.addCtr_cases a inc <;> rw [h]
  · rfl
  · exact State.onJob_xp ..
theorem State.addCtr_counters (s : State) (a inc : Nat) :
    (s.addCtr a inc).counters = (s.setCtr a (s.ctr a + BitVec.ofNat 64 inc)).counters := by
  obtain h | ⟨i, k, h⟩ := s.addCtr_cases a inc <;> rw [h]
  · rfl
  · exact State.onJob_counters ..

theorem State.addCtr_ctr_same (s : State) (a inc : Nat) :
    (s.addCtr a inc).ctr a = s.ctr a + BitVec.ofNat 64 inc :=
  (congrArg (tabGet 0 · a) (s.addCtr_counters a inc)).trans (s.setCtr_ctr_same ..)
theorem State.addCtr_ctr_ne {e : Nat} (h : e ≠ a) : (s.addCtr a inc).ctr e = s.ctr e :=
  (congrArg (tabGet 0 · e) (s.addCtr_counters a inc)).trans (s.setCtr_ctr_ne _ _ h)

/-- An addition leaves the collectives of every job as they were. -/
theorem State.addCtr_colls {j : Nat} {y : Job} (h : s.job? j = some y) :
    ∃ z, (s.addCtr a inc).job? j = some z ∧ z.colls = y.colls := by
  have hbump : (s.bumpCtr a inc).job? j = some y := h
  obtain heq | ⟨i, k, heq⟩ := s.addCtr_cases a inc <;> rw [heq]
  · exact ⟨y, hbump, rfl⟩
  · by_cases hij : j = i
    · subst hij
      exact ⟨{ y with lastMove := k }, by simp [hbump], rfl⟩
    · exact ⟨y, (State.onJob_job_ne _ _ hij).trans hbump, rfl⟩

end AddCtr

/-- A collective leaves its job, which has moved on with it (R133). -/
def State.dropColl (s : State) (j n : Nat) : State :=
  s.onJob j (fun y => { y with colls := tabDel y.colls n, lastMove := s.tick })

section Complete
variable {j n : Nat} {s : State} {x : Job} {c : Coll}

theorem exec_collComplete_waits (hj : s.job? j = some x) (hc : tabFind x.colls n = some c)
    (hdone : s.collDone j n c = false) : exec (.collComplete j n) s = .next s := by
  change execCollComplete j n s = _
  simp [execCollComplete, hj, hc, hdone]

/-- A broadcast and a shift leave nothing to write: the collective goes, and its signal is added. -/
theorem exec_collComplete_signals (hj : s.job? j = some x) (hruns : jobRuns x = true)
    (hc : tabFind x.colls n = some c) (hdone : s.collDone j n c = true) (hop : c.op = 1 ∨ c.op = 5) :
    exec (.collComplete j n) s = .next (if bitsOf (c.w.getD 1 0) 15 0 = 0 then s.dropColl j n
      else (s.dropColl j n).addCtr (x.ctrBase + bitsOf (c.w.getD 0 0) 55 42) (bitsOf (c.w.getD 1 0) 15 0)) := by
  have hstill : jobRuns { x with colls := tabDel x.colls n, lastMove := s.tick } = true := hruns
  change execCollComplete j n s = _
  obtain hop | hop := hop <;>
    simp [execCollComplete, hj, hc, hruns, hdone, hop, State.dropColl, hstill]

theorem collComplete_signals {a inc : Nat} (hj : s.job? j = some x) (hruns : jobRuns x = true)
    (hc : tabFind x.colls n = some c) (hdone : s.collDone j n c = true) (hop : c.op = 1 ∨ c.op = 5)
    (hinc : inc = bitsOf (c.w.getD 1 0) 15 0) (ha : a = x.ctrBase + bitsOf (c.w.getD 0 0) 55 42) :
    ∃ (t : State) (y : Job), exec (.collComplete j n) s = .next t ∧ t.job? j = some y ∧ tabFind y.colls n = none ∧
      (∀ k, k ≠ n → tabFind y.colls k = tabFind x.colls k) ∧
      (t.ctr a).toNat = ((s.ctr a).toNat + inc) % 2 ^ 64 ∧ (∀ e, e ≠ a → t.ctr e = s.ctr e) ∧ t.devMem = s.devMem ∧
      t.hostMem = s.hostMem ∧ t.xp = s.xp := by
  have hexec := exec_collComplete_signals hj hruns hc hdone hop
  rw [← hinc, ← ha] at hexec
  have hdrop : (s.dropColl j n).job? j = some { x with colls := tabDel x.colls n, lastMove := s.tick } := by
    simp [State.dropColl, hj]
  obtain ⟨hdev, hhost, hctr⟩ := State.memories_of_offEngine (u := s.dropColl j n) (s := s) (State.onJob_offEngine ..)
  have hxp : (s.dropColl j n).xp = s.xp := State.onJob_xp ..
  have hctrs (e : Nat) : (s.dropColl j n).ctr e = s.ctr e := congrArg (tabGet 0 · e) hctr
  by_cases h0 : inc = 0
  · rw [if_pos h0] at hexec
    refine ⟨_, _, hexec, hdrop, tabFind_tabDel_same .., fun k => tabFind_tabDel_ne _, ?_, fun e _ => hctrs e, hdev,
      hhost, hxp⟩
    rw [hctrs, h0, Nat.add_zero, Nat.mod_eq_of_lt (s.ctr a).isLt]
  · rw [if_neg h0] at hexec
    obtain ⟨y, hy, hcolls⟩ := State.addCtr_colls (a := a) (inc := inc) hdrop
    refine ⟨_, y, hexec, hy, by rw [hcolls, tabFind_tabDel_same],
      fun k hk => by rw [hcolls, tabFind_tabDel_ne _ hk], ?_,
      fun e he => by rw [State.addCtr_ctr_ne he, hctrs], by simpa using hdev, by simpa using hhost, by simpa using hxp⟩
    rw [State.addCtr_ctr_same, hctrs]
    simp

end Complete

/-- Settles O52: each operation's command does the member's own part as `collAct` has it, an arriving message is
taken as `collReceive` has it, and what a command posts or notes stays within the transport and its job. The response
to a gather leaves as one message on the lowest queue pair in RTS, which is log 30's choice. -/
theorem collectives : Obligations.Collectives := by
  unfold Obligations.Collectives
  refine ⟨fun mk op j n s x c => exec_collRow_waits, ?reduceRoot, ?reduceMember, ?bcast, ?allGather, ?reduceScatter,
    ?allToAll, ?ringShift, ?layerGather, ?refused, ?placed, ?added, ?served, ?signals,
    fun j n s x c => exec_collComplete_waits⟩
  case reduceRoot =>
    exact fun j n s x c v hj hruns hc hop hsent hup => reduceToOwner_at_root ⟨hj, hruns, hc, hsent, hup⟩ hop
  case reduceMember =>
    exact fun j n s x c m q bs hj hruns hc hop hsent hup => reduceToOwner_at_member ⟨hj, hruns, hc, hsent, hup⟩ hop
  case bcast =>
    exact fun j n s x c hj hruns hc hop hsent hup => bcastFromOwner_sends ⟨hj, hruns, hc, hsent, hup⟩ hop
  case allGather =>
    exact fun j n s x c bs hj hruns hc hop hsent hup => allGather_places_own ⟨hj, hruns, hc, hsent, hup⟩ hop
  case reduceScatter =>
    exact fun j n s x c bs v hj hruns hc hop hsent hup => reduceScatter_sends ⟨hj, hruns, hc, hsent, hup⟩ hop
  case allToAll =>
    rintro j n _ s x c hj hruns hc hop hsent hup hread rfl
    exact allToAll_sends ⟨hj, hruns, hc, hsent, hup⟩ hop hread
  case ringShift =>
    exact fun j n s x c bs hj hruns hc hop hsent hup => ringShift_passes_on ⟨hj, hruns, hc, hsent, hup⟩ hop
  case layerGather =>
    exact fun j n s x c m q hj hruns hc hop hsent hup => layerGather_requests ⟨hj, hruns, hc, hsent, hup⟩ hop
  case refused =>
    intro j m s x hj hruns
    rw [exec_collMessageReceive]
    exact ⟨fun h => by rw [State.collReceive_of_other_epoch hj hruns h],
      fun hepoch hop hc => by rw [State.collReceive_of_unknown hj hruns hepoch hop hc],
      fun c hepoch hop hc hexp => by rw [State.collReceive_of_unexpected hj hruns hepoch hop hc hexp]⟩
  case placed =>
    rintro j a _ m s x c hj hruns hepoch hc hop - hgrad hbuf rfl hexp ha hext
    exact allGather_chunk_placed hj hruns hepoch hc hop hgrad hbuf hexp ha hext
  case added =>
    rintro j _ m s x c hj hruns hepoch hc hop - hgrad hbuf rfl hexp hsum
    exact reduction_chunk_added hj hruns hepoch hc hop hgrad hbuf hexp hsum
  case served => exact fun j n snd id qpn s x l rest q bs => gatherRequestServe_answers
  case signals =>
    exact fun j n a inc s x c hj hruns hc hdone hop hinc ha _ => collComplete_signals hj hruns hc hdone hop hinc ha

end Sys2Proof.Machine
end

section
/-! SUPPORT. What the records and events of a loop service (R252, R254, R255, R261) leave of it: a service keeps all
but the fields that count its records and its reported misses. -/

namespace Sys2Proof.Machine

/-! ### Additions to a counter -/

theorem tabFind_tabMap {α : Type} (f : Nat → α → α) (t : Tab α) (i : Nat) :
    tabFind (tabMap f t) i = (tabFind t i).map (f i) := by
  induction t with
  | nil => rfl
  | cons e t ih =>
    obtain ⟨k, v⟩ := e
    by_cases hk : k = i
    · subst hk; simp [tabMap, tabFind]
    · simpa [tabMap, tabFind, hk] using ih

@[simp] theorem State.onJob_svc (s : State) (j : Nat) (f : Job → Job) (k : Nat) : (s.onJob j f).svc? k = s.svc? k := by
  unfold State.onJob; split <;> rfl

/-- A service outside CLEAN and INPUT sees no input (R247). -/
theorem Svc.seeInput_of_idle {v : Svc} (c n tick : Nat) (h : v.ph = .idle) : v.seeInput c n tick = v := by
  simp [Svc.seeInput, h]

theorem State.addCtr_svc (s : State) (a inc k : Nat) : (s.addCtr a inc).svc? k =
    (s.svc? k).map (fun v => v.seeInput a (s.ctr a + BitVec.ofNat 64 inc).toNat s.tick) := by
  have hbump : (s.bumpCtr a inc).svc? k =
      (s.svc? k).map (fun v => v.seeInput a (s.ctr a + BitVec.ofNat 64 inc).toNat s.tick) :=
    tabFind_tabMap (fun _ (v : Svc) => v.seeInput a (s.ctr a + BitVec.ofNat 64 inc).toNat s.tick) s.svcs k
  obtain h | ⟨i, tick, h⟩ := s.addCtr_cases a inc <;> rw [h]
  · exact hbump
  · exact (State.onJob_svc ..).trans hbump

/-! ### A service but for its records -/

/-- A service without the fields that its completion ring and SVC_MISSED keep (R255, R261). -/
def Svc.offRecords (v : Svc) : Svc :=
  { v with ringLost := 0, prod := 0, gap := false, missSince := 0, missEvent := none }

/-- Service `k` stands as `v` but for those fields. -/
def State.showsSvc (s : State) (k : Nat) (v : Svc) : Prop := ∃ y, s.svc? k = some y ∧ y.offRecords = v.offRecords

section Shows
variable {s u : State} {k : Nat} {v : Svc}

theorem State.showsSvc_of_svcs (hsvcs : u.svcs = s.svcs) (h : s.showsSvc k v) : u.showsSvc k v := by
  obtain ⟨y, hy, hoff⟩ := h
  exact ⟨y, (congrArg (tabFind · k) hsvcs).trans hy, hoff⟩

theorem State.showsSvc_setSvc (s : State) (k : Nat) (v : Svc) : (s.setSvc k v).showsSvc k v :=
  ⟨v, s.setSvc_svc_same k v, rfl⟩

theorem State.showsSvc_addCtr (a inc : Nat) (h : s.showsSvc k v) (hidle : v.ph = .idle) :
    (s.addCtr a inc).showsSvc k v := by
  obtain ⟨y, hy, hoff⟩ := h
  have hph : y.ph = .idle := (congrArg Svc.ph hoff :).trans hidle
  exact ⟨y, by simp [State.addCtr_svc, hy, Svc.seeInput_of_idle _ _ _ hph], hoff⟩

end Shows

/-! ### Events -/

@[simp] theorem State.evqPut_svcs (s : State) (q code part : Nat) (detail : List Byte) :
    (s.evqPut q code part detail).svcs = s.svcs := by
  unfold State.evqPut; dsimp only
  (repeat' split) <;> simp
@[simp] theorem State.evqPut_jobs (s : State) (q code part : Nat) (detail : List Byte) :
    (s.evqPut q code part detail).jobs = s.jobs := by
  unfold State.evqPut; dsimp only
  (repeat' split) <;> simp

@[simp] theorem State.raise_svcs (s : State) (code : Nat) (ps : List Nat) (op : Bool) (part : Nat)
    (detail : List Byte) : (s.raise code ps op part detail).svcs = s.svcs := by
  have hfold := foldl_keeps State.svcs (fun st p => st.evqPut p code part detail) s ps (by simp)
  unfold State.raise
  cases op <;> simpa using hfold
@[simp] theorem State.raise_jobs (s : State) (code : Nat) (ps : List Nat) (op : Bool) (part : Nat)
    (detail : List Byte) : (s.raise code ps op part detail).jobs = s.jobs := by
  have hfold := foldl_keeps State.jobs (fun st p => st.evqPut p code part detail) s ps (by simp)
  unfold State.raise
  cases op <;> simpa using hfold

@[simp] theorem State.raise_svc (s : State) (code : Nat) (ps : List Nat) (op : Bool) (part : Nat)
    (detail : List Byte) (k : Nat) : (s.raise code ps op part detail).svc? k = s.svc? k := by simp [State.svc?]

/-! ### Records (R255) -/

section Records
variable {s : State} {k : Nat} {v : Svc}

/-- A record goes into the ring or is lost; then a DONE period counts in DONE_CTR, and the vector may be raised. -/
theorem State.svcRecord_cases (c : SvcRec) (h : s.svc? k = some v) : ∃ u w : State, u.showsSvc k v ∧
    u.counters = s.counters ∧ (w = if c.kind = 1 then u.addCtr (v.ctrBase + v.counters + 1) 1 else u) ∧
    (s.svcRecord k c = w ∨ ∃ vec, s.svcRecord k c = w.msi vec) := by
  unfold State.svcRecord
  simp only [h]
  generalize decide ((v.prod + 2 * 2 ^ v.ringLog2 - s.rf (.svc k) 0x01C 12 0 % (2 * 2 ^ v.ringLog2)) %
    (2 * 2 ^ v.ringLog2) = 2 ^ v.ringLog2) = full
  cases full with
  | true =>
    exact ⟨s.setSvc k { v with ringLost := satAdd 0xFF v.ringLost 1, gap := true }, _,
      ⟨_, s.setSvc_svc_same .., rfl⟩, rfl, rfl, .inl (by simp)⟩
  | false =>
    refine ⟨(s.r40Write (v.ring + 32 * (v.prod % 2 ^ v.ringLog2)) (c.bytes v.gap)).setSvc k
      { v with prod := (v.prod + 1) % (2 * 2 ^ v.ringLog2), gap := false }, _, ⟨_, State.setSvc_svc_same .., rfl⟩,
      by simp, rfl, ?_⟩
    cases flag (s.reg (.svc k) 0x000) 15 with
    | true => exact .inr ⟨fld (s.reg (.svc k) 0x000) 7 0, by simp⟩
    | false => exact .inl (by simp)

theorem State.showsSvc_svcRecord (c : SvcRec) (h : s.showsSvc k v) (hc : c.kind ≠ 1 ∨ v.ph = .idle) :
    (s.svcRecord k c).showsSvc k v := by
  obtain ⟨y, hy, hoff⟩ := h
  obtain ⟨u, w, hu, -, rfl, hrec⟩ := State.svcRecord_cases c hy
  have hw : State.showsSvc (if c.kind = 1 then u.addCtr (y.ctrBase + y.counters + 1) 1 else u) k v := by
    obtain ⟨z, hz, hzoff⟩ := hu
    have hu : u.showsSvc k v := ⟨z, hz, hzoff.trans hoff⟩
    split
    · next hkind => exact State.showsSvc_addCtr _ _ hu (hc.resolve_left (not_not_intro hkind))
    · exact hu
  obtain hrec | ⟨vec, hrec⟩ := hrec <;> rw [hrec]
  · exact hw
  · exact State.showsSvc_of_svcs (State.msi_svcs ..) hw

theorem State.svcRecord_done_ctr {c : SvcRec} (h : s.svc? k = some v) (hc : c.kind = 1) :
    (s.svcRecord k c).ctr (v.ctrBase + v.counters + 1) = s.ctr (v.ctrBase + v.counters + 1) + 1#64 ∧
      ∀ a, a ≠ v.ctrBase + v.counters + 1 → (s.svcRecord k c).ctr a = s.ctr a := by
  obtain ⟨u, w, -, hctrs, rfl, hrec⟩ := State.svcRecord_cases c h
  have hctr (a : Nat) : u.ctr a = s.ctr a := congrArg (tabGet 0 · a) hctrs
  rw [if_pos hc] at hrec
  have heq (a : Nat) : (s.svcRecord k c).ctr a = (u.addCtr (v.ctrBase + v.counters + 1) 1).ctr a := by
    obtain hrec | ⟨vec, hrec⟩ := hrec <;> simp [hrec]
  exact ⟨by rw [heq, State.addCtr_ctr_same, hctr], fun a ha => by rw [heq, State.addCtr_ctr_ne ha, hctr]⟩

/-! ### The end of a period -/

/-- SVC_MISSED waits while there is nothing to report, or 100 ms have not passed (R261). -/
theorem Svc.missWaits_iff (v : Svc) (tick : Nat) :
    (v.missSince = 0 ∨ v.missEvent.any (fun t => tick < t + 10000000) = true) ↔
      (v.missSince = 0 ∨ ∃ t, v.missEvent = some t ∧ tick < t + 10000000) := by
  simp only [Option.any_eq_true, decide_eq_true_eq]

theorem State.svcMissEvent_reports (h : s.svc? k = some v) (hmiss : v.missSince ≠ 0)
    (hdue : ∀ t, v.missEvent = some t → t + 10000000 ≤ s.tick) :
    s.svcMissEvent k = (s.setSvc k { v with missSince := 0, missEvent := some s.tick }).raise 0x5001 [v.part] true
      v.part (natLE 2 k ++ natLE 4 v.missSince) := by
  have hcond : ¬(v.missSince = 0 ∨ v.missEvent.any (fun t => s.tick < t + 10000000) = true) := by
    rw [Svc.missWaits_iff]
    rintro (h0 | ⟨t, ht, hlt⟩)
    · exact hmiss h0
    · exact absurd (hdue t ht) (Nat.not_le_of_lt hlt)
  simp only [State.svcMissEvent, h, if_neg hcond]

theorem State.svcMissEvent_waits (h : s.svc? k = some v)
    (hwait : v.missSince = 0 ∨ ∃ t, v.missEvent = some t ∧ s.tick < t + 10000000) : s.svcMissEvent k = s := by
  simp only [State.svcMissEvent, h, if_pos ((v.missWaits_iff s.tick).mpr hwait)]

theorem State.showsSvc_svcMissEvent (h : s.showsSvc k v) : (s.svcMissEvent k).showsSvc k v := by
  obtain ⟨y, hy, hoff⟩ := h
  unfold State.svcMissEvent
  simp only [hy]
  split
  · exact ⟨y, hy, hoff⟩
  · exact ⟨_, (State.raise_svc ..).trans (State.setSvc_svc_same ..), hoff⟩

/-- A service that nobody deregisters stays (R254). -/
theorem State.svcLeave_of_staying (h : s.showsSvc k v) (hstay : v.leaving = false) : s.svcLeave k = s := by
  obtain ⟨y, hy, hoff⟩ := h
  have hleave : y.leaving = false := (congrArg Svc.leaving hoff :).trans hstay
  simp [State.svcLeave, hy, hleave]

end Records

end Sys2Proof.Machine
end

section
/-! SUPPORT. The periods of a loop service (R245 to R251, R255, R261): what each event does to a service in its
phase, what the end of a period leaves of it, its doorbells, and the proofs of O30 and O31. -/

namespace Sys2Proof.Machine

/-! ### The end of a period (R249 to R252, R255) -/

/-- A miss for this reason counts in the window (R252): INPUT_LATE does not, nor a period in which the guarantee
lapsed. -/
def Svc.countsMiss (v : Svc) (reason : Nat) : Bool := reason ≠ 1 && !v.lapse
/-- The miss is the third one counted (R252). -/
def Svc.suspends (v : Svc) (reason : Nat) : Bool :=
  v.countsMiss reason && decide (3 ≤ windowMisses (v.push (v.countsMiss reason)))
/-- A service whose period has been abandoned. -/
def Svc.missed (v : Svc) (reason : Nat) : Svc :=
  { v.push (v.countsMiss reason) with
    ph := .idle, todo := [], missSince := v.missSince + 1
    st := if v.suspends reason then .suspended else v.st
    late := if reason = 1 then satAdd 0xFFFF v.late 1 else v.late
    overrun := if reason = 2 then satAdd 0xFFFF v.overrun 1 else v.overrun
    taskFault := if reason = 3 then satAdd 0xFF v.taskFault 1 else v.taskFault
    heldDb := v.heldDb && !v.suspends reason }
/-- A service whose period is DONE: the state buffers have changed places (R251). -/
def Svc.writtenBack (v : Svc) : Svc :=
  { v.push false with ph := .idle, committed := !v.committed, doneCount := (v.doneCount + 1) % 2 ^ 32 }

@[simp] theorem State.periodRec_kind (s : State) (v : Svc) (kind reason cycles : Nat) :
    (s.periodRec v kind reason cycles).kind = kind := rfl

@[simp] theorem State.svcCycles_counters (s : State) (v : Svc) : (s.svcCycles v).2.counters = s.counters := by
  unfold State.svcCycles; split <;> rfl

section PeriodEnd
variable {s : State} {k : Nat} {v : Svc}

theorem State.svcMiss_cases (reason : Nat) (h : s.svc? k = some v) : ∃ (u : State) (r r5 : SvcRec),
    r.kind = 2 ∧ r5.kind = 5 ∧ s.svcMiss k reason =
      ((if v.suspends reason then (((u.setSvc k (v.missed reason)).svcRecord k r).svcRecord k r5).raise 0x5002 [v.part]
          true v.part (natLE 2 k)
        else (u.setSvc k (v.missed reason)).svcRecord k r).svcMissEvent k).svcLeave k := by
  simp only [State.svcMiss, h]
  exact ⟨_, _, _, State.periodRec_kind .., rfl, rfl⟩

theorem State.showsSvc_svcMiss (reason : Nat) (h : s.svc? k = some v) (hstay : v.leaving = false) :
    (s.svcMiss k reason).showsSvc k (v.missed reason) := by
  obtain ⟨u, r, r5, -, -, heq⟩ := State.svcMiss_cases reason h
  have hrec : ((u.setSvc k (v.missed reason)).svcRecord k r).showsSvc k (v.missed reason) :=
    State.showsSvc_svcRecord r (State.showsSvc_setSvc ..) (.inr rfl)
  have hall : (if v.suspends reason then (((u.setSvc k (v.missed reason)).svcRecord k r).svcRecord k r5).raise 0x5002
      [v.part] true v.part (natLE 2 k) else (u.setSvc k (v.missed reason)).svcRecord k r).showsSvc k
      (v.missed reason) := by
    split
    · exact State.showsSvc_of_svcs (State.raise_svcs ..) (State.showsSvc_svcRecord r5 hrec (.inr rfl))
    · exact hrec
  have hevent := State.showsSvc_svcMissEvent hall
  rw [heq, State.svcLeave_of_staying hevent hstay]
  exact hevent

/-- What an abandoned period leaves of its service, field by field. -/
theorem State.svcMiss_svc (reason : Nat) (h : s.svc? k = some v) (hstay : v.leaving = false) :
    ∃ y : Svc, (s.svcMiss k reason).svc? k = some y ∧ y.ph = .idle ∧ y.k = v.k ∧ y.committed = v.committed ∧
      y.window = ((reason ≠ 1 && !v.lapse) :: v.window).take 1000 ∧
      (y.st = .suspended ↔ (v.st = .suspended ∨ ((reason ≠ 1 && !v.lapse) = true ∧ 3 ≤ windowMisses y))) ∧
      y.late = (if reason = 1 then min 0xFFFF (v.late + 1) else v.late) ∧
      y.overrun = (if reason = 2 then min 0xFFFF (v.overrun + 1) else v.overrun) ∧
      y.taskFault = (if reason = 3 then min 0xFF (v.taskFault + 1) else v.taskFault) := by
  obtain ⟨y, hy, hoff⟩ := State.showsSvc_svcMiss reason h hstay
  have hwin : y.window = (v.countsMiss reason :: v.window).take 1000 := congrArg Svc.window hoff
  have hst : y.st = if v.suspends reason then .suspended else v.st := congrArg Svc.st hoff
  have hmiss : windowMisses y = windowMisses (v.push (v.countsMiss reason)) := by simp [windowMisses, hwin, Svc.push]
  refine ⟨y, hy, congrArg Svc.ph hoff, (congrArg Svc.k hoff :), (congrArg Svc.committed hoff :), hwin, ?_,
    congrArg Svc.late hoff, congrArg Svc.overrun hoff, congrArg Svc.taskFault hoff⟩
  have hsus : (reason ≠ 1 && !v.lapse) = true ∧ 3 ≤ windowMisses y ↔ v.suspends reason = true := by
    simp [hmiss, Svc.suspends, Svc.countsMiss]
  rw [hst, hsus]
  cases v.suspends reason <;> simp

end PeriodEnd

/-! ### Events (R245, R248 to R250) -/

section Events
variable {svc : SvcId} {s : State} {v : Svc}

/-- The clock ends nothing while no period runs, or once it only writes back. -/
theorem State.svcOverdue_of_settled {k : Nat} (h : s.svc? k = some v) (hph : v.ph = .idle ∨ v.ph = .writeback) :
    s.svcOverdue k = s := by simp [State.svcOverdue, h, hph]

theorem exec_periodStart_of_idle (h : s.svc? svc.val = some v) (hst : v.st = .armed) (hph : v.ph = .idle) :
    exec (.periodStart svc) s = .next (if !v.doorbellMode then
        (if v.t0 + v.k * v.period ≤ s.tick then s.svcStart svc.val (v.t0 + v.k * v.period) else s)
      else if v.heldDb ∧ v.start + v.period ≤ s.tick then s.svcStart svc.val (v.start + v.period) else s) := by
  change execPeriodStart svc s = _
  simp only [execPeriodStart, State.svcOverdue_of_settled h (.inl hph), h, hst, hph, ne_eq, not_true_eq_false,
    or_self, if_false]

theorem exec_cleanDone_of_svc (h : s.svc? svc.val = some v) : exec (.cleanDone svc) s =
    .next (if v.ph = .clean then s.setSvc svc.val { v with ph := .input, cleanDone := true } else s) := by
  change execCleanDone svc s = _
  simp only [execCleanDone, h]

theorem exec_runStart_of_svc (h : s.svc? svc.val = some v) : exec (.runStart svc) s =
    .next (if v.ph = .input ∧ v.inputTick.isSome ∧ s.tick < v.start + v.deadline then
      (s.setSvc svc.val { v with ph := .run }).svcRelease svc.val else s) := by
  change execRunStart svc s = _
  simp only [execRunStart, h]

theorem exec_inputCutoff_of_svc (h : s.svc? svc.val = some v) : exec (.inputCutoff svc) s =
    .next (if (v.ph = .clean ∨ v.ph = .input) ∧ v.inputTick.isNone ∧ v.start + (v.deadline - v.waTicks) ≤ s.tick then
      s.svcMiss svc.val 1 else s) := by
  change execInputCutoff svc s = _
  simp only [execInputCutoff, h]

theorem exec_deadline_of_svc (h : s.svc? svc.val = some v) : exec (.deadline svc) s =
    .next (if v.ph ≠ .idle ∧ v.ph ≠ .writeback ∧ v.inputTick.isSome ∧ v.start + v.deadline ≤ s.tick then
      s.svcMiss svc.val 2 else s) := by
  change execDeadline svc s = _
  simp only [execDeadline, h]

theorem exec_svcMissed (svc : SvcId) (s : State) : exec (.svcMissed svc) s = .next (s.svcMissEvent svc.val) := rfl

theorem exec_writebackDone_elsewhere (h : s.svc? svc.val = some v) (hph : v.ph ≠ .writeback) :
    exec (.writebackDone svc) s = .next s := by
  change execWritebackDone svc s = _
  simp only [execWritebackDone, h, if_pos hph]

/-- The output is copied, a DONE record is written, and no counter has moved before it (R251, R255). -/
theorem exec_writebackDone_copied {bs : List Byte} (h : s.svc? svc.val = some v) (hph : v.ph = .writeback)
    (hout : v.outBytes ≠ 0) (hread : s.devRead v.stage v.outBytes = some bs) :
    ∃ (u : State) (r : SvcRec), u.counters = s.counters ∧ r.kind = 1 ∧ exec (.writebackDone svc) s =
      .next (((u.setSvc svc.val v.writtenBack).svcRecord svc.val r).svcLeave svc.val) := by
  refine ⟨((s.r40Write v.outAddr bs).svcCycles v).2, s.periodRec v 1 0 ((s.r40Write v.outAddr bs).svcCycles v).1,
    by simp, rfl, ?_⟩
  change execWritebackDone svc s = _
  simp only [execWritebackDone, h, hph, ne_eq, not_true_eq_false, if_false, hout, hread]
  rfl

theorem events_of_no_svc (svc : SvcId) (s : State) (h : s.svc? svc.val = none) :
    exec (.periodStart svc) s = .next s ∧ exec (.cleanDone svc) s = .next s ∧ exec (.runStart svc) s = .next s ∧
    exec (.inputCutoff svc) s = .next s ∧ exec (.deadline svc) s = .next s ∧ exec (.writebackDone svc) s = .next s ∧
    exec (.svcMissed svc) s = .next s := by
  change execPeriodStart svc s = _ ∧ execCleanDone svc s = _ ∧ execRunStart svc s = _ ∧ execInputCutoff svc s = _ ∧
    execDeadline svc s = _ ∧ execWritebackDone svc s = _ ∧ execSvcMissed svc s = _
  simp [execPeriodStart, State.svcOverdue, execCleanDone, execRunStart, execInputCutoff, execDeadline,
    execWritebackDone, execSvcMissed, State.svcMissEvent, h]

end Events

/-! ### The clauses -/

section Clauses
variable {svc : SvcId} {s : State} {v : Svc}

theorem periodStart_of_idle (h : s.svc? svc.val = some v) (hst : v.st = .armed) (hph : v.ph = .idle) :
    (v.doorbellMode = false → v.t0 + v.k * v.period ≤ s.tick →
      exec (.periodStart svc) s = .next (s.svcStart svc.val (v.t0 + v.k * v.period))) ∧
    (v.doorbellMode = false → s.tick < v.t0 + v.k * v.period → exec (.periodStart svc) s = .next s) ∧
    (v.doorbellMode = true → v.heldDb = true → v.start + v.period ≤ s.tick →
      exec (.periodStart svc) s = .next (s.svcStart svc.val (v.start + v.period))) ∧
    (v.doorbellMode = true → v.heldDb = false ∨ s.tick < v.start + v.period →
      exec (.periodStart svc) s = .next s) := by
  rw [exec_periodStart_of_idle h hst hph]
  refine ⟨fun hmode hdue => by simp [hmode, hdue], fun hmode hearly => by simp [hmode, Nat.not_le_of_lt hearly],
    fun hmode hheld hdue => by simp [hmode, hheld, hdue], fun hmode hwait => ?_⟩
  obtain hfree | hearly := hwait
  · simp [hmode, hfree]
  · simp [hmode, Nat.not_le_of_lt hearly]

theorem events_of_svc (h : s.svc? svc.val = some v) :
    (v.ph = .clean → exec (.cleanDone svc) s = .next (s.setSvc svc.val { v with ph := .input, cleanDone := true })) ∧
    (v.ph ≠ .clean → exec (.cleanDone svc) s = .next s) ∧
    (v.ph = .input → v.inputTick ≠ none → s.tick < v.start + v.deadline →
      exec (.runStart svc) s = .next ((s.setSvc svc.val { v with ph := .run }).svcRelease svc.val)) ∧
    (v.ph ≠ .input ∨ v.inputTick = none ∨ v.start + v.deadline ≤ s.tick → exec (.runStart svc) s = .next s) ∧
    (v.ph = .clean ∨ v.ph = .input → v.inputTick = none → v.start + (v.deadline - v.waTicks) ≤ s.tick →
      exec (.inputCutoff svc) s = .next (s.svcMiss svc.val 1)) ∧
    (v.inputTick ≠ none ∨ s.tick < v.start + (v.deadline - v.waTicks) → exec (.inputCutoff svc) s = .next s) ∧
    (v.ph = .clean ∨ v.ph = .input ∨ v.ph = .run → v.inputTick ≠ none → v.start + v.deadline ≤ s.tick →
      exec (.deadline svc) s = .next (s.svcMiss svc.val 2)) ∧
    (v.ph = .idle ∨ v.ph = .writeback ∨ s.tick < v.start + v.deadline → exec (.deadline svc) s = .next s) := by
  rw [exec_cleanDone_of_svc h, exec_runStart_of_svc h, exec_inputCutoff_of_svc h, exec_deadline_of_svc h]
  simp only [Option.isNone_iff_eq_none, Option.isSome_iff_ne_none]
  refine ⟨fun hph => by rw [if_pos hph], fun hph => by rw [if_neg hph],
    fun hph hin hearly => by rw [if_pos ⟨hph, hin, hearly⟩], fun hnot => ?_,
    fun hph hin hlate => by rw [if_pos ⟨hph, hin, hlate⟩], fun hnot => ?_, fun hph hin hlate => ?_, fun hnot => ?_⟩
  · rw [if_neg]
    rintro ⟨hph, hin, hearly⟩
    exact hnot.elim (· hph) (·.elim hin (Nat.not_le_of_lt hearly))
  · rw [if_neg]
    rintro ⟨-, hin, hlate⟩
    exact hnot.elim (· hin) (Nat.not_lt_of_le hlate)
  · have hrun : v.ph ≠ .idle ∧ v.ph ≠ .writeback := by obtain hph | hph | hph := hph <;> simp [hph]
    rw [if_pos ⟨hrun.1, hrun.2, hin, hlate⟩]
  · rw [if_neg]
    rintro ⟨hidle, hwb, -, hlate⟩
    exact hnot.elim hidle (·.elim hwb (Nat.not_lt_of_le hlate))

theorem writebackDone_commits {bs : List Byte} (h : s.svc? svc.val = some v) (hph : v.ph = .writeback)
    (hstay : v.leaving = false) (hout : v.outBytes ≠ 0) (hread : s.devRead v.stage v.outBytes = some bs) :
    ∃ (t : State) (y : Svc), exec (.writebackDone svc) s = .next t ∧ t.svc? svc.val = some y ∧ y.ph = .idle ∧
      y.committed = (!v.committed) ∧ y.doneCount = (v.doneCount + 1) % 2 ^ 32 ∧
      y.window = (false :: v.window).take 1000 ∧
      (t.ctr (v.ctrBase + v.counters + 1)).toNat = ((s.ctr (v.ctrBase + v.counters + 1)).toNat + 1) % 2 ^ 64 ∧
      (∀ c, c ≠ v.ctrBase + v.counters + 1 → t.ctr c = s.ctr c) := by
  obtain ⟨u, r, hctrs, hr, hexec⟩ := exec_writebackDone_copied h hph hout hread
  have hshow : ((u.setSvc svc.val v.writtenBack).svcRecord svc.val r).showsSvc svc.val v.writtenBack :=
    State.showsSvc_svcRecord r (State.showsSvc_setSvc ..) (.inr rfl)
  rw [State.svcLeave_of_staying hshow hstay] at hexec
  obtain ⟨hdone, hother⟩ := State.svcRecord_done_ctr (u.setSvc_svc_same svc.val v.writtenBack) hr
  have hctr (c : Nat) : (u.setSvc svc.val v.writtenBack).ctr c = s.ctr c := congrArg (tabGet 0 · c) hctrs
  obtain ⟨y, hy, hoff⟩ := hshow
  refine ⟨_, y, hexec, hy, congrArg Svc.ph hoff, congrArg Svc.committed hoff, congrArg Svc.doneCount hoff,
    congrArg Svc.window hoff, ?_, fun c hc => (hother c hc).trans (hctr c)⟩
  rw [hctr] at hdone
  exact (congrArg BitVec.toNat hdone).trans (by simp [Svc.writtenBack, Svc.push])

theorem svcMissed_of_svc (h : s.svc? svc.val = some v) :
    (v.missSince ≠ 0 → (∀ t, v.missEvent = some t → t + 10000000 ≤ s.tick) →
      ∃ t : State, exec (.svcMissed svc) s = .next t ∧
        t.svc? svc.val = some { v with missSince := 0, missEvent := some s.tick } ∧ t.jobs = s.jobs) ∧
    (v.missSince = 0 ∨ (∃ t, v.missEvent = some t ∧ s.tick < t + 10000000) → exec (.svcMissed svc) s = .next s) := by
  refine ⟨fun hmiss hdue => ?_, fun hwait => by rw [exec_svcMissed, State.svcMissEvent_waits h hwait]⟩
  rw [exec_svcMissed, State.svcMissEvent_reports h hmiss hdue]
  exact ⟨_, rfl, (State.raise_svc ..).trans (State.setSvc_svc_same ..), (State.raise_jobs ..).trans rfl⟩

end Clauses

/-- Settles O30: each event acts as its own condition has it; the end of a period sets the service down in IDLE, and
its record, its events and the counting of a DONE period touch no other field of it. -/
theorem servicePeriods : Obligations.ServicePeriods := by
  unfold Obligations.ServicePeriods
  exact ⟨fun _ _ _ => periodStart_of_idle, fun _ _ _ => events_of_svc, fun _ _ reason _ => State.svcMiss_svc reason,
    fun _ _ _ _ => writebackDone_commits, fun _ _ _ => exec_writebackDone_elsewhere, fun _ _ _ => svcMissed_of_svc,
    events_of_no_svc⟩

/-! ### Doorbells (R246, R247) -/

section Doorbells
variable {s : State} {k : Nat} {v : Svc}

theorem State.svcBell_of_none (mb val : Nat) (h : s.svc? k = none) : s.svcBell mb k val = s.countErr (.mb mb) := by
  simp [State.svcBell, h]

theorem State.svcBell_of_foreign {mb : Nat} (val : Nat) (h : s.svc? k = some v)
    (hph : v.ph = .idle ∨ v.ph = .writeback) (hpart : s.mbPart mb ≠ some v.part) :
    s.svcBell mb k val = s.countErr (.mb mb) := by
  simp [State.svcBell, State.svcOverdue_of_settled h hph, h, hpart]

/-- A doorbell of the own partition while no period runs: the next period's index is the one it must name. -/
theorem State.svcBell_of_idle {mb : Nat} (val : Nat) (h : s.svc? k = some v) (hph : v.ph = .idle)
    (hpart : s.mbPart mb = some v.part) : s.svcBell mb k val =
      if v.st ≠ .armed then s.badDb k v
      else if v.doorbellMode then
        (if val ≠ v.k % 2 ^ 32 ∨ v.heldDb then s.badDb k v
         else if !v.started ∨ v.start + v.period ≤ s.tick then s.svcStart k s.tick
         else s.setSvc k { v with heldDb := true, earlyDb := satAdd 0xFF v.earlyDb 1 })
      else if reached (s.ctr (v.ctrBase + v.counters)).toNat ((v.k + 1) * v.inInc) = false ∧ val = v.k % 2 ^ 32 then
        s.addCtr (v.ctrBase + v.counters) v.inInc
      else s.badDb k v := by
  simp [State.svcBell, State.svcOverdue_of_settled h (.inl hph), h, hph, hpart]

theorem svcBell_of_own {mb val : Nat} (h : s.svc? k = some v) (hph : v.ph = .idle)
    (hpart : s.mbPart mb = some v.part) :
    (v.st ≠ .armed → s.svcBell mb k val = s.setSvc k { v with badDb := min 0xFF (v.badDb + 1) }) ∧
    (v.st = .armed → v.doorbellMode = false →
      (val = v.k % 2 ^ 32 → reached (s.ctr (v.ctrBase + v.counters)).toNat ((v.k + 1) * v.inInc) = false →
        s.svcBell mb k val = s.addCtr (v.ctrBase + v.counters) v.inInc) ∧
      (val ≠ v.k % 2 ^ 32 → s.svcBell mb k val = s.setSvc k { v with badDb := min 0xFF (v.badDb + 1) })) ∧
    (v.st = .armed → v.doorbellMode = true → v.heldDb = false → val = v.k % 2 ^ 32 →
      (v.started = false ∨ v.start + v.period ≤ s.tick → s.svcBell mb k val = s.svcStart k s.tick) ∧
      (v.started = true → s.tick < v.start + v.period → s.svcBell mb k val =
        s.setSvc k { v with heldDb := true, earlyDb := min 0xFF (v.earlyDb + 1) })) := by
  rw [State.svcBell_of_idle val h hph hpart]
  have hbad : s.setSvc k { v with badDb := min 0xFF (v.badDb + 1) } = s.badDb k v := rfl
  rw [hbad]
  refine ⟨fun hst => by rw [if_pos hst], fun hst hmode => ⟨fun hval hopen => by simp [hst, hmode, hval, hopen],
    fun hval => ?_⟩, fun hst hmode hheld hval => ⟨fun hstart => ?_, fun hstarted hearly => ?_⟩⟩
  · rw [if_neg (not_not_intro hst), if_neg (by simp [hmode]), if_neg (fun hopen => hval hopen.2)]
  · simp [hst, hmode, hheld, hval, hstart]
  · simp [hst, hmode, hheld, hval, hstarted, Nat.not_le_of_lt hearly, satAdd]

end Doorbells

/-- Settles O31: while no period runs the clock has ended none, so the doorbell meets the service as it stands. -/
theorem serviceDoorbells : Obligations.ServiceDoorbells := by
  unfold Obligations.ServiceDoorbells
  exact ⟨fun _ mb _ val => State.svcBell_of_none mb val, fun _ _ _ val _ => State.svcBell_of_foreign val,
    fun _ _ _ _ _ => svcBell_of_own⟩

end Sys2Proof.Machine
end

section
/-! SUPPORT. The commands of a loop service (R240 to R245, R252, R254, R256) and what its proving run and the check
of its weights end in (R243, R252, R256, R257), with the proofs of O28 and O29. -/

namespace Sys2Proof.Machine

/-! ### A request at the front -/

section Front
variable {s u : State} {mb op n st what arg : Nat} {oo : Bool} {r : Req} {res : List Byte}
  {body : State → Req → CmdOut}

theorem next_front_done (hf : s.front mb op n oo r) (hb : body (s.takeReq mb) r = .done u st res) :
    (.next (runCmd s mb op (.exact n) oo body) : Out) = .next (u.reply r st res) := by rw [runCmd_front hf, hb]

theorem next_front_wait (hf : s.front mb op n oo r) (hb : body (s.takeReq mb) r = .wait u what arg) :
    (.next (runCmd s mb op (.exact n) oo body) : Out) = .next (u.waits r what arg) := by rw [runCmd_front hf, hb]

theorem next_frontArg_done {a : List Byte} (hf : s.frontArg mb op n oo r a)
    (hb : body (s.takeReq mb) { r with arg := a } = .done u st res) :
    (.next (runCmd s mb op (.block n) oo body) : Out) = .next (u.reply r st res) := by rw [runCmd_frontArg hf, hb]

theorem next_frontArg_wait {a : List Byte} (hf : s.frontArg mb op n oo r a)
    (hb : body (s.takeReq mb) { r with arg := a } = .wait u what arg) :
    (.next (runCmd s mb op (.block n) oo body) : Out) = .next (u.waits r what arg) := by rw [runCmd_frontArg hf, hb]

/-- A status below bit 16 carries no address, and a failure with it changes nothing (R271). -/
theorem failWith_of_lt (s : State) {e : Nat} (h : e < 65536) : failWith s e = .done s e [] := by
  simp [failWith, State.noteFail, h, Nat.mod_eq_of_lt h]

theorem failWith_wrong (s : State) : failWith s stWrong = .done s stWrong [] := failWith_of_lt s (by decide)

theorem State.reqSvc_of_ownSvc {k : Nat} {v : Svc} (mb : Nat) (h : s.ownSvc r k v) :
    (s.takeReq mb).reqSvc r = .ok (k, v) := by
  obtain ⟨rfl, hk, hscope⟩ := h
  simp [State.reqSvc, hk, hscope]

end Front

/-! ### SVC_REGISTER (R240 to R242) -/

section Register
variable {s : State} {mb : MbId} {r : Req} {a : List Byte} {i : SvcImage} {v : Svc}

theorem cmdSvcRegister_of_image_error {e : Nat} (h : s.svcImage r = .error e) (he : e < 65536) :
    cmdSvcRegister s r = .done s e [] := by simp only [cmdSvcRegister, h, failWith_of_lt s he]

theorem cmdSvcRegister_of_contract_error {e : Nat} (hi : s.svcImage r = .ok i) (h : s.svcContract r i = .error e)
    (he : e < 65536) : cmdSvcRegister s r = .done s e [] := by simp only [cmdSvcRegister, hi, h, failWith_of_lt s he]

theorem cmdSvcRegister_refuses (hi : s.svcImage r = .ok i) (hv : s.svcContract r i = .ok v)
    (hlate : v.deadline < s.inTicks v.inSrc v.inBytes + v.waTicks) : cmdSvcRegister s r =
      .done s stRefused (refusedResult 0 (s.inTicks v.inSrc v.inBytes + v.waTicks)) := by
  simp only [cmdSvcRegister, hi, hv, if_pos hlate]

/-- An admitted service starts its proving run, whatever its registration has done before. -/
theorem cmdSvcRegister_admits (hi : s.svcImage r = .ok i) (hv : s.svcContract r i = .ok v)
    (hintime : s.inTicks v.inSrc v.inBytes + v.waTicks ≤ v.deadline) : ∃ u : State, cmdSvcRegister s r =
      .wait (u.startProving ((tabFree s.svcs 64).getD 0) v) ((tabFree s.svcs 64).getD 0) 0 := by
  simp only [cmdSvcRegister, hi, hv, if_neg (Nat.not_lt_of_le hintime)]
  exact ⟨_, rfl⟩

/-- A contract is only accepted while a service number is free (R240). -/
theorem State.svcContract_free (h : s.svcContract r i = .ok v) : ∃ k, tabFree s.svcs 64 = some k := by
  unfold State.svcContract at h
  dsimp only at h
  obtain ⟨-, -, h⟩ := ok_of_bind_ok h
  obtain ⟨-, -, h⟩ := ok_of_bind_ok h
  split at h
  · cases h
  split at h
  case isFalse => cases h
  obtain ⟨region, -, h⟩ := ok_of_bind_ok h
  obtain ⟨-, -, h⟩ := ok_of_bind_ok h
  split at h
  · cases h
  · cases h
  obtain ⟨-, -, h⟩ := ok_of_bind_ok h
  split at h
  · next k _ _ _ hfree => exact ⟨k, hfree⟩
  · cases h

theorem State.startProving_svc (s : State) (k : Nat) (v : Svc) : (s.startProving k v).svc? k =
    some { v with st := .proving, lapse := s.lapsed v, measured := 0, runs := 0, discarded := 0 } :=
  State.setSvc_svc_same ..

theorem svcRegister_admits (h : s.frontArg mb.val 0x0601 0 false r a)
    (hi : (s.takeReq mb.val).svcImage { r with arg := a } = .ok i)
    (hv : (s.takeReq mb.val).svcContract { r with arg := a } i = .ok v)
    (hintime : (s.takeReq mb.val).inTicks v.inSrc v.inBytes + v.waTicks ≤ v.deadline) :
    ∃ (k : Nat) (s2 : State) (y : Svc), exec (.svcRegister mb) s = .next (s2.waits r k 0) ∧
      tabFree s.svcs 64 = some k ∧ s2.svc? k = some y ∧ y.st = .proving ∧ y.part = v.part ∧ y.runs = 0 ∧
      y.period = v.period ∧ y.deadline = v.deadline ∧ y.cores = v.cores := by
  obtain ⟨k, hfree⟩ := State.svcContract_free hv
  obtain ⟨u, hcmd⟩ := cmdSvcRegister_admits hi hv hintime
  rw [hfree] at hcmd
  exact ⟨k, u.startProving k v, _, next_frontArg_wait h hcmd, hfree,
    State.startProving_svc .., rfl, rfl, rfl, rfl, rfl, rfl⟩

end Register

/-! ### What a service holds (R254) -/

/-- A core leaves its reservation. -/
def State.unreserve (s : State) (c : Nat) : State := s.setCore c { s.core c with svc := none }

theorem State.foldl_unreserve_core (s : State) (cs : List Nat) (c : Nat) :
    (cs.foldl State.unreserve s).core c = if c ∈ cs then { s.core c with svc := none } else s.core c := by
  induction cs generalizing s with
  | nil => rfl
  | cons d cs ih =>
    rw [List.foldl_cons, ih]
    by_cases hcd : c = d
    · subst hcd; simp [State.unreserve]
    · simp [State.unreserve, hcd, State.setCore_core_ne _ _ _ hcd]

section Free
variable {s : State} {k : Nat} {v : Svc}

/-- A released service leaves the table, and its cores, registers and measurement go. -/
theorem State.svcFree_eq (h : s.svc? k = some v) : s.svcFree k =
    (({ v.cores.foldl State.unreserve s with svcs := tabDel (v.cores.foldl State.unreserve s).svcs k }).dropRegs
      (.svc k)).unmeasure 4 k := by
  simp only [State.svcFree, h]; rfl

theorem State.svcFree_svc_same (s : State) (k : Nat) : (s.svcFree k).svc? k = none := by
  cases h : s.svc? k with
  | none => rw [State.svcFree, h]; exact h
  | some v => rw [State.svcFree_eq h]; exact tabFind_tabDel_same ..

theorem State.svcFree_svc_ne {i : Nat} (h : s.svc? k = some v) (hi : i ≠ k) : (s.svcFree k).svc? i = s.svc? i := by
  have hcores : (v.cores.foldl State.unreserve s).svcs = s.svcs := foldl_keeps State.svcs _ _ _ fun _ _ => rfl
  rw [State.svcFree_eq h, hcores]
  exact tabFind_tabDel_ne _ hi

theorem State.svcFree_core (h : s.svc? k = some v) (c : Nat) :
    (s.svcFree k).core c = if c ∈ v.cores then { s.core c with svc := none } else s.core c := by
  rw [State.svcFree_eq h]
  exact State.foldl_unreserve_core s v.cores c

theorem State.svcFree_frame (h : s.svc? k = some v) :
    (s.svcFree k).jobs = s.jobs ∧ (s.svcFree k).devMem = s.devMem := by
  rw [State.svcFree_eq h]
  exact ⟨foldl_keeps State.jobs _ _ _ fun _ _ => rfl, foldl_keeps State.devMem _ _ _ fun _ _ => rfl⟩

end Free

/-! ### Commands on a service -/

section Commands
variable {s : State} {mb : MbId} {r : Req} {k : Nat} {v : Svc}

theorem svcDeregister_idle (hf : s.front mb.val 0x0602 1 false r) (ho : s.ownSvc r k v) (hst : v.st ≠ .proving)
    (hstay : v.leaving = false) (hidle : v.ph = .idle) :
    ∃ s2 : State, exec (.svcDeregister mb) s = .next (s2.reply r stOk []) ∧ s2.svc? k = none ∧
      (∀ i, i ≠ k → s2.svc? i = s.svc? i) ∧ (∀ c ∈ v.cores, (s2.core c).svc = none) ∧
      (∀ c, c ∉ v.cores → s2.core c = s.core c) ∧ s2.jobs = s.jobs ∧ s2.devMem = s.devMem := by
  have hcmd : cmdSvcDeregister (s.takeReq mb.val) r = .done ((s.takeReq mb.val).svcFree k) stOk [] := by
    simp [cmdSvcDeregister, State.reqSvc_of_ownSvc mb.val ho, hst, hstay, hidle, okNow]
  obtain ⟨-, hk, -⟩ := ho
  have hk' : (s.takeReq mb.val).svc? k = some v := hk
  exact ⟨_, next_front_done hf hcmd, State.svcFree_svc_same .., fun i => State.svcFree_svc_ne hk',
    fun c hc => by rw [State.svcFree_core hk', if_pos hc], fun c hc => (State.svcFree_core hk' c).trans (if_neg hc),
    State.svcFree_frame hk'⟩

theorem svcDeregister_running (hf : s.front mb.val 0x0602 1 false r) (ho : s.ownSvc r k v) (hst : v.st ≠ .proving)
    (hstay : v.leaving = false) (hrun : v.ph ≠ .idle) : exec (.svcDeregister mb) s =
      .next (((s.takeReq mb.val).setSvc k { v with leaving := true }).waits r k 0) :=
  next_front_wait hf (by simp [cmdSvcDeregister, State.reqSvc_of_ownSvc mb.val ho, hst, hstay, hrun])

/-- A service whose periods count afresh from 0 (R245). -/
def Svc.armed (v : Svc) (t0 : Nat) : Svc :=
  { v with st := .armed, ph := .idle, t0 := t0, k := 0, started := false, heldDb := false }
/-- IN_CTR and DONE_CTR of a service start from 0 (R245). -/
def State.zeroCtrs (s : State) (v : Svc) : State :=
  (s.setCtr (v.ctrBase + v.counters) 0).setCtr (v.ctrBase + v.counters + 1) 0

theorem cmdSvcArm_arms (hr : s.reqSvc r = .ok (k, v)) (hst : v.st = .registered) (hstay : v.leaving = false)
    (ht0 : (v.doorbellMode = true ∧ r.w 1 = 0) ∨
      (v.doorbellMode = false ∧ s.tick + 10000 ≤ r.w 1 ∧ r.w 1 ≤ s.tick + 2 ^ 40)) :
    cmdSvcArm s r = .done ((s.zeroCtrs v).setSvc k (v.armed (r.w 1))) stOk [] := by
  have hok : ¬((if v.doorbellMode then decide (r.w 1 ≠ 0)
      else decide (r.w 1 < s.tick + 10000) || decide (s.tick + 2 ^ 40 < r.w 1)) = true) := by
    obtain ⟨hmode, h0⟩ | ⟨hmode, hlo, hhi⟩ := ht0
    · simp [hmode, h0]
    · simp only [hmode, Bool.false_eq_true, if_false, Bool.or_eq_true, decide_eq_true_eq]
      omega
  have hwrong : ¬(v.st ≠ .registered ∨ v.leaving = true) := by simp [hst, hstay]
  simp only [cmdSvcArm, hr, if_neg hwrong, if_neg hok, okNow]
  rfl

@[simp] theorem State.zeroCtrs_svc (s : State) (v : Svc) (i : Nat) : (s.zeroCtrs v).svc? i = s.svc? i := by
  simp [State.zeroCtrs]
@[simp] theorem State.zeroCtrs_jobs (s : State) (v : Svc) : (s.zeroCtrs v).jobs = s.jobs := by simp [State.zeroCtrs]
@[simp] theorem State.zeroCtrs_devMem (s : State) (v : Svc) : (s.zeroCtrs v).devMem = s.devMem := by
  simp [State.zeroCtrs]
@[simp] theorem State.zeroCtrs_hostMem (s : State) (v : Svc) : (s.zeroCtrs v).hostMem = s.hostMem := by
  simp [State.zeroCtrs]

theorem State.zeroCtrs_ctr (s : State) (v : Svc) : (s.zeroCtrs v).ctr (v.ctrBase + v.counters) = 0 ∧
    (s.zeroCtrs v).ctr (v.ctrBase + v.counters + 1) = 0 ∧
    ∀ c, c ≠ v.ctrBase + v.counters → c ≠ v.ctrBase + v.counters + 1 → (s.zeroCtrs v).ctr c = s.ctr c := by
  refine ⟨?_, State.setCtr_ctr_same .., fun c hin hdone => ?_⟩
  · exact (State.setCtr_ctr_ne _ _ _ (Nat.ne_of_lt (Nat.lt_succ_self _))).trans (State.setCtr_ctr_same ..)
  · exact (State.setCtr_ctr_ne _ _ _ hdone).trans (State.setCtr_ctr_ne _ _ _ hin)

theorem svcArm_arms (hf : s.front mb.val 0x0603 2 false r) (ho : s.ownSvc r k v) (hst : v.st = .registered)
    (hstay : v.leaving = false) (ht0 : (v.doorbellMode = true ∧ r.w 1 = 0) ∨
      (v.doorbellMode = false ∧ s.tick + 10000 ≤ r.w 1 ∧ r.w 1 ≤ s.tick + 2 ^ 40)) :
    ∃ s2 : State, exec (.svcArm mb) s = .next (s2.reply r stOk []) ∧
      s2.svc? k = some { v with st := .armed, ph := .idle, t0 := r.w 1, k := 0, started := false, heldDb := false } ∧
      s2.ctr (v.ctrBase + v.counters) = 0 ∧ s2.ctr (v.ctrBase + v.counters + 1) = 0 ∧
      (∀ c, c ≠ v.ctrBase + v.counters → c ≠ v.ctrBase + v.counters + 1 → s2.ctr c = s.ctr c) ∧
      (∀ i, i ≠ k → s2.svc? i = s.svc? i) ∧ s2.jobs = s.jobs ∧ s2.devMem = s.devMem ∧ s2.hostMem = s.hostMem := by
  have hcmd := cmdSvcArm_arms (State.reqSvc_of_ownSvc mb.val ho) hst hstay ht0
  obtain ⟨hin, hdone, hother⟩ := (s.takeReq mb.val).zeroCtrs_ctr v
  refine ⟨_, next_front_done hf hcmd, State.setSvc_svc_same ..,
    (State.setSvc_ctr ..).trans hin, (State.setSvc_ctr ..).trans hdone,
    fun c hc hc' => (State.setSvc_ctr ..).trans (hother c hc hc'), fun i hi => ?_, ?_, ?_, ?_⟩
  · rw [State.setSvc_svc_ne _ _ _ hi, State.zeroCtrs_svc, State.takeReq_svc]
  all_goals simp

theorem publish_accepts {w : Nat} {x : Region} (hf : s.front mb.val 0x0604 1 false r) (ho : s.ownSvc r k v)
    (hw : w = bitsOf (r.w 0) 13 8) (hpub : v.pubRegion = none) (hver : v.pubVerify = none)
    (hx : s.region? w = some x) (hpart : x.part = some v.part) :
    exec (.publish mb) s = .next (((s.takeReq mb.val).setSvc k { v with pubVerify := some w }).reply r stOk []) := by
  subst hw
  have hx' : (s.takeReq mb.val).region? (bitsOf (r.w 0) 13 8) = some x := hx
  exact next_front_done hf (by simp [cmdPublish, State.reqSvc_of_ownSvc mb.val ho, hpub, hver, hx', hpart, okNow])

theorem svcResume_proves (hf : s.front mb.val 0x0605 1 false r) (ho : s.ownSvc r k v) (hst : v.st = .suspended)
    (hstay : v.leaving = false) :
    ∃ (s2 : State) (y : Svc), exec (.svcResume mb) s = .next (s2.waits r k 0) ∧ s2.svc? k = some y ∧
      y.st = .proving ∧ y.resuming = true ∧ y.runs = 0 ∧ y.measured = 0 ∧ y.part = v.part := by
  have hcmd : cmdSvcResume (s.takeReq mb.val) r =
      .wait ((s.takeReq mb.val).startProving k { v with resuming := true }) k 0 := by
    simp [cmdSvcResume, State.reqSvc_of_ownSvc mb.val ho, hst, hstay]
  exact ⟨_, _, next_front_wait hf hcmd, State.startProving_svc .., rfl, rfl, rfl, rfl, rfl⟩

theorem svcArm_wrong (ho : s.ownSvc r k v) (hf : s.front mb.val 0x0603 2 false r)
    (hst : v.st ≠ .registered ∨ v.leaving = true) :
    exec (.svcArm mb) s = .next ((s.takeReq mb.val).reply r stWrong []) :=
  next_front_done hf (by simp only [cmdSvcArm, State.reqSvc_of_ownSvc mb.val ho, if_pos hst, failWith_wrong])

theorem svcResume_wrong (ho : s.ownSvc r k v) (hf : s.front mb.val 0x0605 1 false r)
    (hst : v.st ≠ .suspended ∨ v.leaving = true) :
    exec (.svcResume mb) s = .next ((s.takeReq mb.val).reply r stWrong []) :=
  next_front_done hf (by simp only [cmdSvcResume, State.reqSvc_of_ownSvc mb.val ho, if_pos hst, failWith_wrong])

theorem svcDeregister_wrong (ho : s.ownSvc r k v) (hf : s.front mb.val 0x0602 1 false r)
    (hst : v.st = .proving ∨ v.leaving = true) :
    exec (.svcDeregister mb) s = .next ((s.takeReq mb.val).reply r stWrong []) :=
  next_front_done hf (by simp only [cmdSvcDeregister, State.reqSvc_of_ownSvc mb.val ho, if_pos hst, failWith_wrong])

end Commands

/-- Settles O28: each command's own checks decide, on the state that has taken the request, between its answer at
once and the wait for its proving run or its period. A service that proves or leaves answers SVC_DEREGISTER with
WRONG_STATE, as log 56 reads R254. -/
theorem serviceCommands : Obligations.ServiceCommands := by
  unfold Obligations.ServiceCommands
  refine ⟨?register, fun mb s r k v hf ho hst hstay => ⟨svcDeregister_idle hf ho hst hstay,
      svcDeregister_running hf ho hst hstay⟩, fun mb s r k v => svcArm_arms, fun mb s r k w v x => publish_accepts,
    fun mb s r k v => svcResume_proves, fun mb s r k v ho => ⟨svcArm_wrong ho, svcResume_wrong ho,
      svcDeregister_wrong ho⟩⟩
  case register =>
    rintro mb s _ r a h rfl
    exact ⟨fun e hi he => next_frontArg_done h (cmdSvcRegister_of_image_error hi he),
      fun i e hi hv he => next_frontArg_done h (cmdSvcRegister_of_contract_error hi hv he),
      fun i v hi hv hlate => next_frontArg_done h (cmdSvcRegister_refuses hi hv hlate),
      fun i v => svcRegister_admits h⟩

/-! ### The proving run (R243, R252) -/

section Proving
variable {svc : SvcId} {n : Nat} {s : State} {v : Svc}

/-- The service with one more run counted. -/
def Svc.countRun (v : Svc) (n : Nat) : Svc := { v with runs := v.runs + 1, measured := max v.measured n }

theorem exec_provingRunComplete_elsewhere (h : ∀ v, s.svc? svc.val = some v → v.st ≠ .proving) :
    exec (.provingRunComplete svc n) s = .next s := by
  change execProvingRunComplete svc n s = _
  cases hk : s.svc? svc.val with
  | none => simp [execProvingRunComplete, hk]
  | some v => simp [execProvingRunComplete, hk, h v hk]

theorem exec_provingRunComplete_kept (h : s.svc? svc.val = some v) (hst : v.st = .proving)
    (hlapse : v.lapse = false) (hnow : s.lapsed v = false) : exec (.provingRunComplete svc n) s =
      .next (if v.wcCycles < n then (s.afterProving v).notProved svc.val (v.countRun n) stRefused
        else if v.runs + 1 = 16 then (s.afterProving v).proved svc.val (v.countRun n)
        else (s.afterProving v).setSvc svc.val (v.countRun n)) := by
  have hkept : ¬(v.lapse = true ∨ s.lapsed v = true) := by simp [hlapse, hnow]
  change execProvingRunComplete svc n s = _
  simp only [execProvingRunComplete, h, if_neg (not_not_intro hst), if_neg hkept]
  rfl

/-- A run in which the guarantee lapsed is discarded. -/
theorem exec_provingRunComplete_discarded (h : s.svc? svc.val = some v) (hst : v.st = .proving)
    (hlapse : v.lapse = true ∨ s.lapsed v = true) (hmore : v.discarded + 1 ≠ 16) :
    exec (.provingRunComplete svc n) s = .next ((s.afterProving v).setSvc svc.val
      { v with discarded := v.discarded + 1, lapse := s.lapsed v }) := by
  change execProvingRunComplete svc n s = _
  simp only [execProvingRunComplete, h, if_neg (not_not_intro hst), if_pos hlapse, if_neg hmore]

theorem State.proved_svc (s : State) (k : Nat) (v : Svc) : (s.proved k v).svc? k =
    some { v with st := .registered, resuming := false, lapse := false, window := [] } := by
  unfold State.proved
  dsimp only
  split <;> exact (State.answerWhere_svc ..).trans (State.setSvc_svc_same ..)

theorem State.notProved_of_new (s : State) (k status : Nat) (h : v.resuming = false) :
    (s.notProved k v status).svc? k = none := by
  simp only [State.notProved, h, Bool.false_eq_true, if_false]
  exact (State.answerWhere_svc ..).trans (State.svcFree_svc_same ..)

theorem State.notProved_of_resuming (s : State) (k status : Nat) (h : v.resuming = true) :
    (s.notProved k v status).svc? k = some { v with st := .suspended, resuming := false, lapse := false } := by
  simp only [State.notProved, h, if_true]
  exact (State.answerWhere_svc ..).trans (State.setSvc_svc_same ..)

theorem provingRun_counts (h : s.svc? svc.val = some v) (hst : v.st = .proving) (hlapse : v.lapse = false)
    (hnow : s.lapsed v = false) :
    (n ≤ v.wcCycles → v.runs + 1 ≠ 16 → ∃ t : State, exec (.provingRunComplete svc n) s = .next t ∧
      t.svc? svc.val = some { v with runs := v.runs + 1, measured := max v.measured n }) ∧
    (n ≤ v.wcCycles → v.runs + 1 = 16 → ∃ (t : State) (y : Svc), exec (.provingRunComplete svc n) s = .next t ∧
      t.svc? svc.val = some y ∧ y.st = .registered ∧ y.measured = max v.measured n ∧ y.window = []) ∧
    (v.wcCycles < n → v.resuming = false → ∃ t : State, exec (.provingRunComplete svc n) s = .next t ∧
      t.svc? svc.val = none) ∧
    (v.wcCycles < n → v.resuming = true → ∃ (t : State) (y : Svc), exec (.provingRunComplete svc n) s = .next t ∧
      t.svc? svc.val = some y ∧ y.st = .suspended) := by
  rw [exec_provingRunComplete_kept h hst hlapse hnow]
  refine ⟨fun hin hmore => ?_, fun hin hlast => ?_, fun hover hnew => ?_, fun hover hres => ?_⟩
  · rw [if_neg (Nat.not_lt_of_le hin), if_neg hmore]
    exact ⟨_, rfl, State.setSvc_svc_same ..⟩
  · rw [if_neg (Nat.not_lt_of_le hin), if_pos hlast]
    exact ⟨_, _, rfl, State.proved_svc .., rfl, rfl, rfl⟩
  · rw [if_pos hover]
    exact ⟨_, rfl, State.notProved_of_new _ _ _ hnew⟩
  · rw [if_pos hover]
    exact ⟨_, _, rfl, State.notProved_of_resuming _ _ _ hres, rfl⟩

end Proving

/-! ### Publication (R256, R257) -/

section Publication
variable {svc : SvcId} {s : State} {v : Svc}

theorem exec_publishVerified_elsewhere (h : ∀ v, s.svc? svc.val = some v → v.pubVerify = none) :
    exec (.publishVerified svc) s = .next s := by
  change execPublishVerified svc s = _
  cases hk : s.svc? svc.val with
  | none => simp [execPublishVerified, hk]
  | some v => simp [execPublishVerified, hk, h v hk]

/-- Weights that pass their check become pending; others leave a PUBLISH_FAILED record. -/
theorem exec_publishVerified_checked {w why : Nat} {x : Region} {g : SvcHead} (h : s.svc? svc.val = some v)
    (hver : v.pubVerify = some w) (hx : s.region? w = some x) (hg : g = svcHead (s.devMem.readN v.image 64))
    (hwhy : why = s.weightsCheck x.base x.len
      (weightMap (s.devMem.readN (v.image + g.wmapOff) (16 * g.wmapN)) { g with wmapOff := 0 })) :
    ∃ (u : State) (r : SvcRec), r.kind = 4 ∧ exec (.publishVerified svc) s =
      .next (if why = 0 then s.setSvc svc.val { v with pubVerify := none, pubRegion := some w }
        else (u.setSvc svc.val { v with pubVerify := none }).svcRecord svc.val r) := by
  subst hg hwhy
  change ∃ u r, _ ∧ execPublishVerified svc s = _
  simp only [execPublishVerified, h, hver, hx]
  exact ⟨_, { per := v.k, kind := 4, reason := _, region := w, start := _, tIn := _, tEnd := _ }, rfl, rfl⟩

theorem publishVerified_judges {w why : Nat} {x : Region} {g : SvcHead} (h : s.svc? svc.val = some v)
    (hver : v.pubVerify = some w) (hx : s.region? w = some x) (hg : g = svcHead (s.devMem.readN v.image 64))
    (hwhy : why = s.weightsCheck x.base x.len
      (weightMap (s.devMem.readN (v.image + g.wmapOff) (16 * g.wmapN)) { g with wmapOff := 0 })) :
    (why = 0 → exec (.publishVerified svc) s =
      .next (s.setSvc svc.val { v with pubVerify := none, pubRegion := some w })) ∧
    (why ≠ 0 → ∃ (t : State) (y : Svc), exec (.publishVerified svc) s = .next t ∧ t.svc? svc.val = some y ∧
      y.pubVerify = none ∧ y.pubRegion = v.pubRegion ∧ y.wregion = v.wregion) := by
  obtain ⟨u, r, hr, hexec⟩ := exec_publishVerified_checked h hver hx hg hwhy
  refine ⟨fun hok => by rw [hexec, if_pos hok], fun hbad => ?_⟩
  rw [if_neg hbad] at hexec
  obtain ⟨y, hy, hoff⟩ : ((u.setSvc svc.val { v with pubVerify := none }).svcRecord svc.val r).showsSvc svc.val
      { v with pubVerify := none } := State.showsSvc_svcRecord r (State.showsSvc_setSvc ..) (.inl (by simp [hr]))
  exact ⟨_, y, hexec, hy, congrArg Svc.pubVerify hoff, (congrArg Svc.pubRegion hoff :), (congrArg Svc.wregion hoff :)⟩

end Publication

/-- Settles O29: a kept run is counted and the sixteenth or an overlong one ends the proof, whatever the undefined
contents that a run leaves behind; the check of the weights decides between a pending region and a record. A run's
cycles come as an operand (log 57). -/
theorem serviceVerdicts : Obligations.ServiceVerdicts := by
  unfold Obligations.ServiceVerdicts
  exact ⟨fun _ _ _ => exec_provingRunComplete_elsewhere, fun _ _ _ _ => provingRun_counts,
    fun _ _ _ _ h hst hlapse hmore =>
      ⟨_, exec_provingRunComplete_discarded h hst hlapse hmore, State.setSvc_svc_same ..⟩,
    fun _ _ => exec_publishVerified_elsewhere, fun _ _ _ _ _ _ _ => publishVerified_judges⟩

end Sys2Proof.Machine
end
